-- ==== Sys2Proof/Word.lean ====
section
/-! DEFINITION. The word types of the BSL-24 model and the finite map that every sparse
collection of its state uses (spec/00_scope.md R9, R10). -/

namespace Sys2Proof

/-- One byte of any memory. -/
abbrev Byte := BitVec 8

/-- A byte string, lowest address first. -/
abbrev Bytes := List Byte

/-- A 64-bit word: scalar registers, addresses, timebase values. -/
abbrev Word := BitVec 64

/-- A finite map from natural keys, held as a list of pairs with strictly rising keys.
A key that is not listed has the map's default value; no listed pair holds that default.
A map of bytes is the host's `List Host.Cell`. -/
abbrev NMap (α : Type) := List (Nat × α)

/-- One kibibyte, mebibyte and gibibyte (R10). -/
abbrev kib : Nat := 1024
abbrev mib : Nat := 1048576
abbrev gib : Nat := 1073741824

end Sys2Proof
end

