-- ==== Sys2Proof/Syntax.lean ====
section
/-! DEFINITION. The commands the block takes: one constructor per row of spec/opcode_table.json,
with the operands that the outside, or the unit that reports the event, supplies. What a step finds
in the module's own state is not an operand. -/

namespace Sys2Proof

/-- Logical tile, 0 to 95 (R5). -/
abbrev TileId := Fin 96
/-- Compute die (R19). -/
abbrev DieId := Fin 12
/-- HBM stack (R19). -/
abbrev StackId := Fin 24
/-- Penmond port (R306). -/
abbrev PortId := Fin 36
/-- Lane pair of a port; 8 is the spare (R307). -/
abbrev LaneId := Fin 9
/-- Partition (R379). -/
abbrev PartId := Fin 8
/-- Queue (R240). -/
abbrev QueueId := Fin 4096
/-- PCI Express function: 0 physical, v virtual function v (R279). -/
abbrev FnId := Fin 9
/-- Pane of a matrix array (R102). -/
abbrev PaneId := Fin 16
/-- Logic die in the row order of R20 (R301). -/
abbrev LogicDie := Fin 20
/-- Strand of a ring collective (R341). -/
abbrev StrandId := Fin 12
/-- Bridge link in the numbering of R467. -/
abbrev BridgeLink := Fin 31

/-- The three engines of a tile (R132). -/
inductive Engine where
  | array | vector | dma
deriving DecidableEq, Repr

/-- What the end-of-pass checks of R118 find: nothing, a mismatch of one pane's path, a mismatch of
a unit that all panes share (R116), or a double-bit error of the accumulator store (R187).
`mech` is the mechanism code of R404. -/
inductive ArrayCheck where
  | good
  | paneMismatch (mech : BitVec 8)
  | sharedMismatch (mech : BitVec 8)
  | accDoubleBit
deriving DecidableEq, Repr

/-- What the checks of an engine's units find of one operation: nothing, a mismatch of duplicated or
residue-checked logic by its mechanism code of R404, or a double-bit error of its storage (R118, R170, R187). -/
inductive UnitCheck where
  | good
  | mismatch (mech : BitVec 8)
  | doubleBit
deriving DecidableEq, Repr

/-- What the SECDED check of a scratchpad line finds; the word is one of the line's eight (R174). -/
inductive EccSeen where
  | clean
  | single
  | double (word : Fin 8)
deriving DecidableEq, Repr

/-- What the Reed-Solomon check of an HBM line finds (R225, R226). -/
inductive LineSeen where
  | clean | corrected | uncorrectable
deriving DecidableEq, Repr

/-- A queue and the sequence number of one of its commands. -/
structure CmdRef where
  queue : QueueId
  seq : BitVec 32
deriving DecidableEq, Repr

/-- An access that a stack agent serves: device physical address, bytes, and the command it is for. -/
structure StackAccess where
  pa : BitVec 42
  bytes : Nat
  cmd : Option CmdRef
deriving DecidableEq, Repr

/-- An atomic request as it reaches an agent: the command that issued it, the issuing die, and the
64-byte record of R230 (its op field is the row's own, and is not carried). -/
structure AtomicRequest where
  cmd : CmdRef
  die : DieId
  target : BitVec 64
  operand : BitVec 64
  extra : BitVec 64
  result : BitVec 64
  w64 : Bool
  reserved : BitVec 251
deriving DecidableEq, Repr

/-- A mailbox message as a driver submits it: the function whose mailbox carries it and the header
fields of R288 but for the opcode, which is the row's own; then the payload. -/
structure Msg where
  fn : FnId
  resp : Bool
  rsv1 : BitVec 15
  length : BitVec 16
  tag : BitVec 16
  seq : BitVec 32
  status : BitVec 16
  rsv2 : BitVec 16
  payload : Bytes
deriving DecidableEq, Repr

/-- A partition operation comes as a mailbox message or as a partition command of a queue (R381). -/
inductive PartSource where
  | msg (m : Msg)
  | cmd (q : QueueId)
deriving DecidableEq, Repr

/-- The event ring and the fault ring of a function (R299). -/
inductive RingId where
  | event | fault
deriving DecidableEq, Repr

/-- What a PLDM request names (R303): a Type 0 request, or a sensor of Type 2. -/
inductive PldmSensor where
  | base
  | inputVoltage | inputCurrent | inputPower | moduleEnergy | hottestDie | hottestStack
  | stackTemp (k : StackId)
  | powerState | sagWarning | tripLatched | sealIntact
deriving DecidableEq, Repr

/-- The two carriers of SPDM (R304). -/
inductive SpdmVia where
  | sideband | doe
deriving DecidableEq, Repr

/-- A received codeword of R311: its trailer, and what the decoder found (bad symbols, CRC). -/
structure Codeword where
  fseq : BitVec 12
  aseq : BitVec 12
  nack : Bool
  vc : BitVec 3
  cls : Bool
  cvc : BitVec 3
  ccls : Bool
  credits : BitVec 7
  badSymbols : Nat
  crcOk : Bool
deriving DecidableEq, Repr

/-- A Penmond packet: the header fields of R315 and the data. -/
structure Packet where
  dst : BitVec 14
  src : BitVec 14
  vc : BitVec 3
  type : BitVec 5
  len : BitVec 13
  ttl : BitVec 7
  seq : BitVec 24
  tag : BitVec 16
  tries : BitVec 2
  srcPart : BitVec 3
  addr : BitVec 46
  ctr : BitVec 17
  ctrValid : Bool
  cls : Bool
  crc : BitVec 32
  data : Bytes
deriving DecidableEq, Repr

/-- What a management-channel packet says (R322, R329, R373, R449). -/
inductive Mgmt where
  | peerCheck (id : BitVec 14) (port : BitVec 6)
  | portState (id : BitVec 14) (port : BitVec 6) (up : Bool)
  | hold (id : BitVec 14) (port : PortId)
  | release (id : BitVec 14) (port : PortId)
  | becomeRoot (id : BitVec 14)
  | resign (id : BitVec 14)
  | lockstepIdentity (id : BitVec 14) (part : BitVec 3) (peerPart : BitVec 3)
      (fw fnTables : BitVec 32) (dies : Nat) (digest : BitVec 128)
deriving DecidableEq, Repr

/-- What a time flit's exchange yields (R329): the parent's timebase at this instant, the measured
offset in ps, and whether the parent is aligned or is the root. -/
structure TimeFlit where
  parentTime : BitVec 64
  offsetPs : Int
  delayPs : Nat
  parentGood : Bool
deriving DecidableEq, Repr

/-- The hash record of R375. -/
structure HashRec where
  queue : QueueId
  seq : BitVec 32
  status : BitVec 16
  flags : BitVec 16
  fast : Bool
  hash : BitVec 64
  blocks : BitVec 32
deriving DecidableEq, Repr

/-- The hash of one output block (R374). -/
structure BlockHash where
  tile : BitVec 7
  kind : BitVec 3
  ident : BitVec 64
  hash : BitVec 64
deriving DecidableEq, Repr

/-- An engine with a progress watchdog (R407). -/
inductive EngineId where
  | sequencer (t : TileId)
  | array (t : TileId)
  | vector (t : TileId)
  | dma (t : TileId)
  | stackAgent (k : StackId)
  | commandProcessor (c : Fin 8) (cmd : Option CmdRef)
  | linkRouter (l : Fin 6)
deriving DecidableEq, Repr

/-- A crossing queue whose pointers mismatch, by the rows of R40. -/
inductive Crossing where
  | bridge (l : BridgeLink)
  | port (p : PortId)
  | dieSide (d : DieId) (cmd : Option CmdRef)
  | hubPcie
  | traceFifo (f : LogicDie)
  | eventRing
deriving DecidableEq, Repr

/-- A voltage island: its logic die, its row of R31 (0 compute logic to 6 wake logic), and the stack
where it is a stack rail. -/
structure Island where
  die : LogicDie
  kind : Fin 7
  stack : Option StackId
deriving DecidableEq, Repr

/-- What the capo reads for the module loop (R426, R436), in mW: the power of everything that is not a
compute die, and each compute die's; and the temperatures of the link dies and hubs in 1/16 degree. -/
structure PowerReading where
  others : Nat
  dies : List Nat
  temps : List (LogicDie × Int)
deriving DecidableEq, Repr

/-- What a die's controller reads (R425, R436): power in mW, the hottest of the die's sensors and of
its two stacks in 1/16 degree, and the highest clock (25 MHz units) whose predicted power fits. -/
structure DieReading where
  power : Nat
  temp : Int
  stackLow : Int
  stackHigh : Int
  fits : BitVec 7
deriving DecidableEq, Repr

/-- The unit that reaches a trip temperature (R437). -/
inductive ThermalUnit where
  | die (d : LogicDie)
  | stack (k : StackId)
deriving DecidableEq, Repr

/-- Activity units that one command ran up on a tile in an interval; `none`: no command (R440). -/
structure TileActivity where
  tile : TileId
  cmd : Option CmdRef
  units : Nat
deriving DecidableEq, Repr

/-- Bytes that a stack agent or a link die served for one command in an interval (R440). -/
structure BytesServed where
  cmd : CmdRef
  bytes : Nat
deriving DecidableEq, Repr

/-- One 10 us interval as the meters give it (R439, R440). Energies are input-referred, in units of
2^-16 uJ; `modelled` marks a die whose energy is the activity model's (R443). -/
structure EnergyReading where
  dies : List (Nat × Bool)
  activity : List TileActivity
  memStacks : List (Nat × Nat × List BytesServed)
  links : List (Nat × Nat × List BytesServed)
  hubs : Nat
  vin : BitVec 16
  iin : BitVec 16
  pin : BitVec 24
deriving DecidableEq, Repr

/-- How one stack came through training at a start (R464, R467). -/
inductive StackStart where
  | saved | scratch | failed
deriving DecidableEq, Repr

/-- What a start meets outside the module's recorded state (R464): whether the flash reads, the PUF
secret is rebuilt and the flash counters authenticate, how each stack trains, and how the PCI Express
link trains (rate code and width of R467, 0 for none). -/
structure StartOutcome where
  flashReads : Bool
  pufOk : Bool
  countersOk : Bool
  memStacks : List StackStart
  pcieRate : BitVec 4
  pcieWidth : BitVec 5
  pcieSaved : Bool
deriving DecidableEq, Repr

/-- One sample of an ageing monitor (R516): class 1 to 3, unit, lane pair, the measured value, and
(class 3) the eye width in 1/1,000 UI; then what the fit of R517 needs from calibration. -/
structure AgeingSample where
  cls : BitVec 8
  unit : BitVec 8
  lane : BitVec 4
  value : BitVec 32
  width : BitVec 32
  baseline : BitVec 32
deriving DecidableEq, Repr

/-- The commands of the block: one constructor for each row of the table of operations and events. -/
inductive Instr where
  /-- ALU_ADD (R128): Sequencer alu fn 0x000: d = a + b, wrapping modulo 2^64. -/
  | aluAdd (t : TileId) (w : BitVec 32)
  /-- ALU_SUB (R128): Sequencer alu fn 0x001: d = a - b. -/
  | aluSub (t : TileId) (w : BitVec 32)
  /-- ALU_AND (R128): Sequencer alu fn 0x002: bitwise and. -/
  | aluAnd (t : TileId) (w : BitVec 32)
  /-- ALU_OR (R128): Sequencer alu fn 0x003: bitwise or. -/
  | aluOr (t : TileId) (w : BitVec 32)
  /-- ALU_XOR (R128): Sequencer alu fn 0x004: bitwise xor. -/
  | aluXor (t : TileId) (w : BitVec 32)
  /-- ALU_SHL (R128): Sequencer alu fn 0x005: shift left by b[5:0]. -/
  | aluShl (t : TileId) (w : BitVec 32)
  /-- ALU_SHR (R128): Sequencer alu fn 0x006: logical shift right by b[5:0]. -/
  | aluShr (t : TileId) (w : BitVec 32)
  /-- ALU_SAR (R128): Sequencer alu fn 0x007: arithmetic shift right by b[5:0]. -/
  | aluSar (t : TileId) (w : BitVec 32)
  /-- ALU_MUL (R128): Sequencer alu fn 0x008: low 64 bits of the product. -/
  | aluMul (t : TileId) (w : BitVec 32)
  /-- ALU_MULHS (R128): Sequencer alu fn 0x00A: high 64 bits of the signed product. -/
  | aluMulhs (t : TileId) (w : BitVec 32)
  /-- ALU_MULHU (R128): Sequencer alu fn 0x00B: high 64 bits of the unsigned product. -/
  | aluMulhu (t : TileId) (w : BitVec 32)
  /-- ALU_DIVS (R129): Sequencer signed division, rounding toward zero, with defined results for division by zero and overflow. -/
  | aluDivs (t : TileId) (w : BitVec 32)
  /-- ALU_DIVU (R129): Sequencer unsigned division, all ones on division by zero. -/
  | aluDivu (t : TileId) (w : BitVec 32)
  /-- ALU_REMS (R129): Sequencer signed remainder a - quotient x b. -/
  | aluRems (t : TileId) (w : BitVec 32)
  /-- ALU_REMU (R129): Sequencer unsigned remainder. -/
  | aluRemu (t : TileId) (w : BitVec 32)
  /-- ALU_SLT (R128): Sequencer alu fn 0x010: d = 1 if a < b signed. -/
  | aluSlt (t : TileId) (w : BitVec 32)
  /-- ALU_SLTU (R128): Sequencer alu fn 0x011: d = 1 if a < b unsigned. -/
  | aluSltu (t : TileId) (w : BitVec 32)
  /-- ALU_MIN (R128): Sequencer alu fn 0x012: signed minimum. -/
  | aluMin (t : TileId) (w : BitVec 32)
  /-- ALU_MAX (R128): Sequencer alu fn 0x013: signed maximum. -/
  | aluMax (t : TileId) (w : BitVec 32)
  /-- ADDI (R128): Sequencer adds the sign-extended immediate to a. -/
  | addi (t : TileId) (w : BitVec 32)
  /-- ANDI (R128): Sequencer ands a with the zero-extended immediate. -/
  | andi (t : TileId) (w : BitVec 32)
  /-- ORI (R128): Sequencer ors a with the zero-extended immediate. -/
  | ori (t : TileId) (w : BitVec 32)
  /-- XORI (R128): Sequencer xors a with the zero-extended immediate. -/
  | xori (t : TileId) (w : BitVec 32)
  /-- SHI (R128): Sequencer shifts a by an immediate amount in the direction imm[7:6] selects. -/
  | shi (t : TileId) (w : BitVec 32)
  /-- SLTI (R128): Sequencer sets d to 1 if a is below the sign-extended immediate, signed. -/
  | slti (t : TileId) (w : BitVec 32)
  /-- SLTIU (R128): Sequencer sets d to 1 if a is below the sign-extended immediate, unsigned. -/
  | sltiu (t : TileId) (w : BitVec 32)
  /-- LUI (R128): Sequencer loads the sign-extended immediate times 2^16 into d. -/
  | lui (t : TileId) (w : BitVec 32)
  /-- LIMM (R128): Sequencer loads the sign-extended 32-bit second word into d. -/
  | limm (t : TileId) (x : BitVec 64)
  /-- LD8U (R130): Scalar zero-extended byte load from the tile's scratchpad, faulting outside range or misaligned. -/
  | ld8u (t : TileId) (w : BitVec 32)
  /-- LD16U (R130): Scalar zero-extended 16-bit load from scratchpad. -/
  | ld16u (t : TileId) (w : BitVec 32)
  /-- LD32U (R130): Scalar zero-extended 32-bit load from scratchpad. -/
  | ld32u (t : TileId) (w : BitVec 32)
  /-- LD64 (R130): Scalar 64-bit load from scratchpad. -/
  | ld64 (t : TileId) (w : BitVec 32)
  /-- LD8S (R130): Scalar sign-extended byte load from scratchpad. -/
  | ld8s (t : TileId) (w : BitVec 32)
  /-- LD16S (R130): Scalar sign-extended 16-bit load from scratchpad. -/
  | ld16s (t : TileId) (w : BitVec 32)
  /-- LD32S (R130): Scalar sign-extended 32-bit load from scratchpad. -/
  | ld32s (t : TileId) (w : BitVec 32)
  /-- ST8 (R130): Scalar store of the low byte of d to scratchpad. -/
  | st8 (t : TileId) (w : BitVec 32)
  /-- ST16 (R130): Scalar store of the low 16 bits of d to scratchpad. -/
  | st16 (t : TileId) (w : BitVec 32)
  /-- ST32 (R130): Scalar store of the low 32 bits of d to scratchpad. -/
  | st32 (t : TileId) (w : BitVec 32)
  /-- ST64 (R130): Scalar store of d to scratchpad. -/
  | st64 (t : TileId) (w : BitVec 32)
  /-- BEQ (R128): Branch if a equals b. -/
  | beq (t : TileId) (w : BitVec 32)
  /-- BNE (R128): Branch if a differs from b. -/
  | bne (t : TileId) (w : BitVec 32)
  /-- BLT (R128): Branch if a is below b, signed. -/
  | blt (t : TileId) (w : BitVec 32)
  /-- BGE (R128): Branch if a is at or above b, signed. -/
  | bge (t : TileId) (w : BitVec 32)
  /-- BLTU (R128): Branch if a is below b, unsigned. -/
  | bltu (t : TileId) (w : BitVec 32)
  /-- BGEU (R128): Branch if a is at or above b, unsigned. -/
  | bgeu (t : TileId) (w : BitVec 32)
  /-- JMP (R128): Jump by a signed word offset. -/
  | jmp (t : TileId) (w : BitVec 32)
  /-- CALL (R128): Tile call: writes the return address to s31 and jumps. -/
  | call (t : TileId) (w : BitVec 32)
  /-- JR (R128): Jump to the address held in a, writing pc + 4 to d; a misaligned target faults. -/
  | jr (t : TileId) (w : BitVec 32)
  /-- EVSIG (R137): Raises a tile event counter by a count, saturating and faulting on overflow, and releases waiters. -/
  | evsig (t : TileId) (w : BitVec 32)
  /-- EVWAIT (R137): Waits until an event counter reaches a count, then subtracts it; count 0 completes at once. -/
  | evwait (t : TileId) (w : BitVec 32)
  /-- EVWAIT_RELEASE (R137): A waiting evwait is satisfied by a raise and its subtraction applied in the fixed waiter order. -/
  | evwaitRelease (t : TileId)
  /-- SRRD (R131): Reads a tile status register into d. -/
  | srrd (t : TileId) (w : BitVec 32)
  /-- SRWR (R131): Writes a tile status register; a write to an event counter sets it and retests waiters. -/
  | srwr (t : TileId) (w : BitVec 32)
  /-- SYNC (R128): Waits for the selected issue queues to drain, and with isync discards held instruction-store blocks. -/
  | sync (t : TileId) (w : BitVec 32)
  /-- SYNC_RELEASE (R128): The queues a sync waits on have drained and the sequencer continues. -/
  | syncRelease (t : TileId)
  /-- END (R142): Ends the tile's part of the kernel, waiting until every operation the tile issued has completed. -/
  | endProgram (t : TileId) (w : BitVec 32)
  /-- TILE_DONE (R142): All operations of an ended tile have completed; ceiling slots flush and the tile reports done, completing the command when all tiles are done. -/
  | tileDone (t : TileId)
  /-- TRAP (R145): Faults the tile program with status 0x907F and the trap code in FAULT_INFO; the queue halts. -/
  | trap (t : TileId) (w : BitVec 32)
  /-- WDONE (R144): Waits for operations since the previous wdone, flushes ceiling slots and completes a persistent work entry with a status. -/
  | wdone (t : TileId) (w : BitVec 32)
  /-- MMA (R135): Places a matrix instruction in the array issue queue. -/
  | mma (t : TileId) (x : BitVec 64)
  /-- VEC (R150): Places a vector instruction in the vector issue queue. -/
  | vec (t : TileId) (x : BitVec 64)
  /-- DMA (R179): Places a DMA instruction in the DMA issue queue. -/
  | dma (t : TileId) (x : BitVec 64)
  /-- ISSUE_STALL_RELEASE (R132): An issue instruction stalled on a full queue enters it once an entry frees. -/
  | issueStallRelease (t : TileId)
  /-- SEM_SIGNAL (R140): Tile semaphore signal: a release that adds a count, saturating with a fault, and tests pending waiters. -/
  | semSignal (t : TileId) (x : BitVec 64)
  /-- SEM_WAIT (R139): Tile semaphore wait until the value reaches a count, with optional budget. -/
  | semWait (t : TileId) (x : BitVec 64)
  /-- SEM_TAKE (R139): Tile semaphore take: waits until the value reaches a count, then subtracts it. -/
  | semTake (t : TileId) (x : BitVec 64)
  /-- SEM_READ (R139): Tile reads a semaphore's value into d. -/
  | semRead (t : TileId) (x : BitVec 64)
  /-- SEM_SET (R139): Tile sets a semaphore to a value as a release and tests pending waiters. -/
  | semSet (t : TileId) (x : BitVec 64)
  /-- SEM_WAIT_RELEASE (R141): A pending wait or take is satisfied, its subtraction applied and its acquire taken, returning 0. -/
  | semWaitRelease (t : TileId)
  /-- SEM_BUDGET_EXPIRY (R139): A semaphore wait budget expires; the wait returns 1 and a take subtracts nothing. -/
  | semBudgetExpiry (t : TileId)
  /-- INSTRUCTION_STORE_FILL (R124): A missed block is filled from the program image into the instruction store, replacing the least recently used block. -/
  | instructionStoreFill (t : TileId)
  /-- MATRIX_INSTRUCTION_START (R136): A matrix instruction leaves the array queue, its descriptor is read, checked and the fold begun. -/
  | matrixInstructionStart (t : TileId)
  /-- PANE_RECONFIGURE (R104): After passes in flight finish and residents spill, the array changes pane configuration in 64 cycles. -/
  | paneReconfigure (t : TileId)
  /-- STATIONARY_SET_LOADED (R106): A shadow stationary set finishes loading over the load path. -/
  | stationarySetLoaded (t : TileId) (p : PaneId)
  /-- SWAP (R107): Active and shadow registers of a pane are exchanged in one array cycle. -/
  | swap (t : TileId) (p : PaneId)
  /-- PASS_END (R109): A pass's last row completes and its end-of-pass checks run. -/
  | passEnd (t : TileId) (p : PaneId) (c : ArrayCheck)
  /-- READOUT (R111): An output block is read out by R81 and written to the output tensor. -/
  | readout (t : TileId) (p : PaneId) (c : UnitCheck)
  /-- SPILL (R110): An unfinished output block's accumulator image is written to its placed spill slot. -/
  | spill (t : TileId) (p : PaneId) (c : UnitCheck)
  /-- RELOAD (R189): A continuing instruction loads and checks an accumulator image before the block's first pass. -/
  | reload (t : TileId) (p : PaneId)
  /-- OPERATION_COMPLETE (R133): An engine operation completes and raises its signalled event counter. -/
  | operationComplete (t : TileId) (e : Engine) (c : UnitCheck)
  /-- VEC_ADD (R152): Vector element-wise add. -/
  | vecAdd (t : TileId)
  /-- VEC_SUB (R152): Vector element-wise subtract. -/
  | vecSub (t : TileId)
  /-- VEC_MUL (R152): Vector element-wise multiply. -/
  | vecMul (t : TileId)
  /-- FMA (R152): Vector fused multiply-add with one rounding. -/
  | fma (t : TileId)
  /-- FNMA (R152): Vector negated fused multiply-add. -/
  | fnma (t : TileId)
  /-- DIV (R152): Vector division. -/
  | div (t : TileId)
  /-- SQRT (R152): Vector square root. -/
  | sqrt (t : TileId)
  /-- VEC_MIN (R152): Vector IEEE minimum. -/
  | vecMin (t : TileId)
  /-- VEC_MAX (R152): Vector IEEE maximum. -/
  | vecMax (t : TileId)
  /-- MINNUM (R152): Vector IEEE minimumNumber. -/
  | minnum (t : TileId)
  /-- MAXNUM (R152): Vector IEEE maximumNumber. -/
  | maxnum (t : TileId)
  /-- ABS (R152): Vector absolute value. -/
  | abs (t : TileId)
  /-- NEG (R152): Vector negation. -/
  | neg (t : TileId)
  /-- CMP (R152): Vector comparison writing a mask register by predicate. -/
  | cmp (t : TileId)
  /-- SEL (R152): Vector selection under a mask. -/
  | sel (t : TileId)
  /-- CVT (R152): Vector conversion between lane types. -/
  | cvt (t : TileId)
  /-- FUN (R157): Vector transcendental or other function by aux. -/
  | funOp (t : TileId)
  /-- VEC_AND (R152): Vector bitwise and. -/
  | vecAnd (t : TileId)
  /-- VEC_OR (R152): Vector bitwise or. -/
  | vecOr (t : TileId)
  /-- VEC_XOR (R152): Vector bitwise xor. -/
  | vecXor (t : TileId)
  /-- VEC_SHL (R152): Vector shift left. -/
  | vecShl (t : TileId)
  /-- VEC_SHR (R152): Vector logical shift right. -/
  | vecShr (t : TileId)
  /-- VEC_SAR (R152): Vector arithmetic shift right. -/
  | vecSar (t : TileId)
  /-- MOV (R152): Vector move. -/
  | mov (t : TileId)
  /-- PERM (R152): Vector permutation by index register. -/
  | perm (t : TileId)
  /-- IOTA (R152): Vector writes each element's index. -/
  | iota (t : TileId)
  /-- VLD (R159): Vector load from scratchpad with conversion to the lane type. -/
  | vld (t : TileId)
  /-- VST (R159): Vector store to scratchpad with conversion and ceiling fold. -/
  | vst (t : TileId)
  /-- GATHER (R159): Vector gather by index register. -/
  | gather (t : TileId)
  /-- SCATTER (R161): Vector scatter by index register, higher lanes winning. -/
  | scatter (t : TileId)
  /-- BCAST (R159): Broadcasts a scalar register's low bits to every element. -/
  | bcast (t : TileId)
  /-- EXT (R159): Extracts one vector element into a scalar register. -/
  | ext (t : TileId)
  /-- KLD (R159): Loads a mask register from scratchpad. -/
  | kld (t : TileId)
  /-- KST (R159): Stores a mask register to scratchpad. -/
  | kst (t : TileId)
  /-- CBIND (R167): Binds a ceiling slot to a tensor descriptor, flushing it first. -/
  | cbind (t : TileId)
  /-- TMAP (R163): Tile operation mapping each element through P, Q and a function into the output. -/
  | tmap (t : TileId)
  /-- TREDUCE (R164): Tile operation reducing rows or columns by sum, max or min. -/
  | treduce (t : TileId)
  /-- TTOPK (R165): Tile operation selecting the top k elements of each row with positions. -/
  | ttopk (t : TileId)
  /-- DMA_COPY (R182): DMA descriptor of kind copy begins moving elements with conversion. -/
  | dmaCopy (t : TileId)
  /-- DMA_GATHER (R182): DMA descriptor of kind gather begins copying indexed source rows. -/
  | dmaGather (t : TileId)
  /-- DMA_SCATTER (R182): DMA descriptor of kind scatter begins copying rows to indexed destinations. -/
  | dmaScatter (t : TileId)
  /-- SEGMENT_COMPLETE (R184): A DMA segment's writes reach their completion point; the descriptor completes with its last segment. -/
  | segmentComplete (t : TileId) (i : Nat)
  /-- SCRATCHPAD_SCRUB (R174): The scrubber reads and corrects one scratchpad line. -/
  | scratchpadScrub (t : TileId) (e : EccSeen)
  /-- ZEROING_DONE (R175): Zeroing of a tile's scratchpad, accumulators and extension words ends. -/
  | zeroingDone (t : TileId)
  /-- DIE_CACHE_EVICTION (R196): The die cache writes back dirty bytes or drops clean lines at a time of its choosing. -/
  | dieCacheEviction (d : DieId) (line : Nat)
  /-- CACHE_CLEARING_DONE (R211): Background clearing of lines of an earlier cache generation ends. -/
  | cacheClearingDone (d : DieId)
  /-- STACK_READ (R225): A stack agent serves a read, checking and correcting its line. -/
  | stackRead (k : StackId) (a : StackAccess) (e : LineSeen)
  /-- STACK_WRITE (R226): A stack agent serves a write, clearing poison on full-line writes and failing partial writes to poisoned lines. -/
  | stackWrite (k : StackId) (a : StackAccess) (data : Bytes) (e : LineSeen)
  /-- STACK_SCRUB (R227): The stack agent scrubs one line. -/
  | stackScrub (k : StackId) (e : LineSeen)
  /-- ATOMIC_ADD (R231): Atomic integer add at the stack agent. -/
  | atomicAdd (a : AtomicRequest)
  /-- ATOMIC_SMIN (R231): Atomic signed minimum. -/
  | atomicSmin (a : AtomicRequest)
  /-- ATOMIC_SMAX (R231): Atomic signed maximum. -/
  | atomicSmax (a : AtomicRequest)
  /-- ATOMIC_UMIN (R231): Atomic unsigned minimum. -/
  | atomicUmin (a : AtomicRequest)
  /-- ATOMIC_UMAX (R231): Atomic unsigned maximum, also used for ceilings. -/
  | atomicUmax (a : AtomicRequest)
  /-- ATOMIC_AND (R231): Atomic bitwise and. -/
  | atomicAnd (a : AtomicRequest)
  /-- ATOMIC_OR (R231): Atomic bitwise or. -/
  | atomicOr (a : AtomicRequest)
  /-- ATOMIC_XOR (R231): Atomic bitwise xor. -/
  | atomicXor (a : AtomicRequest)
  /-- ATOMIC_SWAP (R231): Atomic swap. -/
  | atomicSwap (a : AtomicRequest)
  /-- ATOMIC_CAS (R231): Atomic compare-and-swap. -/
  | atomicCas (a : AtomicRequest)
  /-- ATOMIC_FRET64_ADD (R231): Atomic fret64 add modulo 2^64. -/
  | atomicFret64Add (a : AtomicRequest)
  /-- ATOMIC_FRET128_ADD (R231): Atomic fret128 add modulo 2^128. -/
  | atomicFret128Add (a : AtomicRequest)
  /-- ATOMIC_FP32_ADD (R231): Atomic FP32 add, marking the command fast. -/
  | atomicFp32Add (a : AtomicRequest)
  /-- COUNTER_WINDOW_WRITE (R234): A kernel-queue write sets an arrival counter and retests its registrations. -/
  | counterWindowWrite (q : QueueId) (seq : BitVec 32) (k : StackId) (c : BitVec 12) (v : BitVec 64)
  /-- COUNTER_POLL (R236): With registrations full, the front end reads a counter every 1 µs for leftover waits. -/
  | counterPoll (k : StackId)
  /-- DOORBELL_TAIL_WRITE (R244): A write to a queue's tail moves it if in range, halts on overrun, and starts fetching. -/
  | doorbellTailWrite (f : FnId) (q : QueueId) (v : BitVec 32)
  /-- CPL_HEAD_WRITE (R272): The driver advances the completion-ring consumer index, freeing slots for waiting records. -/
  | cplHeadWrite (f : FnId) (q : QueueId) (v : BitVec 32)
  /-- COMMAND_FETCH (R266): A command processor fetches and checks one record. -/
  | commandFetch (q : QueueId)
  /-- NOP (R247): Command that completes once its ordering rules let it begin. -/
  | nop (q : QueueId)
  /-- MATMUL (R248): Command running a whole accumulation chain on a set of tiles. -/
  | matmul (q : QueueId)
  /-- KERNEL (R251): Command copying image and arguments and launching a tile program on its tiles. -/
  | kernel (q : QueueId)
  /-- DMA_COMMAND (R252): Command handing DMA descriptors to one tile's engine. -/
  | dmaCommand (q : QueueId)
  /-- ALL_REDUCE (R336): Collective reducing over members and giving the result to all. -/
  | allReduce (q : QueueId)
  /-- REDUCE_SCATTER (R336): Collective giving each member its block of the reduction. -/
  | reduceScatter (q : QueueId)
  /-- ALL_GATHER (R336): Collective giving every member every member's block. -/
  | allGather (q : QueueId)
  /-- BROADCAST (R336): Collective sending the root's input to all members. -/
  | broadcast (q : QueueId)
  /-- REDUCE (R336): Collective reducing to the root. -/
  | reduce (q : QueueId)
  /-- ALL_TO_ALL (R336): Collective exchanging blocks between all members. -/
  | allToAll (q : QueueId)
  /-- TOP_K_MERGE (R338): Collective merging top-k rows of entries across members. -/
  | topKMerge (q : QueueId)
  /-- BARRIER (R359): Collective barrier agreeing a release instant. -/
  | barrier (q : QueueId)
  /-- WAIT_SEMAPHORE (R254): Front-end semaphore wait command. -/
  | waitSemaphore (q : QueueId)
  /-- TAKE_SEMAPHORE (R254): Front-end semaphore take command. -/
  | takeSemaphore (q : QueueId)
  /-- COUNTER_WAIT (R254): Front-end arrival-counter wait command, registering with the stack agent. -/
  | counterWait (q : QueueId)
  /-- WAIT_SATISFIED (R254): A front-end wait is satisfied, its acquire takes effect and the command completes. -/
  | waitSatisfied (q : QueueId)
  /-- SIGNAL_SEMAPHORE_ADD (R255): Front-end signal adding a count to a semaphore as a release. -/
  | signalSemaphoreAdd (q : QueueId)
  /-- SIGNAL_SEMAPHORE_SET (R255): Front-end signal setting a semaphore. -/
  | signalSemaphoreSet (q : QueueId)
  /-- SIGNAL_DOORBELL (R245): Front-end signal setting the tail of a queue of the same partition. -/
  | signalDoorbell (q : QueueId)
  /-- SIGNAL_WRITE_VALUE (R255): Front-end signal writing a 64-bit value to device or host memory. -/
  | signalWriteValue (q : QueueId)
  /-- FENCE (R256): Fence command that only orders commands. -/
  | fence (q : QueueId)
  /-- FENCE_ACQUIRE (R256): Fence performing an acquire on every die of the partition. -/
  | fenceAcquire (q : QueueId)
  /-- FENCE_FLUSH (R206): Fence performing a range flush, optionally dropping clean lines. -/
  | fenceFlush (q : QueueId)
  /-- COND (R257): Command testing a value and skipping records when the predicate holds. -/
  | cond (q : QueueId)
  /-- LOOP (R259): Command running an indirect buffer repeatedly. -/
  | loop (q : QueueId)
  /-- CALL_BUFFER (R259): Command running an indirect buffer once. -/
  | callBuffer (q : QueueId)
  /-- PTINVAL (R201): Page-table invalidation over a range in every translation cache of the partition. -/
  | ptinval (q : QueueId)
  /-- FWPASS (R261): Kernel-queue command passing a mailbox message to firmware. -/
  | fwpass (q : QueueId)
  /-- END_OF_COMMAND_RELEASE (R203): Before publication, writes reach completion points, output ranges are written back and ceilings complete. -/
  | endOfCommandRelease (q : QueueId) (seq : BitVec 32)
  /-- COMPLETION_PUBLISH (R272): A completion record is written in sequence order and the vector raised where irq = 1. -/
  | completionPublish (q : QueueId)
  /-- QUEUE_TIMEOUT (R269): The queue timer reaches timeout; the oldest command completes with a timeout status. -/
  | queueTimeout (q : QueueId)
  /-- PREEMPTION (R392): A blocked command of a higher-priority queue pre-empts lower-priority holders, stopping their tiles. -/
  | preemption (q : QueueId)
  /-- ARRAY_STOPPED (R114): The array completes entered rows and readout and reports stopped with cursors. -/
  | arrayStopped (t : TileId)
  /-- VECTOR_STOPPED (R169): The vector engine completes begun operations and reports stopped. -/
  | vectorStopped (t : TileId)
  /-- DMA_STOPPED (R193): The DMA engine waits for issued segments and records next segments. -/
  | dmaStopped (t : TileId)
  /-- CONTEXT_SAVE_DONE (R398): Contexts are written and the queue enters pre-empted with its tiles free. -/
  | contextSaveDone (q : QueueId)
  /-- QUEUE_RESTORE (R395): A pre-empted queue's contexts are checked and reloaded and it returns to running. -/
  | queueRestore (q : QueueId)
  /-- PARTITION_CREATE (R383): Creates a partition from free dies, zeroing memory and tiles. -/
  | partitionCreate (r : PartSource)
  /-- PARTITION_LEND (R385): Lends dies and memory from a lender to a borrower after pre-empting the lender. -/
  | partitionLend (r : PartSource)
  /-- PARTITION_RETURN (R386): Returns lent dies to their lender and restores its saved state. -/
  | partitionReturn (r : PartSource)
  /-- PARTITION_DELETE (R387): Destroys a partition's queues, returns borrowed dies and frees its dies. -/
  | partitionDelete (r : PartSource)
  /-- PARTITION_CONFIGURE (R388): Replaces a partition's damp policy and lock-step block. -/
  | partitionConfigure (r : PartSource)
  /-- BECOME_ROOT (R331): Timebase operation making this module the timebase root. -/
  | becomeRoot (q : QueueId)
  /-- RESIGN (R331): Timebase operation returning to the lowest-identifier root rule. -/
  | resign (q : QueueId)
  /-- STEP_FORWARD (R331): Timebase operation stepping the root's timebase forward. -/
  | stepForward (q : QueueId)
  /-- SET_CLOCK_CEILING (R431): Perf operation setting a clock ceiling for partitions. -/
  | setClockCeiling (q : QueueId)
  /-- ENTER_MATCHED_CLOCK (R369): Perf operation holding every die at 1.40 GHz. -/
  | enterMatchedClock (q : QueueId)
  /-- LEAVE_MATCHED_CLOCK (R431): Perf operation leaving matched-clock mode. -/
  | leaveMatchedClock (q : QueueId)
  /-- GET_IDENTITY (R293): Mailbox message returning the identity payload. -/
  | getIdentity (m : Msg)
  /-- GET_READINESS_RECORD (R467): Mailbox message returning the readiness record. -/
  | getReadinessRecord (m : Msg)
  /-- CREATE_QUEUE (R294): Mailbox message creating a queue from its configuration record. -/
  | createQueue (m : Msg)
  /-- DESTROY_QUEUE (R276): Mailbox message ending a queue's work, publishing records and disabling it. -/
  | destroyQueue (m : Msg)
  /-- RESUME_QUEUE (R268): Mailbox message resuming a halted queue at a sequence number. -/
  | resumeQueue (m : Msg)
  /-- HALT_QUEUE (R268): Mailbox message halting a running or idle queue with reason 0x05. -/
  | haltQueue (m : Msg)
  /-- RESUME_COMPLETION_PATH (R273): Mailbox message retranslating and writing held records of a stalled queue. -/
  | resumeCompletionPath (m : Msg)
  /-- SET_CHECKED_ARITHMETIC (R388): Mailbox message setting a partition's checked arithmetic. -/
  | setCheckedArithmetic (m : Msg)
  /-- GET_PARTITION_CONFIGURATION (R390): Mailbox message returning the partition configuration record. -/
  | getPartitionConfiguration (m : Msg)
  /-- SET_TRANSLATION_ROOT (R295): Mailbox message setting a partition's translation root. -/
  | setTranslationRoot (m : Msg)
  /-- SET_SCRUB_PERIOD (R295): Mailbox message setting a partition's scrub period. -/
  | setScrubPeriod (m : Msg)
  /-- GET_STACK_HEALTH (R295): Mailbox message returning a stack health record. -/
  | getStackHealth (m : Msg)
  /-- GET_DIE_CAPACITIES (R295): Mailbox message returning each die's usable capacity. -/
  | getDieCapacities (m : Msg)
  /-- ENTER_IDLE_READY (R452): Power-state entry gating array clocks of the scope. -/
  | enterIdleReady (m : Msg)
  /-- ENTER_DROWSE (R452): Power-state entry fencing, writing back, self-refreshing and power-gating the scope. -/
  | enterDrowse (m : Msg)
  /-- ENTER_DORMANT (R454): Power-state entry saving state, taking the link to L2 and arming the wake detector. -/
  | enterDormant (m : Msg)
  /-- ENTER_ACTIVE (R452): Power-state exit from Idle-ready or Drowse to Active. -/
  | enterActive (m : Msg)
  /-- SET_POWER_CAP (R424): Mailbox message setting the power cap and partition weights. -/
  | setPowerCap (m : Msg)
  /-- GET_POWER_STATE (R451): Mailbox message returning states, cap, weights and refusal counts. -/
  | getPowerState (m : Msg)
  /-- INSTALL_LICENCE (R480): Mailbox message verifying and installing a licence. -/
  | installLicence (m : Msg)
  /-- LIST_LICENCES (R482): Mailbox message returning the licences in force and the fingerprint. -/
  | listLicences (m : Msg)
  /-- STAGE_FIRMWARE_CHUNK (R296): Mailbox message writing a chunk into the staging area. -/
  | stageFirmwareChunk (m : Msg)
  /-- VERIFY_STAGED_IMAGE (R296): Mailbox message checking the staged image. -/
  | verifyStagedImage (m : Msg)
  /-- COMMIT_STAGED_IMAGE (R473): Mailbox message writing the verified image to flash and raising counter 0. -/
  | commitStagedImage (m : Msg)
  /-- START_STAGED_IMAGE (R296): Mailbox message responding then module-warm resetting into the staged image. -/
  | startStagedImage (m : Msg)
  /-- RESTART_FROM_FLASH (R296): Mailbox message responding then module-warm resetting into the flash image. -/
  | restartFromFlash (m : Msg)
  /-- READ_COUNTERS (R512): Mailbox message sampling performance, error or energy counters. -/
  | readCounters (m : Msg)
  /-- CONFIGURE_TRACE (R514): Mailbox message configuring the trace buffer. -/
  | configureTrace (m : Msg)
  /-- READ_AGEING (R517): Mailbox message returning an ageing record. -/
  | readAgeing (m : Msg)
  /-- SET_MODULE_IDENTIFIER (R325): Mailbox message setting the module's fabric identifier. -/
  | setModuleIdentifier (m : Msg)
  /-- LOAD_ROUTING_TABLE (R326): Mailbox message loading a wiring plan from which the routing table is built. -/
  | loadRoutingTable (m : Msg)
  /-- GET_PORT_STATUS (R328): Mailbox message returning timebase summary and port records. -/
  | getPortStatus (m : Msg)
  /-- READ_POST_MORTEM_AREA (R417): Mailbox message reading a snapshot. -/
  | readPostMortemArea (m : Msg)
  /-- GET_OPEN_STRING_REASON (R472): Mailbox message returning the latest failed-start reasons. -/
  | getOpenStringReason (m : Msg)
  /-- RUN_DIAGNOSTIC (R418): Mailbox message fencing a die, running a test and returning it to service. -/
  | runDiagnostic (m : Msg)
  /-- READ_FIRMWARE_TRACE (R418): Mailbox message reading the firmware trace under debug unlock. -/
  | readFirmwareTrace (m : Msg)
  /-- READ_HUB_MEMORY (R418): Mailbox message reading hub boot SRAM under debug unlock. -/
  | readHubMemory (m : Msg)
  /-- REMOVE_LICENCE (R484): Maintenance message removing a feature's licence. -/
  | removeLicence (m : Msg)
  /-- ROLL_FIRMWARE_BACK (R484): Maintenance message committing a staged image without raising counter 0. -/
  | rollFirmwareBack (m : Msg)
  /-- RESET_DISABLED_UNIT_RECORD (R484): Maintenance message removing every extension of the disabled-unit record. -/
  | resetDisabledUnitRecord (m : Msg)
  /-- DEBUG_UNLOCK (R484): Maintenance message recording a debug unlock and performing a module-warm reset. -/
  | debugUnlock (m : Msg)
  /-- MAILBOX_RESPONSE_EXPIRY (R408): A mailbox message outlives its response time; mb_fault is set and a module-warm reset starts. -/
  | mailboxResponseExpiry (f : FnId)
  /-- BAR0_INVALID_ACCESS (R282): An unsupported BAR0 access reads all ones, is ignored as a write and is logged. -/
  | bar0InvalidAccess (f : FnId) (write : Bool) (off : BitVec 26) (size : Nat)
  /-- BAR2_READ (R285): A host read through BAR2 at the stack agent, failing or poisoning as stated. -/
  | bar2Read (f : FnId) (off : BitVec 42) (n : Nat)
  /-- BAR2_WRITE (R285): A host write through BAR2 to the stack agent, dropped and logged on failure. -/
  | bar2Write (f : FnId) (off : BitVec 42) (data : Bytes)
  /-- RING_BASE_WRITE (R299): A write to an event or fault ring base, ignored while the ring is enabled. -/
  | ringBaseWrite (f : FnId) (ring : RingId) (v : BitVec 64)
  /-- RING_CFG_WRITE (R299): A write to an event or fault ring configuration, acting by its enable state. -/
  | ringCfgWrite (f : FnId) (ring : RingId) (v : BitVec 64)
  /-- RING_CONS_WRITE (R299): The driver advances an event or fault ring's consumer index. -/
  | ringConsWrite (f : FnId) (ring : RingId) (v : BitVec 64)
  /-- KEV_MASK_WRITE (R298): A write to KEV_MASK; unmasking a set cause sends its interrupt. -/
  | kevMaskWrite (f : FnId) (v : BitVec 64)
  /-- MSIX_UNMASK (R298): Unmasking a pending MSI-X entry sends one message. -/
  | msixUnmask (f : FnId) (entry : BitVec 10)
  /-- REGISTER_WRITE (R13): A write to a register with no behaviour of its own acts by its access code. -/
  | registerWrite (f : FnId) (off : BitVec 26) (data : Bytes)
  /-- FLR_PHYSICAL_FUNCTION (R280): Function Level Reset of the physical function destroys every queue and resets host-interface state. -/
  | flrPhysicalFunction
  /-- FLR_VIRTUAL_FUNCTION (R280): Function Level Reset of a virtual function destroys its partition's queues. -/
  | flrVirtualFunction (v : PartId)
  /-- PERST_N_ASSERT (R280): PERST_N asserted resets the host interface as a physical-function reset. -/
  | perstNAssert
  /-- PERST_N_DEASSERT (R465): PERST_N deasserted lets the PCI Express port train. -/
  | perstNDeassert
  /-- SET_ENDPOINT_ID (R302): MCTP control message from the bus owner setting the endpoint ID. -/
  | setEndpointId (eid : BitVec 8)
  /-- PLDM_REQUEST (R303): PLDM Type 0 or Type 2 request answered within 100 ms. -/
  | pldmRequest (type : BitVec 6) (sensor : PldmSensor)
  /-- GET_VERSION (R304): SPDM request for versions. -/
  | getVersion (v : SpdmVia)
  /-- GET_CAPABILITIES (R304): SPDM request for capabilities. -/
  | getCapabilities (v : SpdmVia)
  /-- NEGOTIATE_ALGORITHMS (R304): SPDM algorithm negotiation. -/
  | negotiateAlgorithms (v : SpdmVia) (ecdsaP384 sha384 : Bool)
  /-- GET_DIGESTS (R304): SPDM request for certificate digests, slot 0. -/
  | getDigests (v : SpdmVia)
  /-- GET_CERTIFICATE (R304): SPDM request for the slot 0 certificate chain. -/
  | getCertificate (v : SpdmVia) (slot : BitVec 4) (off len : BitVec 16)
  /-- CHALLENGE (R304): SPDM challenge signed with the alias key. -/
  | challenge (v : SpdmVia) (slot : BitVec 4) (nonce : Bytes)
  /-- GET_MEASUREMENTS (R304): SPDM request for measurements 1 to 5. -/
  | getMeasurements (v : SpdmVia) (index : BitVec 8) (signed : Bool) (nonce : Bytes)
  /-- PORT_TRAINED (R309): A port's training ends with outcome x8, x4 or down. -/
  | portTrained (p : PortId) (pass : BitVec 9)
  /-- PORT_RETRAIN_ATTEMPT (R310): A down, licensed port begins training again every 500 ms. -/
  | portRetrainAttempt (p : PortId)
  /-- CODEWORD_RECEIVE (R312): A received codeword is corrected and checked, nacked and replayed on failure, and its credits taken. -/
  | codewordReceive (p : PortId) (c : Codeword)
  /-- LANE_UNFIT (R313): A lane exceeding 4,096 corrected symbols in 1 ms is exchanged for the spare or the port retrains or goes down. -/
  | laneUnfit (p : PortId) (lane : LaneId) (retrains : Bool)
  /-- LOSS_OF_SIGNAL (R460): A port sees loss of signal and is declared down within 10 µs. -/
  | lossOfSignal (p : PortId)
  /-- ROUTE_THROUGH (R320): A packet not addressed to this module is forwarded by the routing table. -/
  | routeThrough (p : PortId) (k : Packet)
  /-- WRITE_PACKET (R323): A remote write packet is checked, translated, committed, counted and acknowledged. -/
  | writePacket (k : Packet)
  /-- WRITE_ACKNOWLEDGEMENT (R316): A write acknowledgement arrives at the source, completing its segment. -/
  | writeAcknowledgement (k : Packet)
  /-- READ_REQUEST (R324): A remote read request is translated by the src_part partition and answered with data. -/
  | readRequest (k : Packet)
  /-- READ_DATA (R324): Remote read data arrives at the reading module. -/
  | readData (k : Packet)
  /-- REFUSAL (R317): A refusal arrives and the source acts on its reason. -/
  | refusal (k : Packet)
  /-- RESYNCHRONISE (R316): A resynchronisation packet sets a new window base at the destination. -/
  | resynchronise (k : Packet)
  /-- RESYNCHRONISE_ACKNOWLEDGEMENT (R316): The destination's acknowledgement ends the source's resynchronisation. -/
  | resynchroniseAcknowledgement (k : Packet)
  /-- RETRANSMISSION_TIMER (R316): An unacknowledged packet is retransmitted at doubling intervals. -/
  | retransmissionTimer (dst : BitVec 14) (vc : BitVec 3) (seq : BitVec 24)
  /-- PACKET_ABANDON (R316): At 30 ms the source abandons a packet, fails its descriptor and resynchronises. -/
  | packetAbandon (dst : BitVec 14) (vc : BitVec 3) (seq : BitVec 24)
  /-- RESYNCHRONISATION_REPEAT (R316): An unacknowledged resynchronisation is repeated every 10 ms. -/
  | resynchronisationRepeat (dst : BitVec 14) (vc : BitVec 3)
  /-- MANAGEMENT_PACKET (R322): A management-channel packet carrying port states, peer checks or firmware messages is processed. -/
  | managementPacket (p : PortId) (m : Mgmt)
  /-- HOLD_LAPSE (R449): A port hold not renewed for 50 ms lapses. -/
  | holdLapse (p : PortId) (peer : BitVec 14)
  /-- ROUTING_TABLE_LOAD (R322): Firmware builds and loads a new routing table after a port or plan change. -/
  | routingTableLoad (detours : List (BitVec 14 × BitVec 3))
  /-- TIME_FLIT (R329): A time-channel flit measures link delay and offset, and the follower slews, steps or holds. -/
  | timeFlit (p : PortId) (v : TimeFlit)
  /-- TIMEBASE_ALIGNED (R329): A follower whose offset stayed within 0.25 ns for 1 ms sets aligned. -/
  | timebaseAligned
  /-- COLLECTIVE_DATA (R343): A collective data packet is received, combined and forwarded within its slot. -/
  | collectiveData (k : Packet)
  /-- CHUNK_SEND (R343): A strand sends a chunk against a credit. -/
  | chunkSend (q : QueueId) (seq : BitVec 32) (strand : StrandId)
  /-- COLLECTIVE_OPENING (R344): An opening control packet is checked against the signature and forwarded with maxima. -/
  | collectiveOpening (k : Packet)
  /-- CLOSING_ROUND (R345): A member whose outputs are written back enters the closing round. -/
  | closingRound (q : QueueId) (seq : BitVec 32)
  /-- COLLECTIVE_CLOSING (R345): A closing packet is forwarded; after the round the ceiling, result record and completion are written. -/
  | collectiveClosing (k : Packet)
  /-- COLLECTIVE_CREDIT (R343): A credit packet grants chunks to a sender. -/
  | collectiveCredit (k : Packet)
  /-- COLLECTIVE_ABORT (R351): An abort report is received, forwarded if better, and data sending stops. -/
  | collectiveAbort (k : Packet)
  /-- ABORT_COMPLETION (R351): 1 ms after first holding an abort the member completes with the best report. -/
  | abortCompletion (q : QueueId) (seq : BitVec 32)
  /-- PROGRESS_TIMEOUT (R353): A collective's progress timer reaches the timeout and cause 0x02 is raised. -/
  | progressTimeout (q : QueueId) (seq : BitVec 32)
  /-- COLLECTIVE_DAMP (R355): A damp proposal is received and forwarded, agreeing a slot boundary. -/
  | collectiveDamp (k : Packet)
  /-- DAMP_BOUNDARY (R356): At the slot boundary the member saves staging state, frees tiles and stops its timer. -/
  | dampBoundary (q : QueueId) (seq : BitVec 32)
  /-- COLLECTIVE_UNDAMP (R357): An undamp lowers the holder count. -/
  | collectiveUndamp (k : Packet)
  /-- STAGING_RESTORE (R357): At zero holders and free staging tiles the member restores staging and continues. -/
  | stagingRestore (q : QueueId) (seq : BitVec 32)
  /-- BARRIER_RELEASE (R359): At the release instant the member signals its semaphores and completes. -/
  | barrierRelease (q : QueueId) (seq : BitVec 32)
  /-- HASH_RECORD (R375): A peer hash record arrives and is compared with the local record. -/
  | hashRecord (part : PartId) (r : HashRec) (blocks : List BlockHash)
  /-- PEER_LOST (R376): No packet from the peer for 100 ms ends comparison. -/
  | peerLost (part : PartId)
  /-- ENGINE_WATCHDOG (R407): An engine makes no progress for 100 µs; its command fails with 0x9008 and its domain resets. -/
  | engineWatchdog (e : EngineId)
  /-- FIRMWARE_HEARTBEAT (R408): Firmware writes a heartbeat to the always-on logic. -/
  | firmwareHeartbeat
  /-- HEARTBEAT_EXPIRY (R408): No heartbeat for 1 ms starts a module-warm reset. -/
  | heartbeatExpiry
  /-- HUB_LOCKSTEP_MISMATCH (R405): Control-processor outputs differ; one processor goes offline or a module-warm reset starts. -/
  | hubLockstepMismatch (fail0 fail1 : Bool)
  /-- CROSSING_QUEUE_MISMATCH (R39): A pointer mismatch resets the crossing queue with the outcome of R40. -/
  | crossingQueueMismatch (x : Crossing)
  /-- BRIDGE_FLIT_RECEIVE (R23): A bridge flit is CRC-checked and replayed on failure; 16 failures take the link down. -/
  | bridgeFlitReceive (l : BridgeLink) (crcOk : Bool)
  /-- REGULATOR_FAULT (R33): An island voltage difference over 200 mV held 1 µs fences the islands. -/
  | regulatorFault (a b : Island)
  /-- TILE_RESET (R413): Tile reset: fence, drain, snapshot, complete commands, zero and return to service. -/
  | tileReset (t : TileId)
  /-- DIE_RESET (R413): Die reset including cache write-back and stack self-refresh. -/
  | dieReset (d : DieId)
  /-- MODULE_WARM_RESET (R413): Module-warm reset restarting firmware while link dies keep routing. -/
  | moduleWarmReset
  /-- MODULE_COLD_RESET (R412): Module-cold reset removing power from everything. -/
  | moduleColdReset
  /-- TILE_RESET_ESCALATION (R414): A tile reset not complete in 100 µs becomes a die reset. -/
  | tileResetEscalation (t : TileId)
  /-- DIE_RESET_ESCALATION (R414): A die reset not complete in 2 ms becomes a module-warm reset. -/
  | dieResetEscalation (d : DieId)
  /-- CAPO_MODULE_LOOP (R426): Every 1 ms the capo divides the cap into die allotments. -/
  | capoModuleLoop (m : PowerReading)
  /-- DIE_LOOP (R425): Every 10 µs a die's controller reads sensors and sets its clock and voltage. -/
  | dieLoop (d : DieId) (r : DieReading)
  /-- INPUT_CEILING_STRETCH (R428): Input power over 5,600 W averaged 20 µs stretches every array clock to half rate. -/
  | inputCeilingStretch (avg : Nat)
  /-- INPUT_CEILING_RELEASE (R428): The 20 µs average falls below 4,600 W and the stretch ends. -/
  | inputCeilingRelease (avg : Nat)
  /-- DROOP_STRETCH (R432): A droop detector stretches the die's clock to half rate. -/
  | droopStretch (d : DieId) (det : Fin 16)
  /-- DROOP_RELEASE (R432): After 64 array cycles back within 5% the droop stretch ends. -/
  | droopRelease (d : DieId)
  /-- SAG_WARNING_ASSERT (R434): The warning comparator asserts; SAG_WARN_N, stretch and power limit to 60% follow. -/
  | sagWarningAssert
  /-- SAG_WARNING_DEASSERT (R434): The warning comparator deasserts. -/
  | sagWarningDeassert
  /-- SAG_LIMIT_RELEASE (R434): 10 ms after deassertion the 60% limit lifts. -/
  | sagLimitRelease
  /-- SAG_RESET (R435): The reset comparator asserts and a module-warm sag reset fences the module. -/
  | sagReset
  /-- SAG_RECOVERY (R435): Input held above 44.0 V for 1 ms within 20 ms lets the sag reset restart warm. -/
  | sagRecovery
  /-- SAG_RECOVERY_FAILURE (R435): Without recovery within 20 ms power is removed and memory lost. -/
  | sagRecoveryFailure
  /-- THERMAL_TRIP (R437): A trip temperature removes all rails except auxiliary and latches THERMTRIP_N. -/
  | thermalTrip (u : ThermalUnit)
  /-- ENERGY_INTERVAL (R440): Every 10 µs rail energies are formed and charged to commands, partitions and overhead. -/
  | energyInterval (e : EnergyReading)
  /-- WAKE (R456): A wake-detector address match restores the module from Dormant to Active. -/
  | wake (addr : BitVec 7)
  /-- PRSNT_N_LOW (R459): Both connectors mated; PRSNT_N reads low. -/
  | prsntNLow
  /-- PWR_EN_ASSERT (R493): PWR_EN asserted closes the hot-swap stage and charges the input. -/
  | pwrEnAssert
  /-- PWR_EN_DEASSERT (R460): PWR_EN deasserted brings the module to Off. -/
  | pwrEnDeassert
  /-- INPUT_OVERVOLTAGE (R493): Input above 62 V opens the hot-swap switch. -/
  | inputOvervoltage
  /-- INPUT_LOSS (R493): Input below 32 V opens the hot-swap switch. -/
  | inputLoss
  /-- OVERCURRENT (R493): Current over 160 A for 50 µs opens the switch and latches the cause. -/
  | overcurrent
  /-- AUX_3V3_LOSS (R494): Loss of the auxiliary rail with input present writes an event record only. -/
  | aux3v3Loss
  /-- REFCLK_LOSS (R498): REFCLK absent over 1 µs fences the module and starts a module-warm reset. -/
  | refclkLoss
  /-- REFCLK_RETURN (R498): REFCLK returns and the waiting module-warm reset proceeds. -/
  | refclkReturn
  /-- MODULE_START (R464): From PWR_GOOD or a warm restart the boot ROM verifies and starts firmware while ports train. -/
  | moduleStart (o : StartOutcome)
  /-- READY (R465): All training has ended; the readiness record is written and BOOT_STATE set ready. -/
  | ready
  /-- START_WATCHDOG_EXPIRY (R466): Ready not reached in 10 s counts a failed start and performs a module-warm reset. -/
  | startWatchdogExpiry
  /-- SEAL_OPENING (R485): The seal loop opens; the latch is set and firmware raises counter 3. -/
  | sealOpening
  /-- PRESENCE_PRESS (R483): PRESENCE_N held low 50 ms opens the presence window. -/
  | presencePress
  /-- PRESENCE_WINDOW_CLOSE (R483): The presence window closes 60 s after release. -/
  | presenceWindowClose
  /-- MAINT_JUMPER_CHANGE (R483): MAINT_JMP_N changes, granting or removing presence. -/
  | maintJumperChange (fitted : Bool)
  /-- TRACE_MOVE (R513): The trace mover drains a FIFO record into the trace buffer. -/
  | traceMove (fifo : LogicDie)
  /-- AGEING_SAMPLE (R516): Firmware samples an ageing monitor and updates its prediction. -/
  | ageingSample (a : AgeingSample)
  /-- INPUT_RETURN (R493): The input rises above 44.0 V while PWR_EN is asserted, the hot-swap stage closes and the module starts as after a module-cold reset. -/
  | inputReturn
  /-- OFF_TIME_ELAPSED (R497): The 500 ms off time after PWR_EN deassertion or a thermal trip ends, and a PWR_EN assertion that came earlier now takes effect. -/
  | offTimeElapsed
  /-- AUX_3V3_RETURN (R496): The always-on supply comes up and the always-on logic latches SLOT_ID[4:0] for the SMBus address and the wake detector. -/
  | aux3v3Return
  /-- SLOT_ID_STRAP_CHANGE (R496): The SLOT_ID straps change while the always-on supply stays up; the latched value is kept and firmware writes event 0x0B. -/
  | slotIdStrapChange (straps : BitVec 5)
  /-- HOLD_RENEWAL (R449): Every 10 ms, while a collective or lock-step exchange lasts, this module renews each of its port holds over the management channel. -/
  | holdRenewal
deriving DecidableEq, Repr

end Sys2Proof
end

