-- ==== Sys2Proof/Decode.lean ====
section
/-! DEFINITION. Commands spelt as words. The table of operations gives none of its rows any bits: the commands of this
block are operations and events, and the words that the module itself reads (instructions of a tile program, command
records) are operands or bytes of its memories (notes/assumptions/5.md, 9.md). -/

namespace Sys2Proof

/-- The command that a word spells by the table's bits: none, for the table gives no row a word. -/
def decodeTableWord (_nbits _w : Nat) : Option Instr := none

end Sys2Proof
end

