-- ==== Sys2Proof/Machine/Map.lean ====
section
/-! DEFINITION. Finite maps in canonical form, byte strings and byte maps: the helpers every sparse
collection of the state is read and written through (R9). -/

namespace Sys2Proof.Machine

/-- The value at a key of a finite map whose unlisted keys hold `d`. -/
def mapGet {α : Type} (d : α) : NMap α → Nat → α
  | [], _ => d
  | (k, v) :: m, i => if i = k then v else mapGet d m i

/-- Put a pair at its place among rising keys, over the pair of the same key. -/
def mapInsert {α : Type} : NMap α → Nat → α → NMap α
  | [], i, x => [(i, x)]
  | (k, v) :: m, i, x =>
    if i < k then (i, x) :: (k, v) :: m
    else if i = k then (k, x) :: m
    else (k, v) :: mapInsert m i x

/-- Drop a key. -/
def mapErase {α : Type} : NMap α → Nat → NMap α
  | [], _ => []
  | (k, v) :: m, i => if k = i then mapErase m i else (k, v) :: mapErase m i

/-- The map with the value at one key replaced; a key set to `d` is not listed. -/
def mapPut {α : Type} [DecidableEq α] (d : α) (m : NMap α) (i : Nat) (x : α) : NMap α :=
  if x = d then mapErase m i else mapInsert m i x

/-- The map with the value at one key changed by a function. -/
def mapUpd {α : Type} [DecidableEq α] (d : α) (m : NMap α) (i : Nat) (f : α → α) : NMap α :=
  mapPut d m i (f (mapGet d m i))

/-- Canonical form: keys strictly rising, no listed value equal to the default. -/
abbrev mapWf {α : Type} [DecidableEq α] (d : α) (m : NMap α) : Prop :=
  (m.map Prod.fst).Pairwise (· < ·) ∧ d ∉ m.map Prod.snd

/-! ## Byte maps: unlisted bytes read as zero (notes/assumptions/2.md) -/

/-- One byte. -/
def byteAt (m : NMap Byte) (a : Nat) : Byte := mapGet 0 m a

/-- `n` bytes from `a`. -/
def bytesAt (m : NMap Byte) (a : Nat) : Nat → Bytes
  | 0 => []
  | n + 1 => byteAt m a :: bytesAt m (a + 1) n

/-- Bytes written at `a`. -/
def putBytes (m : NMap Byte) (a : Nat) : Bytes → NMap Byte
  | [] => m
  | b :: bs => putBytes (mapPut 0 m a b) (a + 1) bs

/-- Keep the pairs whose key lies outside `[a, a + n)`: the bytes there become zero. -/
def mapClear {α : Type} (m : NMap α) (a n : Nat) : NMap α :=
  m.filter fun p => p.1 < a || a + n ≤ p.1

/-- The value of a little-endian byte string (R9). -/
def leNat : Bytes → Nat
  | [] => 0
  | b :: bs => b.toNat + 256 * leNat bs

/-- The `n` low bytes of a value, lowest first (R9). -/
def natLe : Nat → Nat → Bytes
  | _, 0 => []
  | v, n + 1 => BitVec.ofNat 8 v :: natLe (v / 256) n

/-- `n` bytes of a byte string from offset `a`, padded with zeros. -/
def slice (b : Bytes) (a n : Nat) : Bytes :=
  let t := (b.drop a).take n
  t ++ List.replicate (n - t.length) 0

/-- Bits `hi` to `lo` of a value. -/
def bits (v hi lo : Nat) : Nat := v / 2 ^ lo % 2 ^ (hi + 1 - lo)

/-- Bit `i` of a value. -/
def bit (v i : Nat) : Bool := v / 2 ^ i % 2 = 1

/-- A value whose bits are laid out from the given fields, lowest first: each a width and a value. -/
def packBits : List (Nat × Nat) → Nat
  | [] => 0
  | (w, v) :: fs => v % 2 ^ w + 2 ^ w * packBits fs

/-- The value of a Boolean as a bit. -/
def bnat (b : Bool) : Nat := if b then 1 else 0

/-- A `w`-bit field read as two's complement. -/
def signed (w v : Nat) : Int := if v % 2 ^ w < 2 ^ (w - 1) then (v % 2 ^ w : Nat) else (v % 2 ^ w : Nat) - (2 ^ w : Nat)

/-- An integer's `w`-bit two's-complement field. -/
def unsigned (w : Nat) (v : Int) : Nat := (v % (2 ^ w : Nat)).toNat

/-- Replace the entry at an index of a list. -/
def listUpd {α : Type} (l : List α) (i : Nat) (f : α → α) : List α := l.modify i f

/-- The natural numbers below `n`, rising. -/
def upTo (n : Nat) : List Nat := List.range n

/-- The least power of two exponent `k` with `n ≤ 2^k` (R84). -/
def clog2 (n : Nat) : Nat := if n ≤ 1 then 0 else Nat.log2 (n - 1) + 1

end Sys2Proof.Machine
end

