-- ==== Sys2Proof/Machine/Numerics.lean ====
section
/-! DEFINITION. Number formats, exact values, rounding and conversion, stochastic rounding, and the
exponent ceiling (spec/02_number_formats.md). -/

namespace Sys2Proof.Machine

/-- Element formats (R43). -/
inductive Elem where
  | fp64 | fp32 | bf16 | fp16 | e4m3 | e5m2 | e3m2 | e2m3 | e2m1 | int8 | uint8 | int4 | fret64 | fret128
deriving DecidableEq, Repr

/-- Block forms of a format byte (R43). -/
inductive Blk where
  | none | b16 | b32
deriving DecidableEq, Repr

/-- A format byte's meaning (R43). -/
structure Format where
  elem : Elem
  blk : Blk
deriving DecidableEq, Repr

/-- Element format codes (R43). -/
def elemOf : Nat → Option Elem
  | 0 => some .fp64 | 1 => some .fp32 | 2 => some .bf16 | 3 => some .fp16
  | 4 => some .e4m3 | 5 => some .e5m2 | 6 => some .e3m2 | 7 => some .e2m3
  | 8 => some .e2m1 | 9 => some .int8 | 10 => some .uint8 | 11 => some .int4
  | 12 => some .fret64 | 13 => some .fret128 | _ => none

/-- Which formats have block-scaled forms (R44). -/
def Elem.blockable : Elem → Bool
  | .e4m3 | .e5m2 | .e3m2 | .e2m3 | .e2m1 | .int8 => true
  | _ => false

/-- A format byte, where R43 and R44 list it. -/
def formatOf (b : Byte) : Option Format :=
  let v := b.toNat
  match elemOf (bits v 4 0), bits v 7 7, bits v 6 5 with
  | some e, 0, 0 => some ⟨e, .none⟩
  | some e, 0, 1 => if e.blockable then some ⟨e, .b16⟩ else none
  | some e, 0, 2 => if e.blockable then some ⟨e, .b32⟩ else none
  | _, _, _ => none

/-- Bits of an element (R43). -/
def Elem.width : Elem → Nat
  | .fp64 | .fret64 => 64
  | .fp32 => 32
  | .bf16 | .fp16 => 16
  | .e4m3 | .e5m2 | .int8 | .uint8 => 8
  | .e3m2 | .e2m3 => 6
  | .e2m1 | .int4 => 4
  | .fret128 => 128

/-- What a floating-point format reserves (R45): infinities and NaNs, the one NaN of E4M3, nothing. -/
inductive Special where
  | ieee | nanOnly | finite
deriving DecidableEq, Repr

/-- Exponent bits, fraction bits, bias and special encodings (R45). -/
structure FloatFmt where
  e : Nat
  m : Nat
  bias : Nat
  special : Special
deriving DecidableEq, Repr

/-- The parameters of R45; none for the integer and fret formats. -/
def Elem.float : Elem → Option FloatFmt
  | .fp64 => some ⟨11, 52, 1023, .ieee⟩
  | .fp32 => some ⟨8, 23, 127, .ieee⟩
  | .bf16 => some ⟨8, 7, 127, .ieee⟩
  | .fp16 => some ⟨5, 10, 15, .ieee⟩
  | .e4m3 => some ⟨4, 3, 7, .nanOnly⟩
  | .e5m2 => some ⟨5, 2, 15, .ieee⟩
  | .e3m2 => some ⟨3, 2, 3, .finite⟩
  | .e2m3 => some ⟨2, 3, 1, .finite⟩
  | .e2m1 => some ⟨2, 1, 1, .finite⟩
  | _ => none

/-- The encoding of the largest finite magnitude (R45). -/
def FloatFmt.maxEnc (f : FloatFmt) : Nat :=
  match f.special with
  | .ieee => (2 ^ f.e - 1) * 2 ^ f.m - 1
  | .nanOnly => 2 ^ (f.e + f.m) - 2
  | .finite => 2 ^ (f.e + f.m) - 1

/-- Exponent of the unit of subnormals (R45). -/
def FloatFmt.qmin (f : FloatFmt) : Int := 1 - f.bias - f.m

/-- The encoding of infinity. -/
def FloatFmt.infEnc (f : FloatFmt) : Nat := (2 ^ f.e - 1) * 2 ^ f.m

/-- The canonical NaN (R46). -/
def FloatFmt.nanEnc (f : FloatFmt) : Nat :=
  match f.special with
  | .ieee => (2 ^ f.e - 1) * 2 ^ f.m + 2 ^ (f.m - 1)
  | .nanOnly => 2 ^ (f.e + f.m) - 1
  | .finite => 0

/-- An exact value: a signed magnitude times a power of two (zero is signed), an infinity, or a NaN. -/
inductive Val where
  | num (neg : Bool) (mag : Nat) (e : Int)
  | inf (neg : Bool)
  | nan (signalling : Bool)
deriving DecidableEq, Repr

/-- Positive zero. -/
def Val.zero : Val := .num false 0 0

/-- An integer times a power of two. -/
def Val.ofInt (n : Int) (e : Int) : Val := .num (n < 0) n.natAbs e

/-- The integer this value is, in units of `2^q` at or below its own unit; zero for a non-finite one. -/
def Val.units (q : Int) : Val → Int
  | .num neg mag e => let n : Int := (mag <<< (e - q).toNat : Nat); if neg then -n else n
  | _ => 0

def Val.isFinite : Val → Bool
  | .num _ _ _ => true
  | _ => false

def Val.isZero : Val → Bool
  | .num _ 0 _ => true
  | _ => false

def Val.isNan : Val → Bool
  | .nan _ => true
  | _ => false

def Val.isSnan : Val → Bool
  | .nan s => s
  | _ => false

def Val.isInf : Val → Bool
  | .inf _ => true
  | _ => false

def Val.negative : Val → Bool
  | .num n _ _ => n
  | .inf n => n
  | .nan _ => false

/-- The value with its sign changed. -/
def Val.negate : Val → Val
  | .num n m e => .num (!n) m e
  | .inf n => .inf (!n)
  | .nan s => .nan s

/-- The value with its sign set. -/
def Val.withSign (neg : Bool) : Val → Val
  | .num _ m e => .num neg m e
  | .inf _ => .inf neg
  | .nan s => .nan s

/-- A finite value times a power of two. -/
def Val.scaleBy (k : Int) : Val → Val
  | .num n m e => .num n m (e + k)
  | v => v

/-- The exponent of a finite nonzero value (R53). -/
def Val.exponent : Val → Option Int
  | .num _ 0 _ => none
  | .num _ m e => some (Nat.log2 m + e)
  | _ => none

/-- The exponent-ceiling byte that covers a value (R54). -/
def ceilingOf (v : Val) : Byte :=
  match v with
  | .num _ _ _ =>
    match v.exponent with
    | none => 0x00
    | some x => if x ≥ 127 then 0xFF else if x < -127 then 0x01 else BitVec.ofInt 8 (x + 128)
  | _ => 0xFF

/-- The larger of two ceiling bytes (R85). -/
def ceilMax (a b : Byte) : Byte := if a.toNat < b.toNat then b else a

/-- Decode an element (R45 to R47); a fret64 element takes the base (R70); block INT8 is scaled by
its caller (R51). -/
def decodeElem (f : Elem) (base : Int) (v : Nat) : Val :=
  match f.float with
  | some p =>
    let neg := bit v (p.e + p.m)
    let mag := v % 2 ^ (p.e + p.m)
    let E := mag / 2 ^ p.m
    let F := mag % 2 ^ p.m
    if p.special = .ieee ∧ E = 2 ^ p.e - 1 then
      if F = 0 then .inf neg else .nan (!bit v (p.m - 1))
    else if p.special = .nanOnly ∧ mag = 2 ^ (p.e + p.m) - 1 then .nan false
    else if E = 0 then .num neg F p.qmin
    else .num neg (2 ^ p.m + F) (p.qmin + (E - 1 : Nat))
  | none =>
    match f with
    | .uint8 => .num false (v % 256) 0
    | .fret64 => .ofInt (signed 64 v) base
    | .fret128 => .ofInt (signed 128 v) base
    | _ => .ofInt (signed f.width v) 0

/-! ## Rounding -/

/-- Rounding directions (R57). -/
inductive Rnd where
  | nearest | zero | up | down | stochastic
deriving DecidableEq, Repr

/-- A rounding control byte (R57). -/
structure RCtl where
  rnd : Rnd
  sat : Bool
deriving DecidableEq, Repr

/-- Round to nearest even without saturation. -/
def RCtl.rne : RCtl := ⟨.nearest, false⟩

/-- A rounding control byte's meaning; none where it is reserved (R57). -/
def rctlOf (b : Byte) : Option RCtl :=
  let v := b.toNat
  if bits v 7 4 ≠ 0 then none
  else
    match bits v 2 0 with
    | 0 => some ⟨.nearest, bit v 3⟩
    | 1 => some ⟨.zero, bit v 3⟩
    | 2 => some ⟨.up, bit v 3⟩
    | 3 => some ⟨.down, bit v 3⟩
    | 4 => some ⟨.stochastic, bit v 3⟩
    | _ => none

/-- Significand bits of a format as R57 counts them. -/
def Elem.significand (f : Elem) : Nat :=
  match f.float with
  | some p => p.m + 1
  | none => match f with
    | .fret128 => 152
    | g => g.width

/-- The largest magnitude of a format that is not a fret format, as a value. -/
def Elem.largest (f : Elem) : Val :=
  match f.float with
  | some p => decodeElem f 0 p.maxEnc
  | none => match f with
    | .uint8 => .num false 255 0
    | g => .num false (2 ^ (g.width - 1) - 1) 0

/-- Whether stochastic rounding may be named for this conversion (R57). The range of a format is
taken as its largest finite magnitude (DEDUCED, notes/assumptions/18.md). -/
def stochasticOk (src dst : Elem) : Bool :=
  if dst = .fret64 then true
  else if dst = .fret128 then false
  else if dst.significand < src.significand then true
  else if src = .fret64 ∨ src = .fret128 then false
  else src.largest.units (-2000) > dst.largest.units (-2000)

/-- A magnitude `mag · 2^e` in units of `2^q`: whole units, and what is left over as a numerator
above `2^sh`. -/
def toUnits (mag : Nat) (e q : Int) : Nat × Nat × Nat :=
  if q ≤ e then (mag <<< (e - q).toNat, 0, 0)
  else
    let sh := (q - e).toNat
    (mag >>> sh, mag - (mag >>> sh) <<< sh, sh)

/-- Whether a rounding direction takes the next unit away from zero (R55, R66). `r` is the 32-bit
draw of stochastic rounding. -/
def roundsAway (rnd : Rnd) (neg : Bool) (r : Nat) (whole rem sh : Nat) : Bool :=
  match rnd with
  | .nearest => 2 * rem > 1 <<< sh || (2 * rem = 1 <<< sh && rem ≠ 0 && whole % 2 = 1)
  | .zero => false
  | .up => !neg && rem ≠ 0
  | .down => neg && rem ≠ 0
  | .stochastic => ((rem <<< 32) >>> sh) + r ≥ 2 ^ 32

/-- Round a magnitude to whole units of `2^q`; with whether it was inexact. -/
def roundUnits (rnd : Rnd) (neg : Bool) (r : Nat) (mag : Nat) (e q : Int) : Nat × Bool :=
  let (whole, rem, sh) := toUnits mag e q
  (whole + bnat (roundsAway rnd neg r whole rem sh), rem ≠ 0)

/-- Arithmetic flags (R58). -/
abbrev flInvalid : BitVec 16 := 0x0001
abbrev flDivZero : BitVec 16 := 0x0002
abbrev flOverflow : BitVec 16 := 0x0004
abbrev flUnderflow : BitVec 16 := 0x0008
abbrev flInexact : BitVec 16 := 0x0010
abbrev flNarrowSat : BitVec 16 := 0x0020
abbrev flNanZero : BitVec 16 := 0x0040
abbrev flFretSat : BitVec 16 := 0x0080
abbrev flFretTrunc : BitVec 16 := 0x0100
abbrev flFretClamp : BitVec 16 := 0x0200

/-- A flag where a condition holds. -/
def flagIf (c : Bool) (f : BitVec 16) : BitVec 16 := if c then f else 0

/-- Sign bit and magnitude encoding of a floating-point element. -/
def FloatFmt.enc (f : FloatFmt) (neg : Bool) (mag : Nat) : Nat := bnat neg * 2 ^ (f.e + f.m) + mag

/-- Whether a direction's own result beyond the largest finite value is infinite (R61). -/
def goesInfinite (rnd : Rnd) (neg : Bool) : Bool :=
  match rnd with
  | .nearest | .stochastic => true
  | .zero => false
  | .up => !neg
  | .down => neg

/-- The overflow result of a floating-point target (R61; the narrow_sat column as the table gives it,
notes/assumptions/19.md). -/
def overflowFloat (p : FloatFmt) (fp8 : Bool) (neg : Bool) (c : RCtl) : Nat × BitVec 16 :=
  let raised := flOverflow ||| flInexact
  let sat := match p.special with
    | .finite => true
    | .nanOnly => c.sat
    | .ieee => fp8 && c.sat
  if sat then (p.enc neg p.maxEnc, raised ||| flagIf (c.rnd ≠ .zero) flNarrowSat)
  else if goesInfinite c.rnd neg then
    (if p.special = .nanOnly then p.nanEnc else p.enc neg p.infEnc, raised)
  else (p.enc neg p.maxEnc, raised)

/-- A finite value to a floating-point element (R60, R61, R66). -/
def roundFloat (p : FloatFmt) (fp8 : Bool) (c : RCtl) (r : Nat) (neg : Bool) (mag : Nat) (e : Int) :
    Nat × BitVec 16 :=
  if mag = 0 then (p.enc neg 0, 0)
  else
    let x : Int := Nat.log2 mag + e
    let qFree := x - p.m
    let q := max qFree p.qmin
    let (k, inex) := roundUnits c.rnd neg r mag e q
    let enc := (q - p.qmin).toNat * 2 ^ p.m + k
    if enc > p.maxEnc then overflowFloat p fp8 neg c
    else
      let tiny :=
        if c.rnd = .stochastic then enc < 2 ^ p.m
        else qFree < p.qmin && !((roundUnits c.rnd neg r mag e qFree).1 = 2 ^ (p.m + 1) && qFree + 1 = p.qmin)
      (p.enc neg enc, flagIf inex flInexact ||| flagIf (inex && tiny) flUnderflow)

/-- The range of an integer or fret format (R47, R70). -/
def Elem.range (f : Elem) : Int × Int :=
  match f with
  | .uint8 => (0, 255)
  | g => (-(2 ^ (g.width - 1) : Nat), (2 ^ (g.width - 1) - 1 : Nat))

/-- A finite value to an integer element (R63). -/
def roundInt (f : Elem) (c : RCtl) (r : Nat) (neg : Bool) (mag : Nat) (e : Int) : Nat × BitVec 16 :=
  let (n, inex) := roundUnits c.rnd neg r mag e 0
  let v : Int := if neg then -(n : Int) else n
  let (lo, hi) := f.range
  let raised := flOverflow ||| flInexact ||| flNarrowSat
  if v < lo then (unsigned f.width lo, raised)
  else if v > hi then (unsigned f.width hi, raised)
  else (unsigned f.width v, flagIf inex flInexact)

/-- A finite value to fret64 or fret128 at a base (R65; inexact as the rounding gives it,
notes/assumptions/20.md). -/
def roundFret (f : Elem) (c : RCtl) (r : Nat) (base : Int) (neg : Bool) (mag : Nat) (e : Int) :
    Nat × BitVec 16 :=
  let (n, inex) := roundUnits c.rnd neg r mag e base
  let v : Int := if neg then -(n : Int) else n
  let (lo, hi) := f.range
  let fl := flagIf inex flInexact
  if v < lo then (unsigned f.width lo, fl ||| flOverflow ||| flNarrowSat)
  else if v > hi then (unsigned f.width hi, fl ||| flOverflow ||| flNarrowSat)
  else (unsigned f.width v, fl)

/-- Whether an element format is an FP8 format, to which sat applies (R57). -/
def Elem.isFp8 : Elem → Bool
  | .e4m3 | .e5m2 => true
  | _ => false

/-- What a NaN becomes (R62). -/
def nanResult (f : Elem) (signalling : Bool) : Nat × BitVec 16 :=
  match f.float with
  | some p =>
    if p.special = .finite then (0, flInvalid ||| flNanZero)
    else (p.nanEnc, flagIf signalling flInvalid)
  | none => (0, flInvalid ||| flNanZero)

/-- What an infinity becomes; `same` marks a conversion of a format to itself (R60, R62). -/
def infResult (f : Elem) (same : Bool) (sat : Bool) (neg : Bool) : Nat × BitVec 16 :=
  match f.float with
  | some p =>
    match p.special with
    | .ieee => if f.isFp8 && sat && !same then (p.enc neg p.maxEnc, flNarrowSat) else (p.enc neg p.infEnc, 0)
    | .nanOnly => if sat then (p.enc neg p.maxEnc, flNarrowSat) else (p.nanEnc, 0)
    | .finite => (p.enc neg p.maxEnc, flNarrowSat)
  | none =>
    let (lo, hi) := f.range
    (unsigned f.width (if neg then lo else hi), flNarrowSat)

/-- Convert an exact value to an element (R59 to R66): the element's bits and the flags raised. -/
def convert (f : Elem) (same : Bool) (c : RCtl) (r : Nat) (base : Int) (v : Val) : Nat × BitVec 16 :=
  match v with
  | .nan s => nanResult f s
  | .inf neg => infResult f same c.sat neg
  | .num neg mag e =>
    match f.float with
    | some p => roundFloat p f.isFp8 c r neg mag e
    | none =>
      if f = .fret64 ∨ f = .fret128 then roundFret f c r base neg mag e
      else roundInt f c r neg mag e

/-! ## Exact arithmetic -/

/-- The exact sum of two finite values; an exact zero takes the sign IEEE 754 gives it. -/
def addFinite (down : Bool) (na : Bool) (ma : Nat) (ea : Int) (nb : Bool) (mb : Nat) (eb : Int) : Val :=
  let q := min ea eb
  let s := (Val.num na ma ea).units q + (Val.num nb mb eb).units q
  if s = 0 then
    if na = nb then .num na 0 q else .num down 0 q
  else .ofInt s q

/-- a + b exactly, with its flags: NaN results are quiet, a signalling operand and opposite infinities
raise invalid (R55, R56). -/
def addVal (down : Bool) (a b : Val) : Val × BitVec 16 :=
  match a, b with
  | .nan s, y => (.nan false, flagIf (s || y.isSnan) flInvalid)
  | x, .nan s => (.nan false, flagIf (s || x.isSnan) flInvalid)
  | .inf x, .inf y => if x = y then (.inf x, 0) else (.nan false, flInvalid)
  | .inf x, .num _ _ _ => (.inf x, 0)
  | .num _ _ _, .inf y => (.inf y, 0)
  | .num na ma ea, .num nb mb eb => (addFinite down na ma ea nb mb eb, 0)

/-- a × b exactly, with its flags. -/
def mulVal (a b : Val) : Val × BitVec 16 :=
  match a, b with
  | .nan s, y => (.nan false, flagIf (s || y.isSnan) flInvalid)
  | x, .nan s => (.nan false, flagIf (s || x.isSnan) flInvalid)
  | .inf x, .inf y => (.inf (x != y), 0)
  | .inf x, .num n m _ => if m = 0 then (.nan false, flInvalid) else (.inf (x != n), 0)
  | .num n m _, .inf y => if m = 0 then (.nan false, flInvalid) else (.inf (n != y), 0)
  | .num na ma ea, .num nb mb eb => (.num (na != nb) (ma * mb) (ea + eb), 0)

/-- a × b + c exactly, with its flags (R55). -/
def fmaVal (down : Bool) (a b c : Val) : Val × BitVec 16 :=
  let (p, f1) := mulVal a b
  let (s, f2) := addVal down p c
  (s, f1 ||| f2)

/-- a ÷ b to 200 bits or more and a sticky bit below them, which every rounding of R57 decides by. -/
def divVal (a b : Val) : Val × BitVec 16 :=
  match a, b with
  | .nan s, y => (.nan false, flagIf (s || y.isSnan) flInvalid)
  | x, .nan s => (.nan false, flagIf (s || x.isSnan) flInvalid)
  | .inf _, .inf _ => (.nan false, flInvalid)
  | .inf x, .num n _ _ => (.inf (x != n), 0)
  | .num n _ _, .inf y => (.num (n != y) 0 0, 0)
  | .num na ma ea, .num nb mb eb =>
    if mb = 0 then
      if ma = 0 then (.nan false, flInvalid) else (.inf (na != nb), flDivZero)
    else
      let k := Nat.log2 mb + 200
      let q := (ma <<< k) / mb
      let sticky := bnat ((ma <<< k) % mb ≠ 0)
      (.num (na != nb) (2 * q + sticky) (ea - eb - k - 1), 0)

/-- The integer square root by bisection on bits: `fuel` bits from the top. -/
def isqrtBits (n : Nat) : Nat → Nat → Nat
  | 0, acc => acc
  | i + 1, acc => let t := acc + 2 ^ i; isqrtBits n i (if t * t ≤ n then t else acc)

/-- The integer square root. -/
def isqrt (n : Nat) : Nat := isqrtBits n (Nat.log2 n / 2 + 1) 0

/-- √a with a sticky bit. -/
def sqrtVal (a : Val) : Val × BitVec 16 :=
  match a with
  | .nan s => (.nan false, flagIf s flInvalid)
  | .inf neg => if neg then (.nan false, flInvalid) else (.inf false, 0)
  | .num neg m e =>
    if m = 0 then (.num neg 0 0, 0)
    else if neg then (.nan false, flInvalid)
    else
      let sh : Nat := if (e % 2) = 0 then 200 else 201
      let n := m <<< sh
      let r := isqrt n
      (.num false (2 * r + bnat (r * r ≠ n)) ((e - sh) / 2 - 1), 0)

/-- Order of two values that are not NaN; zeros are equal. -/
def cmpVal (a b : Val) : Ordering :=
  match a, b with
  | .inf x, .inf y => if x = y then .eq else if x then .lt else .gt
  | .inf x, _ => if x then .lt else .gt
  | _, .inf y => if y then .gt else .lt
  | .num _ _ ea, .num _ _ eb =>
    let q := min ea eb
    compare (a.units q) (b.units q)
  | _, _ => .eq

/-! ## Stochastic rounding -/

/-- One round of Philox4x32 (R67; constants as published, notes/assumptions/21.md). -/
def philoxRound (k0 k1 c0 c1 c2 c3 : BitVec 32) : BitVec 32 × BitVec 32 × BitVec 32 × BitVec 32 :=
  let p0 := 0xD2511F53 * c0.toNat
  let p1 := 0xCD9E8D57 * c2.toNat
  (BitVec.ofNat 32 (p1 / 2 ^ 32) ^^^ c1 ^^^ k0, BitVec.ofNat 32 p1,
   BitVec.ofNat 32 (p0 / 2 ^ 32) ^^^ c3 ^^^ k1, BitVec.ofNat 32 p0)

/-- `n` rounds, the key raised between rounds. -/
def philoxRounds : Nat → BitVec 32 → BitVec 32 → BitVec 32 → BitVec 32 → BitVec 32 → BitVec 32 → BitVec 32
  | 0, _, _, c0, _, _, _ => c0
  | n + 1, k0, k1, c0, c1, c2, c3 =>
    let (d0, d1, d2, d3) := philoxRound k0 k1 c0 c1 c2 c3
    philoxRounds n (k0 + 0x9E3779B9) (k1 + 0xBB67AE85) d0 d1 d2 d3

/-- The draw of R67: seed, tensor identifier, logical element index. -/
def philox (seed : BitVec 64) (tensor : BitVec 32) (index : Nat) : Nat :=
  (philoxRounds 10 (seed.setWidth 32) ((seed >>> 32).setWidth 32)
    (BitVec.ofNat 32 index) (BitVec.ofNat 32 (index / 2 ^ 32 % 2 ^ 16)) tensor 0).toNat

/-- The draw where the rounding control asks for one; 0 else. -/
def drawFor (c : RCtl) (seed : BitVec 64) (tensor : BitVec 32) (index : Nat) : Nat :=
  if c.rnd = .stochastic then philox seed tensor index else 0

/-! ## Blocks -/

/-- The exponent of an element format's largest normal, as block scaling uses it (R64). -/
def Elem.emax : Elem → Int
  | .e4m3 => 8 | .e5m2 => 15 | .e3m2 => 4 | .e2m3 => 2 | .e2m1 => 2 | _ => 0

/-- The value of a block-scaled element (R49, R51). -/
def decodeBlockElem (f : Elem) (scale : Nat) (v : Nat) : Val :=
  if scale = 0xFF then .nan false
  else
    let x := decodeElem f 0 v
    (if f = .int8 then x.scaleBy (-6) else x).scaleBy (scale - 127)

/-- The largest magnitude among finite values, as a value. -/
def maxMag : List Val → Val
  | [] => .zero
  | v :: vs =>
    let m := maxMag vs
    let a := v.withSign false
    if cmpVal m a = .lt then a else m

/-- One element of a block, its source already divided by the scale (R51, R64): −128 is never written. -/
def blockElem (f : Elem) (c : RCtl) (r : Nat) (x : Val) : Nat × BitVec 16 :=
  let c1 : RCtl := ⟨c.rnd, true⟩
  let (b, fl) := convert f false c1 r 0 (if f = .int8 then x.scaleBy 6 else x)
  let raised := flOverflow ||| flInexact ||| flNarrowSat
  let (b, fl) := if f = .int8 ∧ b = 0x80 then (0x81, raised) else (b, fl)
  if fl &&& flOverflow ≠ 0 ∧ c.rnd = .zero then (b, fl &&& ~~~flNarrowSat) else (b, fl)

/-- A block conversion (R64): scale byte, elements, flags. Draws are by element. -/
def toBlock (f : Elem) (c : RCtl) (xs : List (Val × Nat)) : Nat × List Nat × BitVec 16 :=
  if xs.any (fun p => !p.1.isFinite) then (0xFF, xs.map fun _ => 0, flInvalid)
  else
    match (maxMag (xs.map Prod.fst)).exponent with
    | none => (0x00, xs.map fun _ => 0, 0)
    | some x =>
      let k := max (-127) (min 127 (x - f.emax))
      let es := xs.map fun p => blockElem f c p.2 (p.1.scaleBy (-k))
      ((k + 127).toNat, es.map Prod.fst, es.foldl (fun a p => a ||| p.2) 0)

/-- Elements in a block. -/
def Blk.size : Blk → Nat
  | .none => 1 | .b16 => 16 | .b32 => 32

end Sys2Proof.Machine
end

