-- ==== Sys2Proof/Machine/State.lean ====
section
/-! DEFINITION. The state of the module: every register, queue, buffer, counter, mode and pin that
spec/ gives it, as plain data, and the queue of commands that wait. A field's default is its value in
`State.reset`. Docstrings name the rule; notes/assumptions/1.md lists the values the manual does not
give. -/

namespace Sys2Proof.Machine

/-- Why the block stops with a fault. Nothing does: every fault of the manual is an effect on the
state (a status, a record, a reset), so this type has no constructor that a meaning answers. -/
inductive Fault where
  /-- Raised by no command: the type only has to be inhabited by a name. Safe, since no run ends in it. -/
  | none
deriving DecidableEq, Repr

/-- Why the block refuses a command. -/
inductive Refusal where
  /-- Raised by the dispatch for a command that has no meaning yet. Safe: it claims nothing. -/
  | notModelled (mnemonic : String)
deriving DecidableEq, Repr

/-! ## Tiles -/

/-- What a tile sequencer is doing (R122, R132, R137, R139, R142, R144 to R146). -/
inductive SeqRun where
  | idle
  | running
  | waitEvent (ev : BitVec 4) (count : BitVec 12)
  | waitSem
  | waitSync (queues : BitVec 3)
  | waitIssue (e : Engine)
  | waitWdone (entry : BitVec 6) (status : BitVec 16)
  | ended
  | done
  | faulted
  | stopped
deriving DecidableEq, Repr

/-- A held block of the instruction store: its number in the image and its copy of the image's bytes,
keyed by offset in the block (R124, R125). -/
structure IBlock where
  block : Nat
  bytes : NMap Byte
deriving DecidableEq, Repr

/-- A command of a queue as the module's units name it: the queue, and the model's own number of the
command within it (a record of an indirect buffer has no sequence number of its own, R260). -/
structure CmdId where
  queue : QueueId
  id : Nat
deriving DecidableEq, Repr

/-- An instruction in an issue queue, or an engine operation begun from one: its two words, the pc of
its issue, and the scalar register it names as the issue found it (R132, R133). -/
structure Issue where
  word : BitVec 64
  pc : Word
  arg : Word
deriving DecidableEq, Repr

/-- An engine operation whose results are written and that has not yet completed (R133): the first word
of its instruction, and the scratchpad spans it wrote. -/
structure DoneOp where
  engine : Engine
  word : BitVec 64
  pc : Word
  spans : List (Nat × Nat)
deriving DecidableEq, Repr

/-- A next kernel's image and argument block staged in the idle half of the instruction store (R126, R264). -/
structure Preload where
  queue : QueueId
  seq : BitVec 32
  blocks : List IBlock
  args : Bytes
deriving DecidableEq, Repr

/-- Tile sequencer (R122, R131). -/
structure Seq where
  run : SeqRun := .idle
  pc : Word := 0
  regs : NMap Word := []
  events : NMap (BitVec 16) := []
  rank : BitVec 64 := 0
  count : BitVec 64 := 0
  /-- QUEUE_SEQ: the command being run (R131). -/
  queue : BitVec 12 := 0
  seq : BitVec 32 := 0
  /-- CYCLES in fortieths of an array cycle (R131; notes/assumptions/4.md). -/
  cycles : Nat := 0
  workRing : BitVec 32 := 0
  faultInfo : BitVec 64 := 0
  /-- The program image in scratchpad (R124, R250). -/
  imgBase : Nat := 0
  imgLen : Nat := 0
  /-- Held blocks, least recently used first (R124). -/
  store : List IBlock := []
  half : Bool := false
  /-- The queue runs in preload mode, so that the kernel may use its own half only (R126). -/
  halved : Bool := false
  preload : Option Preload := none
  /-- Persistent mode (R144): the tile runs a resident program. -/
  resident : Bool := false
  /-- Operations issued and not completed (R142), and those issued since the last wdone (R144). -/
  issued : Nat := 0
deriving DecidableEq, Repr

/-- A ceiling slot (R147, R167): the bound tensor descriptor's device address, the byte folded so far,
the descriptor's fret base, and the time of its last use. -/
structure Slot where
  tdesc : Word
  ceiling : Byte
  fretBase : BitVec 10
  used : Nat
deriving DecidableEq, Repr

/-- Vector engine (R147). Registers are keyed 128 r + word; k0 is never stored. -/
structure Vec where
  regs : NMap (BitVec 32) := []
  masks : NMap (BitVec 256) := []
  slots : NMap (Option Slot) := []
  uses : Nat := 0
  /-- The engine has reported itself stopped (R169). -/
  stopped : Bool := false
  /-- Ordinal of the next vec instruction within its command, and the open block of stores: its first
  ordinal, stores so far, their bytes (R374). -/
  ordinal : Nat := 0
  blkFirst : Nat := 0
  blkCount : Nat := 0
  blkBytes : Bytes := []
deriving DecidableEq, Repr

/-- A stationary set (R97, R106, R108): format, scales, the K range and columns it holds, the ceiling
of B, and where it was loaded from. Elements are keyed 512 row + column, as the operand encodes them. -/
structure StatSet where
  fmt : Byte
  addr : BitVec 32
  pitch : BitVec 32
  kSlice : Nat
  nBlock : Nat
  term : BitVec 2
  half : Bool
  kLen : Nat
  cols : Nat
  ceiling : Byte
  elems : NMap (BitVec 32)
  scales : NMap Byte
  /-- The instruction that loaded it (its pc and start count), for reuse within it only (R105). -/
  serial : Nat
deriving DecidableEq, Repr

/-- An accumulator: the fret128 word and the extension word (R69). -/
structure Acc where
  word : BitVec 128 := 0
  ext : BitVec 32 := 0
deriving DecidableEq, Repr

/-- A position in a pane's fold (R105, R113). -/
structure Cursor where
  mBlock : Nat := 0
  nBlock : Nat := 0
  kSlice : Nat := 0
  term : BitVec 2 := 0
  half : Bool := false
  mRow : Nat := 0
  stopped : Bool := false
deriving DecidableEq, Repr

/-- What a pane's instruction waits for next. -/
inductive PanePhase where
  | reload | needSet | pass | out | spill | finished
deriving DecidableEq, Repr

/-- What a matrix instruction keeps of a tensor descriptor it names (R136): its address, scale plane,
innermost extent, identifier and fret base. -/
structure TRef where
  desc : Word
  scale : Word
  n0 : Nat
  id : BitVec 32
  base : BitVec 10
deriving DecidableEq, Repr

/-- A matrix instruction in progress on a pane: its issue fields and its descriptor (R135, R136). -/
structure MatInstr where
  pc : Word
  word : BitVec 64
  acc : BitVec 16
  rctl : Byte
  act : Bool
  aAddr : BitVec 32
  bAddr : BitVec 32
  cAddr : BitVec 32
  dAddr : BitVec 32
  aPitch : BitVec 32
  bPitch : BitVec 32
  cPitch : BitVec 32
  dPitch : BitVec 32
  m : Nat
  n : Nat
  k : Nat
  aFmt : Byte
  bFmt : Byte
  cFmt : Byte
  dFmt : Byte
  image : BitVec 64
  seed : BitVec 64
  aT : Option TRef
  bT : Option TRef
  cT : Option TRef
  dT : Option TRef
  bCeiling : Byte
  cursor : Cursor
  phase : PanePhase
  serial : Nat
  /-- Ordinal of the mma within its command (R374). -/
  ordinal : Nat
deriving DecidableEq, Repr

/-- One pane (R102, R110): stationary sets, the accumulators of its one output block, and the chain
they belong to. Accumulators are keyed 2W row + column. -/
structure Pane where
  active : Option StatSet := none
  shadow : Option StatSet := none
  acc : NMap Acc := []
  /-- The block is resident between instructions of a chain (R110). -/
  resident : Bool := false
  chainOpen : Bool := false
  base : BitVec 10 := 0
  mode : Bool := false
  chain : Nat := 0
  kDone : Nat := 0
  /-- Whether the chain's accumulators came with the pane: a continuing instruction loads no image (R110). -/
  loaded : Bool := false
  /-- Where a forced spill puts the resident block (R110, R191); none: spill space exhausted. -/
  place : Option Word := none
  mBlock : Nat := 0
  nBlock : Nat := 0
  instr : Option MatInstr := none
deriving DecidableEq, Repr

/-- Matrix array of a tile. -/
structure Arr where
  cfg : BitVec 2 := 0
  panes : NMap Pane := []
  serials : Nat := 0
  ordinals : Nat := 0
  /-- The array has reported itself stopped (R114). -/
  stopped : Bool := false
deriving DecidableEq, Repr

/-- The fields of a DMA descriptor (R181). -/
structure DmaDesc where
  src : Word
  dst : Word
  kind : BitVec 4
  srcCache : BitVec 2
  dstCache : BitVec 2
  srcFmt : Byte
  dstFmt : Byte
  rctl : Byte
  n0 : Nat
  n1 : Nat
  n2 : Nat
  n3 : Nat
  srcS1 : Int
  srcS2 : Int
  srcS3 : Int
  dstS1 : Int
  dstS2 : Int
  dstS3 : Int
  idxAddr : BitVec 32
  seed : BitVec 64
  tdescDst : Word
  origin : Nat
  ctr : BitVec 17
  ctrValid : Bool
  tdescSrc : Word
  scale : Word
deriving DecidableEq, Repr

/-- An outstanding DMA descriptor: who issued it, how far it is (R193). `sent` are remote segments
issued and not yet acknowledged. -/
structure DmaOp where
  desc : DmaDesc
  /-- The dma command that handed it over, or none for a tile program's own. -/
  cmd : Option CmdId
  pc : Word
  word : BitVec 64
  next : Nat
  segs : Nat
  sent : List Nat
  /-- Ordinal of the descriptor within its command (R374), and its number on this engine. -/
  ordinal : Nat
  serial : Nat
  /-- Fret bases of the two sides and the destination's tensor identifier, from the descriptors named (R183). -/
  srcBase : Int
  dstBase : Int
  id : BitVec 32
  /-- Bytes of remote reads that have arrived, keyed 2^25 segment + offset; packets still to be answered
  by segment. -/
  got : NMap Byte
  due : NMap Nat
  ceiling : Byte
  failed : Bool
deriving DecidableEq, Repr

/-- DMA engine of a tile (R179). -/
structure Dma where
  ops : List DmaOp := []
  /-- Descriptors of dma commands not yet begun: command, descriptor's device address, ordinal (R252). -/
  handed : List (CmdId × Word × Nat) := []
  ordinals : Nat := 0
  serials : Nat := 0
  stopped : Bool := false
deriving DecidableEq, Repr

/-- A tile (level 2 of the hierarchy, 00 "Hierarchy"). -/
structure Tile where
  seq : Seq := {}
  /-- ARITH_FLAGS (R131). -/
  flags : BitVec 16 := 0
  /-- FRET_STATUS (R82). -/
  fret : BitVec 64 := 0
  aq : List Issue := []
  vq : List Issue := []
  dq : List Issue := []
  finished : List DoneOp := []
  vec : Vec := {}
  arr : Arr := {}
  dma : Dma := {}
  /-- Scratchpad bytes; unlisted bytes are zero (R175). -/
  scratch : NMap Byte := []
  /-- The command that occupies the tile (R262); a resident program's queue with number 0. -/
  cmd : Option CmdId := none
  /-- Poisoned 8-byte words, by word number (R174). -/
  spoison : List Nat := []
  scrubPos : Nat := 0
  zeroing : Bool := false
  fenced : Bool := false
  /-- The tile is out of service from the fence of a reset to its end (R413). -/
  inReset : Bool := false
  /-- Hardware-fault statuses by mechanism, with their times (R414). -/
  mechLog : List (Byte × Nat) := []
deriving DecidableEq, Repr

/-! ## Dies, stacks, memory -/

/-- A die-cache line: 64 bytes by offset, the dirty byte mask, the valid byte mask, and the generation
it was filled in (R196, R211). -/
structure CLine where
  bytes : NMap Byte
  dirty : BitVec 64
  valid : BitVec 64
  gen : Nat
deriving DecidableEq, Repr

/-- A context slot in use (R396, R397): its queue, the generation, and the tiles' saved state. -/
structure CtxSlot where
  queue : QueueId
  gen : BitVec 16
  tiles : NMap Tile
  /-- Saved semaphores and counters of a loan (R385). -/
  sems : NMap (BitVec 32)
  ctrs : NMap (BitVec 48)
deriving DecidableEq, Repr

/-- A compute die. -/
structure Die where
  cache : NMap (Option CLine) := []
  gen : Nat := 0
  clearing : Bool := false
  owner : Option PartId := none
  /-- Array clock in 25 MHz units; 64 is the nominal 1.6 GHz (R28, R425). -/
  clk : BitVec 7 := 64
  /-- Compute-rail voltage in mV (R31). -/
  volt : Nat := 720
  allot : Nat := 0
  power : Nat := 0
  droop : Bool := false
  temp : Int := 0
  /-- Power state (R445): 0 active, 1 idle-ready, 2 drowse. -/
  pstate : BitVec 3 := 0
  /-- That state was entered with partition scope (R447). -/
  partScope : Bool := false
  fenced : Bool := false
  inReset : Bool := false
  resetLog : List Nat := []
  slots : NMap (Option CtxSlot) := []
  /-- The die's energy comes from the activity model until calibration is loaded (R443). -/
  modelled : Bool := true
  /-- Begin of an open matched-clock departure (R371). -/
  departed : Option Word := none
deriving DecidableEq, Repr

/-- A stack and its agent (R228). -/
structure Stack where
  corrected : BitVec 32 := 0
  uncorrected : BitVec 32 := 0
  cSat : Bool := false
  uSat : Bool := false
  scrubPasses : BitVec 8 := 0
  repairs : BitVec 32 := 0
  /-- Spare rows used by pseudo-channel (R229). -/
  spares : NMap Nat := []
  unavailable : Bool := false
  selfRefresh : Bool := false
  scrubPos : Nat := 0
  /-- Corrected lines with the time of the correction (R229). -/
  correctedAt : List (Nat × Nat) := []
  /-- Rows remapped to a spare. -/
  remapped : List Nat := []
  temp : Int := 0
deriving DecidableEq, Repr

/-- Who waits on a semaphore (R141). -/
inductive Waiter where
  | tile (t : TileId) (d : BitVec 5) (budget : Nat) (since : Nat)
  | cmd (c : CmdId)
deriving DecidableEq, Repr

/-- A pending wait or take, in arrival order; `met` once its condition was met and, for a take, its
count subtracted (R141). -/
structure SemWait where
  sem : BitVec 14
  take : Bool
  count : BitVec 32
  who : Waiter
  met : Bool
deriving DecidableEq, Repr

/-- A counter wait (R235, R236); `registered` while the agent holds it, else the front end polls. -/
structure CtrWait where
  stack : StackId
  ctr : BitVec 12
  target : BitVec 48
  cmd : CmdId
  registered : Bool
  met : Bool
deriving DecidableEq, Repr

/-! ## Queues -/

/-- The fields of a queue configuration record (R240). -/
structure QueueCfg where
  partition : PartId
  kernel : Bool
  priority : BitVec 3
  persist : Bool
  nopre : Bool
  haltFlag : Bool
  timeout : BitVec 16
  flagMask : BitVec 16
  ring : Word
  ringLog2 : Nat
  cplLog2 : Nat
  msix : BitVec 11
  maxInflight : Nat
  cpl : Word
  dspill : Word
  dspillLen : Nat
  hspill : Word
  hspillLen : Nat
  pLaunch : Word
  pFirst : BitVec 7
  pTiles : BitVec 7
deriving DecidableEq, Repr

/-- How far a command in flight is: fetched and checked, begun, its work done, released (R203). -/
inductive Stage where
  | fetched | begun | worked | released
deriving DecidableEq, Repr

/-- A command in flight (R241), with what its completion record will say (R270). -/
structure Cmd where
  id : Nat
  seq : BitVec 32
  /-- The record's 64 bytes. -/
  record : Bytes
  /-- Indirect-buffer depth: 0 for a ring record (R260). -/
  depth : Nat := 0
  stage : Stage := .fetched
  status : BitVec 16 := 0
  flags : BitVec 16 := 0
  fast : Bool := false
  est : Bool := false
  spill : BitVec 32 := 0
  /-- loop, call: the first non-success among the records of its buffer, in execution order (R260). -/
  bad : Option (Nat × BitVec 16) := none
  /-- Energy in 2^-16 uJ (R439). -/
  energy : Nat := 0
  engine : Byte := 0
  faultRef : BitVec 24 := 0
  /-- Tiles that have not yet reported done. -/
  tiles : List TileId := []
  /-- Tiles that the command occupies (R262). -/
  holds : List TileId := []
  /-- DMA descriptors not yet complete. -/
  descs : Nat := 0
  /-- Tensor descriptors named as destinations (R85). -/
  dests : List Word := []
  /-- Output ranges: device virtual base and length (R203). -/
  ranges : List (Word × Nat) := []
  /-- matmul: the 64-byte tensor descriptors A, B, C, D as they were read; empty once an undetected fault has made the
  product unspecified (R120, R248). -/
  job : List Bytes := []
  /-- matmul: reach address and length of each output row and its scales (R116). -/
  outs : List (Word × Nat) := []
  /-- Ceilings still to fold at the release (R183). -/
  ceilings : List (Word × Byte) := []
  /-- Persistent mode: entries completed by wdone, rank and status (R265). -/
  wdone : List (Nat × BitVec 16) := []
  /-- Fault detail for the fault ring, and its address field. -/
  aux : BitVec 64 := 0
  addr : BitVec 64 := 0
  mech : Byte := 0
  tile : Option TileId := none
  die : Option (Fin 20) := none
  stack : Option StackId := none
  /-- Lock-step block hashes (R374). -/
  hashes : List BlockHash := []
  begunAt : Word := 0
  /-- When the command completed (R270). -/
  doneAt : Word := 0
deriving DecidableEq, Repr

/-- An indirect buffer being run (R259, R260). -/
structure Frame where
  buf : Word
  len : Nat
  index : Nat
  /-- Iterations that may still follow this one; call: 0. -/
  left : Nat
  condEn : Bool
  pred : BitVec 3
  w64 : Bool
  addr : Word
  imm : BitVec 64
deriving DecidableEq, Repr

/-- A queue (R240 to R243, R275). -/
structure Queue where
  cfg : Option QueueCfg := none
  head : BitVec 32 := 0
  tail : BitVec 32 := 0
  nextPub : BitVec 32 := 0
  cplHead : BitVec 32 := 0
  state : BitVec 3 := 0
  reason : Byte := 0
  gen : BitVec 16 := 0
  /-- The timer in ns, and the command it runs for (R269). -/
  timer : Nat := 0
  timerOf : Nat := 0
  cmds : List Cmd := []
  frames : List Frame := []
  nextId : Nat := 1
  skip : Nat := 0
  /-- Commands whose completion records are held while stalled (R273). -/
  held : List Cmd := []
  /-- Fetching has stopped for a halt that waits for its last record (R267, R268). -/
  halting : Option Byte := none
  acquirePending : Bool := false
  /-- The function that created the queue (R297). -/
  owner : FnId := 0
  /-- Sequence number that a resume named; records below it complete with 0x8003 (R268). -/
  resumeTo : Option (BitVec 32) := none
  /-- A pre-emption is saving the queue's contexts (R393). -/
  preempting : Bool := false
  energy : Nat := 0
  /-- Persistent mode: kernel records delivered to the work ring (R144). -/
  delivered : Nat := 0
deriving DecidableEq, Repr

/-! ## Partitions -/

/-- Dies out on loan (R384): lender, borrower, the dies, and the GiB moved of each region. -/
structure Loan where
  lender : PartId
  borrower : PartId
  die : DieId
  lentGib : Nat
  /-- Saved values of the die's semaphores and of its stacks' counters (R385); none once discarded. -/
  saved : Option (NMap (BitVec 32) × NMap (BitVec 48))
deriving DecidableEq, Repr

/-- A lock-step block (R372). -/
structure LsBlock where
  enable : Bool := false
  peer : BitVec 14 := 0
  peerPart : BitVec 3 := 0
  port : BitVec 6 := 0
deriving DecidableEq, Repr

/-- A partition (R379, R390). -/
structure Part where
  exists_ : Bool := false
  /-- Level-0 translation table, once mailbox 0x0400 has set it (R198, R383). -/
  root : Option (BitVec 42) := none
  damp : Bool := true
  checked : Bool := true
  scrub : BitVec 7 := 12
  ls : LsBlock := {}
  lsState : BitVec 3 := 0
  divergences : BitVec 32 := 0
  divSat : Bool := false
  /-- Clock ceiling in 25 MHz units (R431). -/
  fmax : BitVec 7 := 76
  energy : Nat := 0
  /-- Lock-step records awaiting comparison, ours and the peer's, and the last packet's time (R376). -/
  local_ : List HashRec := []
  peer_ : List (HashRec × List BlockHash) := []
  localBlocks : List (QueueId × BitVec 32 × List BlockHash) := []
  lastPeer : Nat := 0
  diverged : Bool := false
deriving DecidableEq, Repr

/-! ## Host interface -/

/-- A ring of event or fault records (R299). -/
structure Ring where
  base : BitVec 64 := 0
  /-- CFG bits 11:0: size, enable, overrun bits. -/
  cfg : BitVec 12 := 0
  prod : BitVec 32 := 0
  cons : BitVec 32 := 0
deriving DecidableEq, Repr

/-- An MSI-X table entry (R281, R298). -/
structure MsixEntry where
  addr : BitVec 64 := 0
  data : BitVec 32 := 0
  /-- Vector control: bit 0 masks. -/
  ctl : BitVec 32 := 1
  pending : Bool := false
deriving DecidableEq, Repr

/-- What the host saw of its last BAR access (R282, R285). -/
inductive BusOutcome where
  | none
  | data (b : Bytes)
  | unsupported
  | poisoned (b : Bytes)
deriving DecidableEq, Repr

/-- A PCI Express function (R279, R281, R283, R286, R299). -/
structure Fn where
  req : NMap Byte := []
  resp : NMap Byte := []
  busy : Bool := false
  done : Bool := false
  dbIgnored : Bool := false
  seqAny : Bool := true
  nextSeq : BitVec 32 := 0
  /-- The last accepted request's time and response bound in ns (R287, R408). -/
  mbStart : Nat := 0
  mbBound : Nat := 0
  bar2Base : BitVec 64 := 0
  bar2Log2 : BitVec 6 := 42
  evr : Ring := {}
  flt : Ring := {}
  kevCause : BitVec 8 := 0
  kevMask : BitVec 16 := 0xFFFF
  msix : NMap MsixEntry := []
  last : BusOutcome := .none
  /-- Messages accepted so far: it tells an answer's message from a later one. -/
  serial : Nat := 0
deriving DecidableEq, Repr

/-- Who awaits firmware's answer: a mailbox message, an fwpass command, or a command that firmware runs
(R287, R290, R381). -/
inductive Sender where
  | mail (f : FnId) (serial : Nat)
  | pass (c : CmdId)
  | cmd (c : CmdId)
deriving DecidableEq, Repr

/-- Work of firmware that takes more than one happening: the end of a queue, a lend, the end of a partition, the entry
of a power state (R276, R385, R387, R450). -/
inductive JobKind where
  | destroy (q : QueueId)
  | lend (block : Bytes)
  | delete (p : PartId)
  | power (block : Bytes)
deriving DecidableEq, Repr

structure Job where
  sender : Option Sender
  kind : JobKind
deriving DecidableEq, Repr

/-- An MSI-X message the module sent. -/
structure MsixSent where
  fn : FnId
  entry : Nat
deriving DecidableEq, Repr

/-! ## Fabric -/

/-- A wiring plan (R326). -/
structure Plan where
  sx : BitVec 5
  sy : BitVec 5
  sz : BitVec 4
  connected : BitVec 36
deriving DecidableEq, Repr

/-- A peer's hold on a port (R449). -/
structure Hold where
  peer : BitVec 14
  renewed : Nat
deriving DecidableEq, Repr

/-- A Penmond port (R306 to R314, R328). -/
structure Port where
  /-- Bit 2:0 code of R328: 0 unlicensed, 1 training, 2 x8, 3 x4, 4 down, 5 miswired, 6 marked failed,
  7 retraining. -/
  state : BitVec 3 := 0
  failedLanes : BitVec 9 := 0
  spareUsed : Bool := false
  inRoutes : Bool := false
  peer : BitVec 14 := 0
  peerPort : BitVec 6 := 0
  peerValid : Bool := false
  downs : BitVec 16 := 0
  /-- Next flit expected, next flit to send, oldest unacknowledged flit (R311, R312). -/
  rxSeq : BitVec 12 := 0
  txSeq : BitVec 12 := 0
  txAck : BitVec 12 := 0
  nackPending : Bool := false
  /-- Replays of the oldest unacknowledged flit (R312). -/
  replays : Nat := 0
  /-- Credits of the peer spent and not yet returned, keyed 2 vc + class (R314). -/
  spent : NMap Nat := []
  /-- Flits that wait for credits, keyed 2 vc + class. -/
  queued : NMap Nat := []
  holds : List Hold := []
  attemptAt : Nat := 0
  /-- Consecutive module starts at which the port came up down, and each lane failed (R310). -/
  downStarts : Nat := 0
  laneFails : NMap Nat := []
deriving DecidableEq, Repr

/-- The part of a DMA segment that a packet carries: tile, descriptor number, segment, offset of read data. -/
structure SegRef where
  tile : TileId
  serial : Nat
  seg : Nat
  off : Nat
deriving DecidableEq, Repr

/-- A packet that the source has sent and keeps until it is acknowledged (R316). -/
structure Unacked where
  pkt : Packet
  firstSent : Nat
  lastSent : Nat
  interval : Nat
  /-- Bytes of read data still to come. -/
  left : Nat
  seg : Option SegRef
deriving DecidableEq, Repr

/-- The source's window towards one destination and channel (R316). -/
structure TxWin where
  dst : BitVec 14
  vc : BitVec 3
  next : BitVec 24
  unacked : List Unacked
  waiting : List Unacked
  /-- A resynchronisation is pending, to this base; when it was last sent. -/
  resync : Option (BitVec 24 × Nat)
  synced : Bool
deriving DecidableEq, Repr

/-- The destination's window from one source and channel: L and the received numbers above it (R316). -/
structure RxWin where
  src : BitVec 14
  vc : BitVec 3
  low : BitVec 24
  got : List (BitVec 24)
deriving DecidableEq, Repr

/-- What leaves the module on its ports, newest last. -/
inductive Sent where
  | packet (port : Option PortId) (k : Packet)
  | mgmt (port : Option PortId) (m : Mgmt)
  | resync (dst : BitVec 14) (vc : BitVec 3) (base : BitVec 24)
  | resyncAck (dst : BitVec 14) (vc : BitVec 3) (base : BitVec 24)
  | hash (part : PartId) (peer : BitVec 14) (r : HashRec) (blocks : List BlockHash)
  | linkTrailer (port : PortId) (aseq : BitVec 12) (nack : Bool) (freed : Option (BitVec 3 × Bool)) (replayFrom : Option (BitVec 12))
deriving DecidableEq, Repr

/-- The fabric (R306 to R332). -/
structure Fabric where
  modId : BitVec 14 := 0
  plan : Option Plan := none
  /-- Routing table bytes; an unlisted entry is 7, unreachable (R320). -/
  table : NMap Byte := []
  ports : NMap Port := []
  tx : List TxWin := []
  rx : List RxWin := []
  out : List Sent := []
  /-- States of other modules' ports as the management channel reports them: module, port, up. -/
  peersUp : List (BitVec 14 × BitVec 6 × Bool) := []
  /-- Collective control packets for collectives that this member has not begun. -/
  early : List Packet := []
deriving DecidableEq, Repr

/-- The timebase and its alignment (R30, R328 to R330). -/
structure Timebase where
  value : Word := 0
  /-- 0 unaligned, 1 aligned, 2 root, 3 holdover. -/
  state : BitVec 2 := 0
  /-- The module named by the last become-root operation, if any. -/
  named : Option (BitVec 14) := none
  root : BitVec 14 := 0
  offset : BitVec 16 := 0
  /-- The rate correction, and the parts of 10^-6 ns that it has run up (R329). -/
  ratePpm : Int := 0
  slewed : Int := 0
  /-- The value that the parent has still to reach, as the model time at which it does (R330). -/
  holdUntil : Option Nat := none
  parent : Option PortId := none
  parentGood : Bool := false
  goodSince : Option Nat := none
deriving DecidableEq, Repr

/-! ## Collectives -/

/-- An abort report (R350). -/
structure AbortReport where
  cause : Byte
  detRank : BitVec 14
  otherRank : BitVec 14
  otherValid : Bool
  localStatus : BitVec 16
  commId : BitVec 32
  seq : BitVec 32
  detModule : BitVec 14
  otherModule : BitVec 14
  stamp : Word
deriving DecidableEq, Repr

/-- Where a collective on this member stands. -/
inductive CollStage where
  | opening | running | closing | barrier
deriving DecidableEq, Repr

/-- A collective that this member has begun and not completed (R333 to R362). -/
structure Coll where
  cmd : CmdId
  /-- Its sequence number (R335). -/
  cseq : BitVec 32
  /-- The collective descriptor's bytes (R339), the communicator descriptor's (R333), and those of the tensor
  descriptors it names, empty for none. -/
  desc : Bytes
  comm : Bytes
  src : Bytes
  dst : Bytes
  members : List (BitVec 14 × BitVec 3)
  /-- Staging tiles (R253). -/
  tiles : List TileId
  stage : CollStage := .opening
  signature : BitVec 64 := 0
  /-- The dimension of the opening round, and of the closing round, that this member is in, 3 when over; and whose
  packets it has seen, by dimension and origin (R344, R345). -/
  openDim : Nat := 0
  closeDim : Nat := 0
  opened : List (Nat × BitVec 14) := []
  closed : List (Nat × BitVec 14) := []
  maxCeiling : Byte := 0
  maxStamp : Word := 0
  base : BitVec 10 := 0
  /-- The pass being run, counted from 0 (R342). -/
  phase : Nat := 0
  /-- Wire values of the working vector, by element; an all-to-all keeps what it receives above its input (R342). -/
  work : NMap (BitVec 64) := []
  /-- Top-k rows: value bits in FP32 and positions, in rank order (R338). -/
  rows : NMap (List (BitVec 32 × BitVec 32)) := []
  /-- Chunks sent to, credits held from, and credits granted to a peer, by pass, strand and peer. -/
  sent : NMap Nat := []
  credits : NMap Nat := []
  granted : NMap Nat := []
  /-- Units received of each chunk, by pass, strand, peer and chunk. -/
  got : NMap Nat := []
  clFlags : BitVec 16 := 0
  /-- Ceilings of this member's output, then the maximum over all members (R345). -/
  clCeiling : Byte := 0
  abort : Option AbortReport := none
  abortAt : Nat := 0
  /-- The best report forwarded so far (R351). -/
  forwarded : Option AbortReport := none
  /-- Status of the member's own queue where it ended the collective (R354). -/
  ownStatus : BitVec 16 := 0
  /-- The progress timer in ns (R353). -/
  elapsed : Nat := 0
  /-- Damp (R355 to R357): the initiators that hold it, the slots proposed here, seen and agreed, the packets seen by
  dimension, the dimension the round is in. -/
  holders : List (BitVec 14) := []
  proposal : Option Nat := none
  dampMax : Nat := 0
  dampSeen : NMap Nat := []
  dampDim : Nat := 0
  agreed : Option Nat := none
  paused : Bool := false
  damps : BitVec 16 := 0
  /-- Barrier (R359, R360). -/
  release : Word := 0
  late : Bool := false
  unaligned : Bool := false
  signalled : Bool := false
deriving DecidableEq, Repr

/-! ## Faults, resets, crossings -/

/-- A crossing queue (R34 to R41): read words with their valid byte counts, and the status word's
sticky parts. -/
structure XQueue where
  words : List (Bytes × Nat) := []
  pack : Bytes := []
  overrun : Bool := false
  mismatches : BitVec 32 := 0
  countSat : Bool := false
deriving DecidableEq, Repr

/-- A post-mortem snapshot (R415, R416): the header and the section bytes. -/
structure Snapshot where
  number : BitVec 32
  header : Bytes
  body : Bytes
  homeOk : Bool
  mirrorOk : Bool
deriving DecidableEq, Repr

/-- Why a reset runs: the status that started it, its fault number and mechanism. -/
structure ResetCause where
  status : BitVec 16
  faultNo : BitVec 24
  mech : Byte
  sag : Bool
deriving DecidableEq, Repr

/-- What a fault record says (R410). -/
structure FaultRec where
  kind : Byte
  status : BitVec 16
  engine : Byte := 0
  masked : Bool := false
  /-- The 64-byte continuation. -/
  detail : Option Bytes := none
  context : BitVec 32 := 0
  seq : BitVec 32 := 0
  src : BitVec 16
  tile : Option TileId := none
  die : Option LogicDie := none
  stack : Option StackId := none
  port : Option PortId := none
  mech : Byte := 0
  addr : BitVec 64 := 0
  aux : BitVec 64 := 0
  count : BitVec 32 := 1
  /-- The partition the record names. -/
  part : Option PartId := none
deriving DecidableEq, Repr

/-- A source's masked errors of one mechanism: the latest, the time of its last record, those since (R411). -/
structure MaskedRun where
  last : FaultRec
  since : Nat
  count : Nat
deriving DecidableEq, Repr

/-- Fault handling (R401 to R419). -/
structure FaultUnit where
  nextNo : BitVec 24 := 1
  masked : List MaskedRun := []
  snapshots : List Snapshot := []
  nextSnap : BitVec 32 := 0
  homeDie : DieId := 0
  mirrorDie : Option DieId := some 11
  tileCause : NMap (Option ResetCause) := []
  dieCause : NMap (Option ResetCause) := []
  warmCause : Option ResetCause := none
  hubOffline : Bool := false
  heartbeat : Nat := 0
  linksDown : List BridgeLink := []
  replays : NMap Nat := []
  /-- Draws of diagnostics, firmware-trace and hub-memory reads so far. -/
  diags : Nat := 0
deriving DecidableEq, Repr

/-! ## Capo, power states, pins -/

/-- A phase table entry (R429). -/
structure Phase where
  part : PartId
  key : List Nat
  power : Nat
  runs : Nat
  used : Nat
deriving DecidableEq, Repr

/-- The capo and its protections (R423 to R444). -/
structure Capo where
  cap : BitVec 16 := 4600
  weights : BitVec 64 := 0x0101010101010101
  matched : Bool := false
  phases : List Phase := []
  uses : Nat := 0
  /-- Input power of the last module loop and its margin below the cap, in mW (R427). -/
  input : Nat := 0
  inputStretch : Bool := false
  stretchAt : Nat := 0
  sagWarn : Bool := false
  sagHeld : Bool := false
  sagReleasedAt : Option Nat := none
  warnings : BitVec 32 := 0
  warnSat : Bool := false
  /-- Temperatures of the link dies and hubs, in 1/16 degree, by logic die (R301, R436). -/
  temps : NMap Int := []
  vin : BitVec 16 := 0
  iin : BitVec 16 := 0
  pin : BitVec 24 := 0
  /-- Module and overhead energy in 2^-16 uJ (R441). -/
  energy : Nat := 0
  overhead : Nat := 0
deriving DecidableEq, Repr

/-- A saved Dormant state (R454). -/
structure DormantState where
  timebase : Word
deriving DecidableEq, Repr

/-- Power state of the module (R445): off, starting or serving, or dormant. -/
inductive ModPower where
  | off | powered | dormant
deriving DecidableEq, Repr

/-- Power states, pins and supplies (R445 to R461, R488 to R504). -/
structure Power where
  mode : ModPower := .off
  counts : NMap (BitVec 16) := []
  last : Byte := 0
  lastAbort : Bool := false
  /-- Wake from Dormant under way (R456). -/
  waking : Bool := false
  /-- What Dormant keeps for the wake (R454). -/
  saved : Option DormantState := none
  portsIdle : Bool := false
  prsntN : Bool := true
  pwrEn : Bool := false
  pwrGood : Bool := false
  perstN : Bool := false
  thermtripN : Bool := true
  sagWarnN : Bool := true
  maintJmpN : Bool := true
  smbAlertN : Bool := true
  straps : BitVec 5 := 0x1F
  latched : BitVec 5 := 0x1F
  inputUp : Bool := true
  auxUp : Bool := true
  refclk : Bool := true
  /-- End of the 500 ms off time (R497), and an assertion that waits for it. -/
  offUntil : Option Nat := none
  enWaits : Bool := false
  overcurrent : Bool := false
  tripLatched : Option ThermalUnit := none
  perstLatched : Bool := false
  /-- The reset comparator has asserted; when (R435). -/
  sagResetAt : Option Nat := none
deriving DecidableEq, Repr

/-! ## Boot, identity, licences -/

/-- A disabled-unit entry (R476). -/
structure DuEntry where
  kind : Byte
  unit : Byte
  sub : Byte
  cause : Byte
  gen : BitVec 32
deriving DecidableEq, Repr

/-- An installed licence (R479). -/
structure Licence where
  value : Byte
  serial : BitVec 32
deriving DecidableEq, Repr

/-- Start-up, identity, licences, presence (R462 to R487). -/
structure Boot where
  /-- BOOT_STATE[1:0] (R283): 0 starting, 1 ready, 2 open-string, 3 resetting. -/
  state : BitVec 2 := 0
  recordAvail : Bool := false
  fwVersion : BitVec 32 := 0
  romVersion : BitVec 32 := 0
  fnTables : BitVec 32 := 0
  stepping : BitVec 5 := 0
  running : Bool := false
  /-- The body digest of the image that runs, 0 for none, and the measurements that this start's alias key comes from
  (R304, R474). -/
  runDigest : BitVec 384 := 0
  aliasFrom : List (BitVec 384) := []
  started : Nat := 0
  startKind : Byte := 0x01
  /-- Flash: the image slot's bytes, none for the image as delivered (notes/assumptions/63.md); whether valid settings
  are saved; the four counters. -/
  image : Option (NMap Byte) := none
  savedSettings : Bool := false
  counters : NMap (BitVec 32) := []
  attempts : Byte := 0
  reasons : List Byte := []
  failedVersion : BitVec 32 := 0
  latchedReason : Byte := 0
  /-- Disabled tile position of each die at final test; unlisted is 8, the spare position (R25). -/
  basePos : NMap Byte := []
  entries : List DuEntry := []
  recordGen : BitVec 32 := 0
  /-- The entries in force since the last start (R477). -/
  inForce : List DuEntry := []
  readiness : Bytes := []
  staging : NMap Byte := []
  stagedTop : Nat := 0
  startStaged : Bool := false
  rollback : Option (BitVec 384 × BitVec 32) := none
  licences : NMap (Option Licence) := []
  licenceGen : BitVec 32 := 0
  /-- Port and partition licences as they are in force (R481). -/
  portsInForce : Byte := 0
  partsInForce : Byte := 0
  presenceOpen : Bool := false
  presenceCloses : Nat := 0
  presenceLog : List (BitVec 16 × Bool × BitVec 32) := []
  sealLatch : Nat := 0
  sealClosed : Bool := true
  sealLog : List (Word × Bool) := []
  debug : Bool := false
  /-- PERST_N was asserted at ready; the link has trained. -/
  pcieHeld : Bool := false
  pcieRate : BitVec 4 := 0
  pcieWidth : BitVec 5 := 0
  stacksStart : List (BitVec 3) := []
deriving DecidableEq, Repr

/-! ## Telemetry and sideband -/

/-- Trace configuration (R514) and mover (R515). -/
structure Trace where
  buf : BitVec 57 := 0
  host : Bool := false
  size : Nat := 0
  enable : Bool := false
  ovfEvent : Bool := false
  classes : Byte := 0
  kinds : BitVec 32 := 0
  written : Nat := 0
deriving DecidableEq, Repr

/-- The latest ageing record of a unit and its history of (time, value) (R516, R517). -/
structure Ageing where
  cls : Byte
  unit : Byte
  lane : BitVec 4
  history : List (Nat × Nat)
  measured : BitVec 32
  width : BitVec 32
  baseline : BitVec 32
  stamp : Word
  crossed : BitVec 3
deriving DecidableEq, Repr

/-- Telemetry (R505 to R518). -/
structure Telem where
  /-- Next sequence numbers, keyed by source: event and fault stream, trace stream (R506). -/
  evSeq : NMap (BitVec 32) := []
  trSeq : NMap (BitVec 32) := []
  /-- Performance counters with ovf in bit 48, keyed 65,536 index + source (R510, R511). -/
  perf : NMap (BitVec 49) := []
  /-- Error counters with their flag in bit 32. -/
  err : NMap (BitVec 33) := []
  /-- Time of a source's last event record of each code, keyed 65,536 code + source (R509). -/
  evAt : NMap (Option Nat) := []
  trace : Trace := {}
  ageing : List Ageing := []
deriving DecidableEq, Repr

/-- A reply of the sideband or of SPDM (R302 to R304). -/
structure Reply where
  via : SpdmVia
  code : BitVec 16
  body : Bytes
deriving DecidableEq, Repr

/-- The management sideband and SPDM (R302 to R304). -/
structure Sideband where
  eid : BitVec 8 := 0
  eventPending : Bool := false
  negotiated : List SpdmVia := []
  versioned : List SpdmVia := []
  replies : List Reply := []
deriving DecidableEq, Repr

/-! ## The module -/

/-- The whole module, the clock of the model, and the commands that wait. -/
structure State where
  pending : List Instr := []
  /-- Nanoseconds the model has let pass (notes/assumptions/4.md). -/
  time : Nat := 0
  /-- Free values drawn so far (notes/assumptions/3.md). -/
  fresh : Nat := 0
  tiles : NMap Tile := []
  dies : NMap Die := []
  memStacks : NMap Stack := []
  /-- Device memory by device physical address. -/
  mem : List Host.Cell := []
  /-- Poisoned lines, by PA / 64, ascending (R226). -/
  poison : List Nat := []
  /-- Host memory by I/O virtual address. -/
  host : List Host.Cell := []
  atsOn : Bool := true
  sems : NMap (BitVec 32) := []
  semWaits : List SemWait := []
  /-- Arrival counters, keyed 4,096 stack + counter (R234). -/
  ctrs : NMap (BitVec 48) := []
  ctrWaits : List CtrWait := []
  queues : NMap Queue := []
  parts : NMap Part := []
  loans : List Loan := []
  fns : NMap Fn := []
  /-- Virtual functions enabled (R283). -/
  vfs : BitVec 4 := 0
  /-- Firmware's unfinished work, oldest first. -/
  jobs : List Job := []
  msixSent : List MsixSent := []
  fab : Fabric := {}
  tb : Timebase := {}
  colls : List Coll := []
  flt : FaultUnit := {}
  xqs : NMap XQueue := []
  capo : Capo := {}
  pow : Power := {}
  boot : Boot := {}
  tel : Telem := {}
  side : Sideband := {}
deriving DecidableEq, Repr

/-- The module right after a module-cold reset, before power is applied again (R14, R412; log 6). -/
def State.reset : State := {}

end Sys2Proof.Machine
end

