-- ==== Sys2Proof/Machine/Fret.lean ====
section
/-! DEFINITION. Fretted accumulation: group sums, the join to the grid, accumulators, fret bases,
readout, fast mode, and fret64 contributions (spec/03_fretted_accumulation.md). -/

namespace Sys2Proof.Machine

/-! ## Accumulators -/

/-- The 152-bit extended accumulator as an integer (R69). -/
def Acc.value (a : Acc) : Int := signed 152 (a.word.toNat + 2 ^ 128 * bits a.ext.toNat 23 0)

/-- The class: 0 finite, 1 +∞, 2 −∞, 3 NaN (R69). -/
def Acc.cls (a : Acc) : BitVec 2 := a.ext.extractLsb' 24 2

/-- Whether a +∞ class, a −∞ class, has entered (R77). -/
def Acc.pinf (a : Acc) : Bool := a.ext.getLsbD 26
def Acc.ninf (a : Acc) : Bool := a.ext.getLsbD 27

/-- An accumulator from its integer, class and infinity bits (R69). -/
def Acc.make (t : Int) (cls : BitVec 2) (pinf ninf : Bool) : Acc :=
  let n := unsigned 152 t
  { word := BitVec.ofNat 128 n
    ext := BitVec.ofNat 32 (packBits [(24, n / 2 ^ 128), (2, cls.toNat), (1, bnat pinf), (1, bnat ninf)]) }

/-- One contribution: the integer that joins, and the class it brings (R76, R77). -/
structure Contribution where
  n : Int
  cls : BitVec 2
  pinf : Bool
  ninf : Bool
deriving DecidableEq, Repr

/-- Add a contribution: integers add modulo 2^152; classes combine, opposite infinities to NaN; the
infinity bits combine by OR (R77, R79). The codes of R69 make the class rule a bitwise OR. -/
def Acc.add (a : Acc) (c : Contribution) : Acc :=
  Acc.make (a.value + c.n) (a.cls ||| c.cls) (a.pinf || c.pinf) (a.ninf || c.ninf)

/-- Combine two partial accumulators (R80). -/
def Acc.combine (a b : Acc) : Acc := a.add ⟨b.value, b.cls, b.pinf, b.ninf⟩

/-- The class of a product or addend (R77): 0 finite, 1 +∞, 2 −∞, 3 NaN. -/
def classOf : Val → BitVec 2
  | .num _ _ _ => 0
  | .inf neg => if neg then 2 else 1
  | .nan _ => 3

/-! ## Groups -/

/-- A group's exact sum, the class it brings and the invalid it raises (R73 to R75, R77). -/
structure GroupSum where
  sum : Val
  cls : BitVec 2
  pinf : Bool
  ninf : Bool
  flags : BitVec 16
deriving DecidableEq, Repr

/-- Classes and flags of a group's products (R77). -/
def groupClasses (ps : List (Val × BitVec 16)) : BitVec 2 × Bool × Bool × BitVec 16 :=
  (ps.foldl (fun a p => a ||| classOf p.1) 0, ps.any (fun p => p.1 = .inf false),
   ps.any (fun p => p.1 = .inf true), ps.foldl (fun a p => a ||| p.2) 0)

/-- The largest exponent among finite nonzero products (R74). -/
def anchorOf : List Val → Option Int
  | [] => none
  | v :: vs =>
    match v.exponent, anchorOf vs with
    | none, a => a
    | some x, none => some x
    | some x, some a => some (max x a)

/-- A finite value truncated toward zero to whole units of `2^q`. -/
def truncUnits (q : Int) : Val → Int
  | .num neg m e => let n : Int := (toUnits m e q).1; if neg then -n else n
  | _ => 0

/-- The anchored-window sum (R74). -/
def anchoredSum (ps : List Val) : Val :=
  match anchorOf ps with
  | none => .zero
  | some a => .ofInt (ps.foldl (fun t p => t + truncUnits (a - 32) p) 0) (a - 32)

/-- The least unit among finite values. -/
def leastUnit : List Val → Int
  | [] => 0
  | .num _ _ e :: vs => min e (leastUnit vs)
  | _ :: vs => leastUnit vs

/-- The exact sum of finite values (R75). -/
def exactSum (ps : List Val) : Val :=
  let q := leastUnit ps
  .ofInt (ps.foldl (fun t p => t + p.units q) 0) q

/-- An unscaled group from its products (R74, R77). -/
def windowGroup (ps : List (Val × BitVec 16)) : GroupSum :=
  let (c, p, n, f) := groupClasses ps
  ⟨anchoredSum (ps.map Prod.fst), c, p, n, f⟩

/-- A block-scaled group from its element products and the two scale bytes (R75, R77). -/
def blockGroup (ca cb : Nat) (ps : List (Val × BitVec 16)) : GroupSum :=
  if ca = 0xFF ∨ cb = 0xFF then ⟨.zero, 3, false, false, 0⟩
  else
    let (c, p, n, f) := groupClasses ps
    ⟨(exactSum (ps.map Prod.fst)).scaleBy ((ca : Int) - 127 + (cb - 127)), c, p, n, f⟩

/-- A value rounded to 8 significant bits, to nearest even, with unbounded exponent (R78). -/
def roundBf16Free : Val → Val
  | .num neg m e =>
    if m = 0 then .num neg 0 0
    else
      let q : Int := Nat.log2 m + e - 7
      .num neg (roundUnits .nearest neg 0 m e q).1 q
  | v => v

/-- The two BF16 parts of an FP32 element (R78). -/
def splitFp32 (x : Val) : Val × Val :=
  if x.isFinite then
    let hi := roundBf16Free x
    (hi, roundBf16Free (addVal false x hi.negate).1)
  else (x, .zero)

/-- The product that a term of an FP32 pair forms: 0 high, 1 middle, 2 low (R78). -/
def termProduct (term : Nat) (a b : Val) : Val × BitVec 16 :=
  if a.isFinite ∧ b.isFinite then
    match term with
    | 0 => ((mulVal (splitFp32 a).1 (splitFp32 b).1).1, 0)
    | 1 => ((mulVal (splitFp32 a).1 (splitFp32 b).2).1, 0)
    | _ => ((mulVal (splitFp32 a).2 (splitFp32 b).1).1, 0)
  else if term = 0 then mulVal a b
  else (.zero, 0)

/-- The join of a finite value to the grid (R76): the integer, fret_sat, fret_trunc. -/
def joinGrid (base : Int) (g : Val) : Int × BitVec 16 :=
  match g with
  | .num neg m e =>
    let n := (roundUnits .nearest neg 0 m e base).1
    let lim : Nat := 2 ^ 127 - 1
    let k := if n > lim then lim else n
    (if neg then -(k : Int) else k, flagIf (n > lim) flFretSat ||| flagIf (m ≠ 0 && n = 0) flFretTrunc)
  | _ => (0, 0)

/-- A group's contribution on the grid, with its flags (R76, R77). -/
def GroupSum.contribution (base : Int) (g : GroupSum) : Contribution × BitVec 16 :=
  let (n, fl) := joinGrid base g.sum
  (⟨n, g.cls, g.pinf, g.ninf⟩, fl ||| g.flags)

/-- An addend element's contribution (R80). -/
def addendContribution (base : Int) (c : Val) : Contribution × BitVec 16 :=
  let (n, fl) := joinGrid base c
  (⟨n, classOf c, c = .inf false, c = .inf true⟩, fl ||| flagIf c.isSnan flInvalid)

/-! ## Fret bases -/

/-- A ceiling byte's exponent (R84). -/
def ceilExp (c : Byte) : Int := if c = 0xFF then 127 else (c.toNat : Int) - 128

/-- The automatic fret base (R84): ceilings of A, B and the addend, chain length, carry rule. -/
def deriveBase (ca cb : Byte) (cc : Option Byte) (chain : Nat) (carry : Bool) : Int :=
  let prod : Option Int :=
    if ca ≠ 0 ∧ cb ≠ 0 then some (ceilExp ca + ceilExp cb + 1 + clog2 chain + 2) else none
  let add : Option Int :=
    match cc with
    | some c => if c ≠ 0 then some (ceilExp c + 2) else none
    | none => none
  let top : Option Int :=
    match prod, add with
    | none, a => a
    | p, none => p
    | some p, some a => some (max p a)
  match top with
  | none => 0
  | some t => if carry then t - 49 else t - 126

/-- Accumulation control fields (R71). -/
structure AccCtl where
  carry : Bool
  last : Bool
  cont : Bool
  fast : Bool
  auto : Bool
  base : BitVec 10
deriving DecidableEq, Repr

/-- An accumulation control word; none where it is reserved (R71). -/
def accCtlOf (w : BitVec 16) : Option AccCtl :=
  if w.getLsbD 15 then none
  else some ⟨w.getLsbD 14, w.getLsbD 13, w.getLsbD 12, w.getLsbD 11, w.getLsbD 10, w.extractLsb' 0 10⟩

/-! ## Readout -/

/-- The limit on the side of a clamped readout (R81). -/
def readoutLimit (f : Elem) (neg : Bool) : Nat :=
  match f.float with
  | some p => p.enc neg p.maxEnc
  | none => let (lo, hi) := f.range; unsigned f.width (if neg then lo else hi)

/-- Flags that the readout clamp raises in place of R61 to R65 (R81). -/
def clampFlags : BitVec 16 := flOverflow ||| flInexact ||| flFretSat

/-- The finite value a fretted readout converts, with the fret_sat of the 128-bit clamp (R81). -/
def readoutValue (base : Int) (a : Acc) : Val × BitVec 16 :=
  let inv := flagIf (a.pinf && a.ninf) flInvalid
  if a.cls = 3 then (.nan false, inv)
  else if a.cls = 1 then (.inf false, inv)
  else if a.cls = 2 then (.inf true, inv)
  else
    let t := a.value
    let lo : Int := -(2 ^ 127 : Nat)
    let hi : Int := (2 ^ 127 - 1 : Nat)
    if t < lo then (.ofInt lo base, inv ||| flFretSat)
    else if t > hi then (.ofInt hi base, inv ||| flFretSat)
    else (.ofInt t base, inv)

/-- One unscaled element of a fretted readout (R81): bits and flags. -/
def readoutElem (f : Elem) (c : RCtl) (r : Nat) (outBase : Int) (base : Int) (a : Acc) : Nat × BitVec 16 :=
  let (v, fl) := readoutValue base a
  let (b, cf) := convert f false c r outBase v
  if v.isFinite ∧ cf &&& flOverflow ≠ 0 then (readoutLimit f v.negative, fl ||| clampFlags)
  else (b, fl ||| cf)

/-- One block of a fretted readout (R64, R81): scale, elements, each element's flags. -/
def readoutBlock (f : Elem) (c : RCtl) (base : Int) (xs : List (Acc × Nat)) :
    Nat × List (Nat × BitVec 16) :=
  let vs := xs.map fun p => readoutValue base p.1
  if vs.any (fun v => !v.1.isFinite) then (0xFF, vs.map fun v => (0, v.2 ||| flInvalid))
  else
    match (maxMag (vs.map Prod.fst)).exponent with
    | none => (0x00, vs.map fun v => (0, v.2))
    | some x =>
      let k := max (-127) (min 127 (x - f.emax))
      ((k + 127).toNat, (vs.zip xs).map fun p =>
        let (b, cf) := blockElem f c p.2.2 (p.1.1.scaleBy (-k))
        (b, p.1.2 ||| (if cf &&& flOverflow ≠ 0 then clampFlags else cf)))

/-! ## Fast mode (R94) -/

/-- FP32 of an exact value, to nearest even. -/
def toFp32 (v : Val) : Nat × BitVec 16 := convert .fp32 false .rne 0 0 v

/-- The FP32 value of a fast accumulator. -/
def Acc.fastValue (a : Acc) : Val := decodeElem .fp32 0 (a.word.toNat % 2 ^ 32)

/-- Add one value, already FP32, into a fast accumulator; the flags of the addition. -/
def Acc.fastAdd (a : Acc) (v : Val) : Acc × BitVec 16 :=
  let (s, f1) := addVal false a.fastValue v
  let (b, f2) := toFp32 s
  ({ word := BitVec.ofNat 128 b, ext := 0 }, f1 ||| f2)

/-- A group's value in fast mode: its class, or its sum, rounded to FP32; opposite infinities raise
invalid (R94; notes/assumptions/22.md). -/
def GroupSum.fastValue (g : GroupSum) : Val × BitVec 16 :=
  let v : Val := if g.cls = 3 then .nan false else if g.cls = 1 then .inf false
    else if g.cls = 2 then .inf true else g.sum
  let (b, f) := toFp32 v
  (decodeElem .fp32 0 b, f ||| g.flags ||| flagIf (g.pinf && g.ninf) flInvalid)

/-! ## fret64 contributions (R90, R91, R93) -/

/-- Clamp a contribution to −2^49 … 2^49 − 1, raising fret_clamp (R90). -/
def clampFret64 (n : Int) : Int × BitVec 16 :=
  let lo : Int := -(2 ^ 49 : Nat)
  let hi : Int := (2 ^ 49 - 1 : Nat)
  if n < lo then (lo, flFretClamp) else if n > hi then (hi, flFretClamp) else (n, 0)

/-- A member's contribution to a fretted collective: rounded onto the grid by R65, then clamped (R91). -/
def fret64Contribution (c : RCtl) (r : Nat) (base : Int) (v : Val) : BitVec 64 × BitVec 16 :=
  let (b, f1) := convert .fret64 false c r base v
  let (n, f2) := clampFret64 (signed 64 b)
  (BitVec.ofInt 64 n, f1 ||| f2)

/-- The automatic base of a fretted collective from the largest ceiling (R92). -/
def collectiveBase (emax : Byte) : Int := if emax = 0 then 0 else ceilExp emax - 47

/-- A signed 10-bit fret base as an integer (R71). -/
def baseInt (b : BitVec 10) : Int := b.toInt

end Sys2Proof.Machine
end

