-- ==== Sys2Proof/Config.lean ====
section
/-! DEFINITION. What one module fixes and the manual does not give, and the free values: constants
with no body, so that no proof can see what they are (spec/00_scope.md R7; notes/assumptions/3.md,
11.md, 12.md, 13.md, 15.md). -/

namespace Sys2Proof.Config

/-- The n-th free 64-bit value drawn: an unspecified value of R7. -/
opaque free64 : Nat → BitVec 64

/-- The n-th free byte drawn. -/
opaque freeByte : Nat → BitVec 8

/-- The n-th free choice drawn between two outcomes. -/
opaque freeBit : Nat → Bool

/-- A transcendental function of R157 as the tables of one firmware version compute it (R158):
table version, function code, FP32 argument. -/
opaque vectorFunction : BitVec 32 → BitVec 6 → BitVec 32 → BitVec 32

/-- Whether the n-th ATS translation asked of the host, of this address, succeeds (R273). -/
opaque atsTranslates : Nat → Nat → Bool

/-- Where firmware cuts the K range of output element (i, j) among tiles in a fast-mode matmul
(R248, R366): firmware version, M, N, K, tiles, i, j; the cut points below K, rising. -/
opaque matmulCuts : BitVec 32 → Nat → Nat → Nat → Nat → Nat → Nat → List Nat

/-- The row, within its pseudo-channel, that holds a 64-byte line of a stack, by stack address / 64: the
manual does not give the rows' size or place (R229). -/
opaque memoryRow : Nat → Nat

/-- SHA-384 of a byte string (R468, R474). -/
opaque sha384 : List (BitVec 8) → BitVec 384

/-- HMAC-SHA-384 under the key common to every boot ROM (R478). -/
opaque unitMapMac : List (BitVec 8) → BitVec 384

/-- Whether an ECDSA P-384 signature verifies under a key the boot ROM holds: key class
(0 image, 1 licence), message, signature (R468, R479). -/
opaque ecdsaVerifies : Nat → List (BitVec 8) → List (BitVec 8) → Bool

/-- Whether an LMS signature verifies under a key the boot ROM holds. -/
opaque lmsVerifies : Nat → List (BitVec 8) → List (BitVec 8) → Bool

/-- The module fingerprint, from its DeviceID public key (R475). -/
opaque fingerprint : BitVec 128

/-- The SPDM slot 0 certificate chain, given the measurements it is certified for (R474). -/
opaque certificateChain : List (BitVec 384) → List (BitVec 8)

/-- A signature by the alias key that these measurements give, over a byte string (R474). -/
opaque aliasSign : List (BitVec 384) → List (BitVec 8) → List (BitVec 8)

/-- SHA-384 of the boot ROM, SPDM measurement 1 (R304). -/
opaque bootRomDigest : BitVec 384

/-- A die's voltage in mV at a clock in 25 MHz units, from its own curve in flash (R425). -/
opaque voltageCurve : Nat → Nat → Nat

/-- The power in mW that the activity model of R443 predicts for a die at full activity at a clock. -/
opaque activityPower : Nat → Nat → Nat

/-- The days and the confidence that firmware's fit gives a history of (day, value) samples against a
threshold (R517). -/
opaque ageingFit : List (Nat × Nat) → Nat → Nat × Nat

/-- The result of the n-th run of a diagnostic test on a die: failed tiles, first mechanism, duration
in us (R418). -/
opaque diagnostic : Nat → BitVec 8 → Nat → BitVec 8 × BitVec 8 × BitVec 32

/-- The n-th reading of a byte of the firmware trace ring, whose format is the firmware's own (R418). -/
opaque firmwareTrace : Nat → Nat → BitVec 8

/-- The n-th reading of a byte of a hub's boot SRAM, which holds the firmware's own data (R418). -/
opaque hubMemory : Nat → Nat → Nat → BitVec 8

/-- The clock, in 25 MHz units, to which the capo lowers a die for its temperature: from the die's clock, its own
temperature and its hotter stack's (R436). -/
opaque thermalClock : Nat → Int → Int → Nat

/-- The firmware image that the flash holds as delivered: its version, its function tables, its body's digest
(R468; notes/assumptions/63.md). -/
opaque deliveredVersion : BitVec 32
opaque deliveredTables : BitVec 32
opaque deliveredDigest : BitVec 384

end Sys2Proof.Config
end

