-- ==== Sys2Proof/Machine/Ops.lean ====
section
/-! DEFINITION. The accessors of the state, every read and write of a unit going through them, and the
package's fixed geometry (spec/01_package_organisation.md). -/

namespace Sys2Proof.Machine

/-! ## Units -/

def State.tile (s : State) (t : TileId) : Tile := mapGet {} s.tiles t.val
def State.setTile (s : State) (t : TileId) (x : Tile) : State := { s with tiles := mapPut {} s.tiles t.val x }
def State.updTile (s : State) (t : TileId) (f : Tile → Tile) : State := s.setTile t (f (s.tile t))

def State.die (s : State) (d : DieId) : Die := mapGet {} s.dies d.val
def State.setDie (s : State) (d : DieId) (x : Die) : State := { s with dies := mapPut {} s.dies d.val x }
def State.updDie (s : State) (d : DieId) (f : Die → Die) : State := s.setDie d (f (s.die d))

def State.stack (s : State) (k : StackId) : Stack := mapGet {} s.memStacks k.val
def State.setStack (s : State) (k : StackId) (x : Stack) : State := { s with memStacks := mapPut {} s.memStacks k.val x }
def State.updStack (s : State) (k : StackId) (f : Stack → Stack) : State := s.setStack k (f (s.stack k))

def State.queue (s : State) (q : QueueId) : Queue := mapGet {} s.queues q.val
def State.setQueue (s : State) (q : QueueId) (x : Queue) : State := { s with queues := mapPut {} s.queues q.val x }
def State.updQueue (s : State) (q : QueueId) (f : Queue → Queue) : State := s.setQueue q (f (s.queue q))

def State.part (s : State) (p : PartId) : Part := mapGet {} s.parts p.val
def State.setPart (s : State) (p : PartId) (x : Part) : State := { s with parts := mapPut {} s.parts p.val x }
def State.updPart (s : State) (p : PartId) (f : Part → Part) : State := s.setPart p (f (s.part p))

def State.fn (s : State) (f : FnId) : Fn := mapGet {} s.fns f.val
def State.setFn (s : State) (f : FnId) (x : Fn) : State := { s with fns := mapPut {} s.fns f.val x }
def State.updFn (s : State) (f : FnId) (g : Fn → Fn) : State := s.setFn f (g (s.fn f))

def State.port (s : State) (p : PortId) : Port := mapGet {} s.fab.ports p.val
def State.setPort (s : State) (p : PortId) (x : Port) : State :=
  { s with fab := { s.fab with ports := mapPut {} s.fab.ports p.val x } }
def State.updPort (s : State) (p : PortId) (f : Port → Port) : State := s.setPort p (f (s.port p))

def State.sem (s : State) (n : BitVec 14) : BitVec 32 := mapGet 0 s.sems n.toNat
def State.setSem (s : State) (n : BitVec 14) (v : BitVec 32) : State := { s with sems := mapPut 0 s.sems n.toNat v }

/-- Arrival counter c of stack k (R234). -/
def State.ctr (s : State) (k : StackId) (c : BitVec 12) : BitVec 48 := mapGet 0 s.ctrs (4096 * k.val + c.toNat)
def State.setCtr (s : State) (k : StackId) (c : BitVec 12) (v : BitVec 48) : State :=
  { s with ctrs := mapPut 0 s.ctrs (4096 * k.val + c.toNat) v }

/-- A tile's sequencer changed. -/
def State.updSeq (s : State) (t : TileId) (f : Seq → Seq) : State := s.updTile t fun x => { x with seq := f x.seq }

/-- A pane of a tile's array. -/
def Tile.pane (x : Tile) (p : PaneId) : Pane := mapGet {} x.arr.panes p.val
def Tile.setPane (x : Tile) (p : PaneId) (y : Pane) : Tile :=
  { x with arr := { x.arr with panes := mapPut {} x.arr.panes p.val y } }
def State.updPane (s : State) (t : TileId) (p : PaneId) (f : Pane → Pane) : State :=
  s.updTile t fun x => x.setPane p (f (x.pane p))

/-! ## Numbers into identifiers -/

def TileId.ofNat? (n : Nat) : Option TileId := if h : n < 96 then some ⟨n, h⟩ else none
def DieId.ofNat? (n : Nat) : Option DieId := if h : n < 12 then some ⟨n, h⟩ else none
def StackId.ofNat? (n : Nat) : Option StackId := if h : n < 24 then some ⟨n, h⟩ else none
def PortId.ofNat? (n : Nat) : Option PortId := if h : n < 36 then some ⟨n, h⟩ else none
def PartId.ofNat? (n : Nat) : Option PartId := if h : n < 8 then some ⟨n, h⟩ else none
def QueueId.ofNat (n : Nat) : QueueId := ⟨n % 4096, Nat.mod_lt _ (by decide)⟩
def PartId.ofNat (n : Nat) : PartId := ⟨n % 8, Nat.mod_lt _ (by decide)⟩

/-- Every identifier of a kind, rising. -/
def allTiles : List TileId := List.finRange 96
def allDies : List DieId := List.finRange 12
def allStacks : List StackId := List.finRange 24
def allPorts : List PortId := List.finRange 36
def allParts : List PartId := List.finRange 8
def allFns : List FnId := List.finRange 9

/-! ## Geometry -/

/-- The die of a logical tile (R24). -/
def dieOf (t : TileId) : DieId := ⟨t.val / 8, by omega⟩

/-- The die of a stack (R19). -/
def stackDie (k : StackId) : DieId := ⟨k.val / 2, by omega⟩

/-- The stacks of a die (R19). -/
def dieStacks (d : DieId) : List StackId := [⟨2 * d.val, by omega⟩, ⟨2 * d.val + 1, by omega⟩]

/-- The eight tiles of a die (R24). -/
def dieTiles (d : DieId) : List TileId := (List.finRange 8).map fun i => ⟨8 * d.val + i.val, by omega⟩

/-- A compute die in the order of R301: the rows of R20. -/
def logicOfDie (d : DieId) : LogicDie := ⟨5 * (d.val / 3) + d.val % 3 + 1, by omega⟩

/-- A link die in the order of R301. -/
def logicOfLink (l : Fin 6) : LogicDie :=
  match l with
  | 0 => 0 | 1 => 5 | 2 => 15 | 3 => 4 | 4 => 9 | 5 => 19

/-- A hub die in the order of R301. -/
def logicOfHub (h : Fin 2) : LogicDie := if h = 0 then 10 else 14

/-- The compute die at a place in the order of R301. -/
def dieOfLogic (l : LogicDie) : Option DieId := allDies.find? fun d => logicOfDie d = l

/-- The link die of a port (R19). -/
def portLink (p : PortId) : Fin 6 := ⟨p.val / 6, by omega⟩

/-- The partition that owns a tile (R379). -/
def State.tilePart (s : State) (t : TileId) : Option PartId := (s.die (dieOf t)).owner

/-- The dies placed in a partition, borrowed dies included (R379). -/
def State.partDies (s : State) (p : PartId) : List DieId := allDies.filter fun d => (s.die d).owner = some p

/-- The virtual function that serves a partition (R279). -/
def vfOf (p : PartId) : FnId := ⟨p.val + 1, by omega⟩

/-- The partition a virtual function serves; none for the physical function (R279). -/
def partOfFn (f : FnId) : Option PartId := if h : f.val = 0 then none else some ⟨f.val - 1, by omega⟩

/-! ## Time and free values -/

/-- The timebase (R30). -/
def State.stamp (s : State) : Word := s.tb.value

/-- A free 64-bit value (R7; notes/assumptions/3.md). -/
def State.draw64 (s : State) : BitVec 64 × State := (Config.free64 s.fresh, { s with fresh := s.fresh + 1 })

/-- `n` free bytes: an unspecified value of R7. -/
def State.drawBytes (s : State) (n : Nat) : Bytes × State :=
  ((upTo n).map fun i => Config.freeByte (s.fresh + i), { s with fresh := s.fresh + n })

/-- A free choice between two outcomes the manual leaves open. -/
def State.drawBit (s : State) : Bool × State := (Config.freeBit s.fresh, { s with fresh := s.fresh + 1 })

/-! ## CRC-32C -/

/-- One bit step of the reflected CRC-32C (notes/assumptions/23.md). -/
def crcBit (c : Nat) : Nat := if c % 2 = 1 then (c / 2) ^^^ 0x82F63B78 else c / 2

/-- One byte step. -/
def crcByte (c : Nat) (b : Byte) : Nat :=
  crcBit (crcBit (crcBit (crcBit (crcBit (crcBit (crcBit (crcBit (c ^^^ b.toNat))))))))

/-- CRC-32C of a byte string. -/
def crc32c (b : Bytes) : BitVec 32 := BitVec.ofNat 32 (b.foldl crcByte 0xFFFFFFFF ^^^ 0xFFFFFFFF)

end Sys2Proof.Machine
end

