-- ==== Sys2Proof/Machine/CollGeom.lean ====
section
/-! DEFINITION. The shape of a collective: its descriptor's fields, rings and trees, the passes it runs, and what each
strand sends and receives in them (R333, R334, R339, R341, R342, R347). -/

namespace Sys2Proof.Machine

/-- Bits of the collective descriptor and of the communicator descriptor. -/
def Coll.d (k : Coll) (hi lo : Nat) : Nat := bits (leNat k.desc) hi lo
def Coll.c (k : Coll) (hi lo : Nat) : Nat := bits (leNat k.comm) hi lo

def Coll.op (k : Coll) : Nat := k.d 3 0
def Coll.redop (k : Coll) : Nat := k.d 5 4
def Coll.tree (k : Coll) : Bool := k.d 6 6 = 1
def Coll.asc (k : Coll) : Bool := k.d 7 7 = 1
def Coll.wire (k : Coll) : Nat := k.d 10 8
def Coll.count (k : Coll) : Nat := k.d 103 64
def Coll.topK (k : Coll) : Nat := k.d 112 104
def Coll.root (k : Coll) : Nat := k.d 45 32
def Coll.chunkBytes (k : Coll) : Nat := 2 ^ (16 + k.d 50 48)
def Coll.depth (k : Coll) : Nat := k.d 55 52
def Coll.commId (k : Coll) : BitVec 32 := BitVec.ofNat 32 (k.c 31 0)
def Coll.n (k : Coll) : Nat := k.c 46 32
def Coll.rank (k : Coll) : Nat := k.c 77 64
def Coll.part (k : Coll) : PartId := (k.members[k.rank]?).elim 0 fun m => PartId.ofNat m.2.toNat

/-- A sum in FP32 or BF16 (R337). -/
def Coll.fast (k : Coll) : Bool := [0, 1, 4].contains k.op && k.redop = 0 && (k.wire = 1 || k.wire = 2)

/-! ## Rings (R334) -/

def Coll.size (k : Coll) (d : Nat) : Nat :=
  match d with
  | 0 => k.c 94 80
  | 1 => k.c 110 96
  | _ => k.c 126 112

/-- Ranks between neighbours of a dimension's ring. -/
def Coll.stride (k : Coll) (d : Nat) : Nat :=
  match d with
  | 0 => 1
  | 1 => k.size 0
  | _ => k.size 0 * k.size 1

def Coll.coord (k : Coll) (r d : Nat) : Nat := r / k.stride d % k.size d
def Coll.pos (k : Coll) (d : Nat) : Nat := k.coord k.rank d

/-- The rank at a position of this member's ring of a dimension. -/
def Coll.ringRank (k : Coll) (d p : Nat) : Nat := k.rank - k.pos d * k.stride d + p % k.size d * k.stride d
def Coll.next (k : Coll) (d : Nat) : Nat := k.ringRank d (k.pos d + 1)
def Coll.prev (k : Coll) (d : Nat) : Nat := k.ringRank d (k.pos d + k.size d - 1)

/-- Dimensions whose ring has more than one member. -/
def Coll.dims (k : Coll) : List Nat := [0, 1, 2].filter fun d => 1 < k.size d

/-! ## Trees (R347) -/

/-- A node of a binary tree over positions: parent, left child, right child. -/
structure TreeNode where
  parent : Option Nat
  left : Option Nat
  right : Option Nat
deriving DecidableEq, Repr

/-- The root of positions lo to hi − 1. -/
def treeRoot (lo hi : Nat) : Option Nat := if lo < hi then some ((lo + hi) / 2) else none

/-- The node at a position, from the root of lo to hi − 1 downwards. -/
def treeNode (p : Nat) : Nat → Nat → Nat → Option Nat → TreeNode
  | 0, _, _, up => ⟨up, none, none⟩
  | n + 1, lo, hi, up =>
    let r := (lo + hi) / 2
    if p = r then ⟨up, treeRoot lo r, treeRoot (r + 1) hi⟩
    else if p < r then treeNode p n lo r (some r)
    else treeNode p n (r + 1) hi (some r)

/-- A rank's position in tree A (strand 0) or B (strand 1), and the rank at a position. -/
def Coll.treePos (k : Coll) (i r : Nat) : Nat := if i = 0 then r else (r + 1) % k.n
def Coll.treeRank (k : Coll) (i p : Nat) : Nat := if i = 0 then p else (p + k.n - 1) % k.n

/-- This member's node of a tree, in ranks. -/
def Coll.node (k : Coll) (i : Nat) : TreeNode :=
  let x := treeNode (k.treePos i k.rank) 16 0 k.n none
  ⟨x.parent.map (k.treeRank i), x.left.map (k.treeRank i), x.right.map (k.treeRank i)⟩

/-- The rank at a tree's root. -/
def Coll.treeTop (k : Coll) (i : Nat) : Nat := k.treeRank i (k.n / 2)

/-! ## Passes (R342, R347) -/

inductive Pass where
  | scatter (d : Nat) | gather (d : Nat) | bcast (d : Nat) | toRoot | direct | treeUp | treeDown | treeIn | treeOut
deriving DecidableEq, Repr

/-- The passes of a collective, in order. -/
def Coll.passes (k : Coll) : List Pass :=
  let down := [2, 1, 0].filter k.dims.contains
  if k.tree then
    match k.op with
    | 0 => [.treeUp, .treeDown]
    | 3 => [.treeIn, .treeDown]
    | _ => [.treeUp, .treeOut]
  else
    match k.op with
    | 0 | 6 => down.map .scatter ++ k.dims.map .gather
    | 1 => down.map .scatter
    | 2 => k.dims.map .gather
    | 3 => k.dims.map .bcast
    | 4 => down.map .scatter ++ [.toRoot]
    | 5 => [.direct]
    | _ => []

/-- The dimension and pass fields of a pass's packets (R343; the values beyond the rings' are the model's,
notes/assumptions/42.md). -/
def Pass.code : Pass → Nat × Bool
  | .scatter d => (d, false)
  | .gather d => (d, true)
  | .bcast d => (d, true)
  | .toRoot => (3, true)
  | .direct => (3, false)
  | .treeUp => (0, false)
  | .treeDown => (0, true)
  | .treeIn => (3, false)
  | .treeOut => (3, true)

/-- Whether a strand moves in the + direction (R341, R342); `first` marks the reduce-scatter pass. -/
def Coll.plus (k : Coll) (first : Bool) (strand : Nat) : Bool := (k.fast && first) || strand % 2 = 0

/-! ## Ranges -/

/-- Piece j of m of a range given by its first element and length (R342). -/
def pieceOf (r : Nat × Nat) (m j : Nat) : Nat × Nat :=
  (r.1 + j * r.2 / m, (j + 1) * r.2 / m - j * r.2 / m)

/-- Bytes of one unit on the wire: an element, or a top-k row (R338, R339). -/
def Coll.unitBytes (k : Coll) : Nat :=
  if k.op = 6 then 8 * k.topK
  else match k.wire with
    | 0 => 8 | 1 => 4 | 2 => 2 | _ => 1

/-- Units of the whole working vector. -/
def Coll.total (k : Coll) : Nat := if [1, 2, 5].contains k.op then k.n * k.count else k.count

/-- The working range of a rank before the reduce-scatter pass of a dimension; its last piece for 3. -/
def Coll.rangeBefore (k : Coll) (r : Nat) (d : Nat) : Nat × Nat :=
  let w2 := (0, k.total)
  let w1 := pieceOf w2 (k.size 2) (k.coord r 2)
  let w0 := pieceOf w1 (k.size 1) (k.coord r 1)
  match d with
  | 2 => w2
  | 1 => w1
  | 0 => w0
  | _ => pieceOf w0 (k.size 0) (k.coord r 0)

/-- A range that a strand moves to or from a peer: step, peer, first unit, units, and whether it is combined. -/
structure Xfer where
  step : Nat
  peer : Nat
  lo : Nat
  len : Nat
  combine : Bool
deriving DecidableEq, Repr

/-- A ring pass's transfers: the peer, and the piece at each of the m − 1 steps. -/
def Coll.ringXfers (k : Coll) (d i : Nat) (peer : Nat) (piece : Nat → Nat) (combine : Bool) : List Xfer :=
  let m := k.size d
  (upTo (m - 1)).map fun t =>
    let r := pieceOf (pieceOf (k.rangeBefore k.rank d) m (piece t % m)) 12 i
    ⟨t, peer, r.1, r.2, combine⟩

/-- The two halves of the elements, one to a tree (R347). -/
def Coll.half (k : Coll) (i : Nat) : Nat × Nat :=
  if i = 0 then (0, (k.count + 1) / 2) else ((k.count + 1) / 2, k.count - (k.count + 1) / 2)

/-- Transfers of a tree's strand to peers. -/
def Coll.treeXfers (k : Coll) (i : Nat) (peers : List Nat) (combine : Bool) : List Xfer :=
  if i < 2 then peers.map fun p => ⟨0, p, (k.half i).1, (k.half i).2, combine⟩ else []

/-- This member's place behind the root on a broadcast's ring, where it takes part (R342). -/
def Coll.behind (k : Coll) (d i : Nat) : Option Nat :=
  let m := k.size d
  let rp := k.coord k.root d
  if ([0, 1, 2].filter (d < ·)).all fun e => k.pos e = k.coord k.root e then
    some (if k.plus false i then (k.pos d + m - rp) % m else (rp + m - k.pos d) % m)
  else none

/-- What a strand sends in a pass, in order. -/
def Coll.sends (k : Coll) (ph : Pass) (i : Nat) : List Xfer :=
  match ph with
  | .scatter d =>
    let m := k.size d
    if k.plus true i then k.ringXfers d i (k.next d) (fun t => k.pos d + 2 * m - 1 - t) true
    else k.ringXfers d i (k.prev d) (fun t => k.pos d + 1 + t) true
  | .gather d =>
    let m := k.size d
    if k.plus false i then k.ringXfers d i (k.next d) (fun t => k.pos d + m - t) false
    else k.ringXfers d i (k.prev d) (fun t => k.pos d + t) false
  | .bcast d =>
    match k.behind d i with
    | none => []
    | some b =>
      let r := pieceOf (0, k.count) 12 i
      if b + 1 < k.size d then [⟨0, if k.plus false i then k.next d else k.prev d, r.1, r.2, false⟩] else []
  | .toRoot =>
    let r := pieceOf (k.rangeBefore k.rank 3) 12 i
    if k.rank = k.root then [] else [⟨(k.rank + k.n - k.root - 1) % k.n, k.root, r.1, r.2, false⟩]
  | .direct => (upTo (k.n - 1)).map fun t =>
      let p := (k.rank + 1 + t) % k.n
      let r := pieceOf (p * k.count, k.count) 12 i
      ⟨t, p, r.1, r.2, false⟩
  | .treeUp => k.treeXfers i (k.node i).parent.toList true
  | .treeDown => k.treeXfers i ((k.node i).left.toList ++ (k.node i).right.toList) false
  | .treeIn => if k.rank = k.root ∧ k.root ≠ k.treeTop i then k.treeXfers i [k.treeTop i] false else []
  | .treeOut => if k.rank = k.treeTop i ∧ k.root ≠ k.treeTop i then k.treeXfers i [k.root] false else []

/-- What a strand receives in a pass, in order. -/
def Coll.recvs (k : Coll) (ph : Pass) (i : Nat) : List Xfer :=
  match ph with
  | .scatter d =>
    let m := k.size d
    if k.plus true i then k.ringXfers d i (k.prev d) (fun t => k.pos d + 2 * m - 2 - t) true
    else k.ringXfers d i (k.next d) (fun t => k.pos d + 2 + t) true
  | .gather d =>
    let m := k.size d
    if k.plus false i then k.ringXfers d i (k.prev d) (fun t => k.pos d + 2 * m - 1 - t) false
    else k.ringXfers d i (k.next d) (fun t => k.pos d + 1 + t) false
  | .bcast d =>
    match k.behind d i with
    | none => []
    | some b =>
      let r := pieceOf (0, k.count) 12 i
      if 0 < b then [⟨0, if k.plus false i then k.prev d else k.next d, r.1, r.2, false⟩] else []
  | .toRoot =>
    if k.rank ≠ k.root then []
    else (upTo (k.n - 1)).map fun t =>
      let p := (k.root + 1 + t) % k.n
      let r := pieceOf (k.rangeBefore p 3) 12 i
      ⟨t, p, r.1, r.2, false⟩
  | .direct => (upTo (k.n - 1)).map fun t =>
      let p := (k.rank + k.n - 1 - t) % k.n
      let r := pieceOf (k.total + p * k.count, k.count) 12 i
      ⟨t, p, r.1, r.2, false⟩
  | .treeUp => k.treeXfers i ((k.node i).left.toList ++ (k.node i).right.toList) true
  | .treeDown => k.treeXfers i (k.node i).parent.toList false
  | .treeIn => if k.rank = k.treeTop i ∧ k.root ≠ k.treeTop i then k.treeXfers i [k.root] false else []
  | .treeOut => if k.rank = k.root ∧ k.root ≠ k.treeTop i then k.treeXfers i [k.treeTop i] false else []

/-! ## Chunks and slots (R343, R355) -/

def ceilOf (a b : Nat) : Nat := if b = 0 then 0 else (a + b - 1) / b

/-- Units of a full chunk. -/
def Coll.chunkUnits (k : Coll) : Nat := k.chunkBytes / max 1 k.unitBytes

/-- The most units that a transfer of a pass moves on any member. -/
def Coll.maxUnits (k : Coll) (ph : Pass) : Nat :=
  let w1 := ceilOf k.total (k.size 2)
  let w0 := ceilOf w1 (k.size 1)
  let f := ceilOf w0 (k.size 0)
  match ph with
  | .scatter d | .gather d => ceilOf (match d with | 2 => w1 | 1 => w0 | _ => f) 12
  | .bcast _ | .direct => ceilOf k.count 12
  | .toRoot => ceilOf f 12
  | _ => ceilOf k.count 2

def Coll.passSteps (k : Coll) (ph : Pass) : Nat :=
  match ph with
  | .scatter d | .gather d => k.size d - 1
  | .toRoot | .direct => k.n - 1
  | _ => 1

/-- Slots of one step of a pass, alike on every member (notes/assumptions/43.md). -/
def Coll.stepSlots (k : Coll) (ph : Pass) : Nat := ceilOf (k.maxUnits ph) k.chunkUnits

/-- The first slot of pass number n; the number of all slots for n the number of passes. -/
def Coll.slotBase (k : Coll) (n : Nat) : Nat :=
  ((k.passes.take n).map fun ph => k.passSteps ph * k.stepSlots ph).foldl (· + ·) 0

/-- One chunk: its slot, peer, units, its first byte in the stream between the two members, and whether it is
combined. -/
structure Chunk where
  slot : Nat
  peer : Nat
  lo : Nat
  len : Nat
  off : Nat
  combine : Bool
deriving DecidableEq, Repr

/-- The chunks of transfers with one peer, in order, from a byte offset. -/
def Coll.chunksFrom (k : Coll) (n : Nat) (ph : Pass) : Nat → List Xfer → List Chunk
  | _, [] => []
  | off, x :: xs =>
    let u := max 1 k.chunkUnits
    let cs := (upTo (ceilOf x.len u)).map fun j =>
      (⟨k.slotBase n + x.step * k.stepSlots ph + j, x.peer, x.lo + j * u, min u (x.len - j * u), off + j * u * k.unitBytes,
        x.combine⟩ : Chunk)
    cs ++ k.chunksFrom n ph (off + x.len * k.unitBytes) xs

/-- The chunks a strand sends to a peer, or receives from it, in pass number n. -/
def Coll.chunksTo (k : Coll) (n i peer : Nat) : List Chunk :=
  match k.passes[n]? with
  | none => []
  | some ph => k.chunksFrom n ph 0 ((k.sends ph i).filter fun x => x.peer = peer)

def Coll.chunksIn (k : Coll) (n i peer : Nat) : List Chunk :=
  match k.passes[n]? with
  | none => []
  | some ph => k.chunksFrom n ph 0 ((k.recvs ph i).filter fun x => x.peer = peer)

/-- The peers of transfers, each once. -/
def xferPeers (xs : List Xfer) : List Nat := (xs.map fun x => x.peer).eraseDups

def Coll.sendPeers (k : Coll) (n i : Nat) : List Nat := xferPeers ((k.passes[n]?).elim [] fun ph => k.sends ph i)
def Coll.recvPeers (k : Coll) (n i : Nat) : List Nat := xferPeers ((k.passes[n]?).elim [] fun ph => k.recvs ph i)

/-- The key of a stream: pass, strand, peer. -/
def streamKey (n i peer : Nat) : Nat := (n * 16 + i) * 16384 + peer

/-! ## Packets (R343) -/

/-- Whether a packet's prefix names this collective. -/
def Coll.idsMatch (k : Coll) (p : Packet) : Bool :=
  leNat (slice p.data 0 4) = k.commId.toNat && leNat (slice p.data 4 4) = k.cseq.toNat

/-- The rank of the member that sent a packet. -/
def Coll.senderOf (k : Coll) (p : Packet) : Option Nat := k.members.findIdx? fun m => m.1 = p.src && m.2 = p.srcPart

/-- The pass that a packet's dimension and pass fields name, by number. -/
def Coll.passOf (k : Coll) (p : Packet) : Option Nat :=
  k.passes.findIdx? fun ph => ph.code = (bits p.addr.toNat 5 4, bit p.addr.toNat 6)

end Sys2Proof.Machine
end

