-- ==== Sys2Proof/Machine/Mem.lean ====
section
/-! DEFINITION. Memory: scratchpads, the physical address map, stack agents, translation, die caches,
acquires and write-backs, host memory (spec/07, 08, 09). -/

namespace Sys2Proof.Machine

/-- Why an access fails: its status and what a fault record says of it. -/
structure Fail where
  status : BitVec 16
  addr : BitVec 64 := 0
  mech : Byte := 0
  stack : Option StackId := none
  die : Option LogicDie := none
  aux : BitVec 64 := 0
deriving DecidableEq, Repr

/-! ## Scratchpad (R172, R174) -/

/-- Bytes of a scratchpad. -/
abbrev scratchSize : Nat := 0x1800000

/-- The 8-byte words that `n` bytes from `a` touch. -/
def wordsOf (a n : Nat) : List Nat := if n = 0 then [] else (upTo ((a + n - 1) / 8 - a / 8 + 1)).map (· + a / 8)

/-- Read scratchpad bytes: outside it 0x2003 (R130, R186), on a poisoned word 0x9002 (R174). -/
def Tile.scratchRead (x : Tile) (a n : Nat) : Except Fail Bytes :=
  if a + n > scratchSize then .error { status := 0x2003, addr := BitVec.ofNat 64 a }
  else if (wordsOf a n).any (x.spoison.contains ·) then
    .error { status := 0x9002, addr := BitVec.ofNat 64 a, mech := 0x02 }
  else .ok (bytesAt x.scratch a n)

/-- Write scratchpad bytes; a word whose 8 bytes are all replaced loses its poison (R174). -/
def Tile.scratchWrite (x : Tile) (a : Nat) (b : Bytes) : Tile :=
  { x with
    scratch := putBytes x.scratch a b
    spoison := x.spoison.filter fun w => !(a ≤ 8 * w && 8 * w + 8 ≤ a + b.length) }

/-- A scratchpad word read for an engine, zero where the read fails. -/
def Tile.scratchNat (x : Tile) (a n : Nat) : Nat := leNat (bytesAt x.scratch a n)

/-! ## Physical addresses (R221 to R223) -/

/-- What a device physical address reaches. -/
inductive PaKind where
  | region (d : DieId) (off : Nat)
  | counter (k : StackId) (c : BitVec 12)
  | aperture (p : PartId)
  | hole
deriving DecidableEq, Repr

/-- The stacks of a die that are in use (R222). -/
def State.dieInUse (s : State) (d : DieId) : List StackId := (dieStacks d).filter fun k => !(s.stack k).unavailable

/-- Bytes with contents in a die region (R222). -/
def State.regionSize (s : State) (d : DieId) : Nat := (s.dieInUse d).length * 128 * gib

/-- Base offset of the firmware reserve of a die region (R223). -/
def State.reserveBase (s : State) (d : DieId) : Nat := s.regionSize d - gib

/-- Usable capacity of a die region in GiB (R223). -/
def State.usableGib (s : State) (d : DieId) : Nat := (s.dieInUse d).length * 128 - 1

/-- The address map (R221, R222). -/
def State.paKind (s : State) (pa : Nat) : PaKind :=
  let top := pa / 2 ^ 38
  let o := pa % 2 ^ 38
  match DieId.ofNat? top with
  | some d => if o < s.regionSize d then .region d o else .hole
  | none =>
    if top = 14 then
      match StackId.ofNat? (o / 8 / 4096) with
      | some k => .counter k (BitVec.ofNat 12 (o / 8 % 4096))
      | none => .hole
    else if top = 15 then .aperture (PartId.ofNat (o / 2 ^ 35))
    else .hole

/-- The stack that holds offset `o` of die region `d` (R222). -/
def State.stackOf (s : State) (d : DieId) (o : Nat) : StackId :=
  match s.dieInUse d with
  | [k] => k
  | _ => if (bnat (bit o 8) + bnat (bit o 16) + bnat (bit o 24) + bnat (bit o 32)) % 2 = 1
         then ⟨2 * d.val + 1, by omega⟩ else ⟨2 * d.val, by omega⟩

/-- The address within its stack (R222). -/
def State.stackAddr (s : State) (d : DieId) (o : Nat) : Nat :=
  if (s.dieInUse d).length = 1 then o else (o / 2 ^ 9) * 2 ^ 8 + o % 2 ^ 8

/-- The pseudo-channel of a stack address (R222). -/
def pchanOf (sa : Nat) : Nat := (sa / 2 ^ 8 % 64) ^^^ (sa / 2 ^ 16 % 64)

/-- Whether `[o, o + n)` of region `d` belongs to partition `p` (R223, R384). -/
def State.ownsRegion (s : State) (p : PartId) (d : DieId) (o n : Nat) : Bool :=
  let top := s.reserveBase d
  match s.loans.find? (fun l => l.die = d) with
  | none => (s.die d).owner = some p && o + n ≤ top
  | some l =>
    let cut := l.lentGib * gib
    (l.borrower = p && o + n ≤ cut) || (l.lender = p && cut ≤ o && o + n ≤ top)

/-- The partition that owns a stack: the one its die is placed in (R214, R385). -/
def State.stackPart (s : State) (k : StackId) : Option PartId := (s.die (stackDie k)).owner

/-- Whether `[pa, pa + n)` lies in partition `p`'s physical extent (R200, R223). -/
def State.inExtent (s : State) (p : PartId) (pa n : Nat) : Bool :=
  match s.paKind pa with
  | .region d o => s.ownsRegion p d o n
  | .counter k c => n ≤ (4096 - c.toNat) * 8 - pa % 8 && s.stackPart k = some p
  | .aperture a => a = p && pa % 2 ^ 35 + n ≤ 2 ^ 35
  | .hole => false

/-! ## Stack agents (R195, R226, R234) -/

/-- Lines that `n` bytes from `a` touch. -/
def linesOf (a n : Nat) : List Nat := if n = 0 then [] else (upTo ((a + n - 1) / 64 - a / 64 + 1)).map (· + a / 64)

/-- The failure of a read of poisoned memory (R226). -/
def State.poisonFail (s : State) (pa : Nat) : Fail :=
  let d := (DieId.ofNat? (pa / 2 ^ 38)).getD 0
  { status := 0x9003, addr := BitVec.ofNat 64 pa, mech := 0x01, stack := some (s.stackOf d (pa % 2 ^ 38)),
    die := some (logicOfDie d) }

/-- The die whose agents hold a physical address. -/
def State.agentDie (s : State) (pa : Nat) : Option DieId :=
  match s.paKind pa with
  | .region d _ => some d
  | .counter k _ => some (stackDie k)
  | _ => none

/-- Agents that a fence has closed, for a reset or in Drowse, answer with its status (R238, R413, R453). -/
def State.agentFenced (s : State) (pa : Nat) : Option Fail :=
  match s.agentDie pa with
  | some d => if (s.die d).inReset || (s.die d).pstate = 2 then some { status := 0x9009, addr := BitVec.ofNat 64 pa, die := some (logicOfDie d) } else none
  | none => none

/-- The bridge links of the route between two places of the mesh, along x and then along y (R20, R21, R467). -/
def bridgeRoute (a b : LogicDie) : List Nat :=
  let xs := upTo (max (a.val % 5) (b.val % 5) - min (a.val % 5) (b.val % 5))
  let ys := upTo (max (a.val / 5) (b.val / 5) - min (a.val / 5) (b.val / 5))
  (xs.map fun i => 4 * (a.val / 5) + min (a.val % 5) (b.val % 5) + i)
    ++ ys.map fun i => 16 + 3 * (b.val % 5) + min (a.val / 5) (b.val / 5) + i

/-- A request that needs a bridge link taken down, on its way or its answer's (R23). -/
def State.bridgeFail (s : State) (d : DieId) (pa : Nat) : Option Fail :=
  match s.agentDie pa with
  | none => none
  | some e =>
    let r := bridgeRoute (logicOfDie d) (logicOfDie e) ++ bridgeRoute (logicOfDie e) (logicOfDie d)
    if s.flt.linksDown.any fun l => r.contains l.val then
      some { status := 0x9005, addr := BitVec.ofNat 64 pa, die := some (logicOfDie d), mech := 0x03 }
    else none

/-- Read at the agent (R195): a fenced die 0x9009, poison 0x9003, the counter window by aligned words, the aperture 0x200C,
a range without contents 0x1104. -/
def State.agentRead (s : State) (pa n : Nat) : Except Fail Bytes :=
  match s.agentFenced pa with
  | some e => .error e
  | none =>
  match s.paKind pa with
  | .region d o =>
    if o + n > s.regionSize d then .error { status := 0x1104, addr := BitVec.ofNat 64 pa }
    else if (linesOf pa n).any (s.poison.contains ·) then .error (s.poisonFail pa)
    else .ok (bytesAt s.mem pa n)
  | .counter k c =>
    if n = 8 ∧ pa % 8 = 0 then .ok (natLe (s.ctr k c).toNat 8)
    else .error { status := 0x1003, addr := BitVec.ofNat 64 pa }
  | .aperture _ => .error { status := 0x200C, addr := BitVec.ofNat 64 pa }
  | .hole => .error { status := 0x1104, addr := BitVec.ofNat 64 pa }

/-- Cut a write into pieces that lie in one `size`-byte line each; `fuel` bounds their number. -/
def cutLines (size : Nat) : Nat → Nat → Bytes → List (Nat × Bytes)
  | 0, _, _ => []
  | _, _, [] => []
  | fuel + 1, a, b =>
    let n := size - a % size
    (a, b.take n) :: cutLines size fuel (a + n) (b.drop n)

/-- The pieces of a write by 64-byte lines. -/
def linePieces (a : Nat) (b : Bytes) : List (Nat × Bytes) := cutLines 64 (b.length + 1) a b

/-- The pieces of a read by 64-byte lines: address and length. -/
def lineSpans (a n : Nat) : List (Nat × Nat) :=
  (linesOf a n).map fun l => (max a (64 * l), min (a + n) (64 * l + 64) - max a (64 * l))

/-- Write one piece within a line at the agent (R226): a whole line clears its poison, a part of a
poisoned line stores nothing and fails. -/
def State.agentWriteLine (s : State) (pa : Nat) (b : Bytes) : State × Option Fail :=
  let line := pa / 64
  if b.length = 64 ∧ pa % 64 = 0 then
    ({ s with mem := putBytes s.mem pa b, poison := s.poison.filter (· ≠ line) }, none)
  else if s.poison.contains line then (s, some (s.poisonFail pa))
  else ({ s with mem := putBytes s.mem pa b }, none)

/-- Whether a counter wait with target `t` is satisfied at value `v` (R235). -/
def ctrReached (v t : BitVec 48) : Bool := (v - t).toNat < 2 ^ 47

/-- After a change of a counter its registrations are tested (R236). -/
def State.testCounter (s : State) (k : StackId) (c : BitVec 12) : State :=
  { s with ctrWaits := s.ctrWaits.map fun w =>
      if w.stack = k ∧ w.ctr = c ∧ w.registered ∧ ctrReached (s.ctr k c) w.target then { w with met := true } else w }

/-- Set a counter and test its registrations (R234, R236). -/
def State.writeCounter (s : State) (k : StackId) (c : BitVec 12) (v : BitVec 48) : State :=
  (s.setCtr k c v).testCounter k c

/-- Write pieces one after another; the first failure is kept, the rest are still written (R226). -/
def State.agentWritePieces (s : State) : List (Nat × Bytes) → State × Option Fail
  | [] => (s, none)
  | (a, b) :: ps =>
    let (s1, e1) := s.agentWriteLine a b
    let (s2, e2) := s1.agentWritePieces ps
    (s2, e1 <|> e2)

/-- Write at the agent (R195, R226, R234): `kernel` marks a command of a kernel queue, which alone may
set a counter. An aperture write is an atomic request and is not served here (R230). -/
def State.agentWrite (s : State) (kernel : Bool) (pa : Nat) (b : Bytes) : State × Option Fail :=
  match s.agentFenced pa with
  | some e => (s, some e)
  | none =>
  match s.paKind pa with
  | .region d o =>
    if o + b.length > s.regionSize d then (s, some { status := 0x1104, addr := BitVec.ofNat 64 pa })
    else s.agentWritePieces (linePieces pa b)
  | .counter k c =>
    if b.length = 8 ∧ pa % 8 = 0 then
      if kernel then (s.writeCounter k c (BitVec.ofNat 48 (leNat b)), none)
      else (s, some { status := 0x1101, addr := BitVec.ofNat 64 pa })
    else (s, some { status := 0x1003, addr := BitVec.ofNat 64 pa })
  | .aperture _ => (s, some { status := 0x1003, addr := BitVec.ofNat 64 pa })
  | .hole => (s, some { status := 0x1104, addr := BitVec.ofNat 64 pa })

/-! ## Translation (R198 to R200) -/

/-- A translated page: where an address lies, and the permissions along the walk (R199). -/
structure Xlat where
  pa : Nat
  write : Bool
  atomic : Bool
  remote : Bool
  nocache : Bool
deriving DecidableEq, Repr

/-- Permissions collected so far. -/
structure Perms where
  write : Bool
  atomic : Bool
  remote : Bool
  nocache : Bool
deriving DecidableEq, Repr

/-- An entry whose reserved bits are zero and whose valid bit is set (R199). -/
def pteOk (e : Nat) : Bool := bit e 0 && bits e 63 42 = 0 && bits e 11 7 = 0 && !bit e 2

/-- Permissions after an entry: AND of write, atomic, remote; OR of nocache (R199). -/
def Perms.step (p : Perms) (e : Nat) : Perms :=
  ⟨p.write && bit e 3, p.atomic && bit e 4, p.remote && bit e 5, p.nocache || bit e 6⟩

def badEntry (va : Nat) : Fail := { status := 0x2001, addr := BitVec.ofNat 64 va }
def outsideExtent (va : Nat) : Fail := { status := 0x1104, addr := BitVec.ofNat 64 va }

/-- Bits of an address below a level's page: 1 GiB at level 1, 2 MiB at level 2 (R198). -/
def pageBits : Nat → Nat
  | 0 => 39
  | 1 => 30
  | _ => 21

/-- The walk from a table of one level; `n` levels follow it (R198, R200). -/
def State.walk (s : State) (p : PartId) (va : Nat) : Nat → Nat → Nat → Perms → Except Fail Xlat
  | 0, _, _, _ => .error (badEntry va)
  | n + 1, level, table, perms =>
    if !s.inExtent p table 4096 then .error (outsideExtent va)
    else
      match s.agentRead (table + 8 * (va / 2 ^ pageBits level % 512)) 8 with
      | .error e => .error e
      | .ok b =>
        let e := leNat b
        let addr := bits e 41 12 * 4096
        let pm := perms.step e
        if !pteOk e then .error (badEntry va)
        else if bit e 1 then
          if level = 0 ∨ addr % 2 ^ pageBits level ≠ 0 then .error (badEntry va)
          else if !s.inExtent p addr (2 ^ pageBits level) then .error (outsideExtent va)
          else .ok ⟨addr + va % 2 ^ pageBits level, pm.write, pm.atomic, pm.remote, pm.nocache⟩
        else if level = 2 then .error (badEntry va)
        else s.walk p va n (level + 1) addr pm

/-- Translate a device virtual address of a partition (R198). -/
def State.translate (s : State) (p : PartId) (va : Nat) : Except Fail Xlat :=
  if va ≥ 2 ^ 48 then .error (badEntry va)
  else
    match (s.part p).root with
    | none => .error (badEntry va)
    | some r => s.walk p va 3 0 r.toNat ⟨true, true, true, false⟩

/-- Translate for a write (R200). -/
def State.translateWrite (s : State) (p : PartId) (va : Nat) : Except Fail Xlat :=
  match s.translate p va with
  | .error e => .error e
  | .ok x => if x.write then .ok x else .error { status := 0x2002, addr := BitVec.ofNat 64 va }

/-- Physical pieces of a virtual range, page by page; the first failure is its error (R203, R254). -/
def State.rangePieces (s : State) (p : PartId) : Nat → Nat → Nat → Except Fail (List (Nat × Nat))
  | 0, _, _ => .ok []
  | fuel + 1, va, len =>
    if len = 0 then .ok []
    else
      let n := min len (2 * mib - va % (2 * mib))
      match s.translate p va with
      | .error e => .error e
      | .ok x =>
        match s.rangePieces p fuel (va + n) (len - n) with
        | .error e => .error e
        | .ok ps => .ok ((x.pa, n) :: ps)

/-- The physical pieces of a whole virtual range. -/
def State.rangeOf (s : State) (p : PartId) (va len : Nat) : Except Fail (List (Nat × Nat)) :=
  s.rangePieces p (len / (2 * mib) + 2) va len

/-! ## Die cache (R196, R197) -/

/-- Cache policies of R181. -/
inductive Policy where
  | allocate | noAllocate | bypass
deriving DecidableEq, Repr

def policyOf (n : Nat) : Option Policy :=
  match n with
  | 0 => some .allocate | 1 => some .noAllocate | 2 => some .bypass | _ => none

/-- Bits `a` to `a + n − 1` of a line. -/
def lineMask (a n : Nat) : BitVec 64 := BitVec.ofNat 64 ((2 ^ n - 1) * 2 ^ a)

def State.cline (s : State) (d : DieId) (line : Nat) : Option CLine := mapGet none (s.die d).cache line
def State.setCline (s : State) (d : DieId) (line : Nat) (l : Option CLine) : State :=
  s.updDie d fun x => { x with cache := mapPut none x.cache line l }

/-- Bytes of a line whose copy a read may take: dirty, or clean of the present generation (R210, R211). -/
def CLine.present (l : CLine) (gen : Nat) : BitVec 64 := l.dirty ||| (if l.gen = gen then l.valid else 0)

/-- The line with its clean bytes of an earlier generation taken as absent. -/
def CLine.refresh (l : CLine) (gen : Nat) : CLine :=
  { l with valid := if l.gen = gen then l.valid else 0, gen := gen }

def CLine.empty (gen : Nat) : CLine := ⟨[], 0, 0, gen⟩

/-- A line's copy merged over bytes from the agent, for the bytes in a mask. -/
def mergeLine (l : CLine) (mask : BitVec 64) (off : Nat) (b : Bytes) : Bytes :=
  b.mapIdx fun i x => if mask.getLsbD (off + i) then byteAt l.bytes (off + i) else x

/-- A read and a write that a die sends over the bridge to an agent. -/
def State.dieAgentRead (s : State) (d : DieId) (pa n : Nat) : Except Fail Bytes :=
  match s.bridgeFail d pa with
  | some e => .error e
  | none => s.agentRead pa n

def State.dieAgentWrite (s : State) (d : DieId) (kernel : Bool) (pa : Nat) (b : Bytes) : State × Option Fail :=
  match s.bridgeFail d pa with
  | some e => (s, some e)
  | none => s.agentWrite kernel pa b

/-- Fill a line from the agent: dirty bytes are merged over what the agent holds (R210). -/
def State.fillLine (s : State) (d : DieId) (line : Nat) : Except Fail State :=
  match s.dieAgentRead d (64 * line) 64 with
  | .error e => .error e
  | .ok b =>
    let l := (s.cline d line).getD (CLine.empty (s.die d).gen)
    let bytes := putBytes [] 0 (mergeLine l l.dirty 0 b)
    .ok (s.setCline d line (some ⟨bytes, l.dirty, BitVec.allOnes 64, (s.die d).gen⟩))

/-- A read within one line through a die's cache (R197). -/
def State.cacheReadLine (s : State) (d : DieId) (pol : Policy) (pa n : Nat) : State × Except Fail Bytes :=
  let off := pa % 64
  let need := lineMask off n
  let l := (s.cline d (pa / 64)).getD (CLine.empty (s.die d).gen)
  let have_ := l.present (s.die d).gen
  match s.paKind pa, pol with
  | .region _ _, .bypass =>
    if need &&& ~~~l.dirty = 0 then (s, .ok (bytesAt l.bytes off n))
    else (s, (s.dieAgentRead d pa n).map (mergeLine l l.dirty off))
  | .region _ _, p =>
    if need &&& ~~~have_ = 0 then (s, .ok (bytesAt l.bytes off n))
    else if p = .allocate then
      match s.fillLine d (pa / 64) with
      | .error e => (s, .error e)
      | .ok s1 => (s1, .ok (bytesAt ((s1.cline d (pa / 64)).getD (CLine.empty 0)).bytes off n))
    else (s, (s.dieAgentRead d pa n).map (mergeLine l have_ off))
  | _, _ => (s, s.dieAgentRead d pa n)

/-- A write within one line through a die's cache (R197). -/
def State.cacheWriteLine (s : State) (d : DieId) (kernel : Bool) (pol : Policy) (pa : Nat) (b : Bytes) :
    State × Option Fail :=
  let off := pa % 64
  let mask := lineMask off b.length
  match s.paKind pa, pol with
  | .region _ _, .allocate =>
    let l := ((s.cline d (pa / 64)).getD (CLine.empty (s.die d).gen)).refresh (s.die d).gen
    (s.setCline d (pa / 64) (some { l with bytes := putBytes l.bytes off b, dirty := l.dirty ||| mask }), none)
  | .region _ _, _ =>
    let (s1, e) := s.dieAgentWrite d kernel pa b
    match e, s1.cline d (pa / 64) with
    | none, some l =>
      let l := l.refresh (s1.die d).gen
      let held := (l.dirty ||| l.valid) &&& mask
      (s1.setCline d (pa / 64)
        (some { l with bytes := putBytes l.bytes off b, dirty := l.dirty &&& ~~~mask, valid := l.valid ||| held }), none)
    | _, _ => (s1, e)
  | _, _ => s.dieAgentWrite d kernel pa b

/-- Write back the dirty bytes of a line that a mask selects; they stay as clean copies (R196, R203). -/
def State.writeBackLine (s : State) (d : DieId) (line : Nat) (mask : BitVec 64) : State × Option Fail :=
  match s.cline d line with
  | none => (s, none)
  | some l =>
    let m := l.dirty &&& mask
    if m = 0 then (s, none)
    else if let some e := s.bridgeFail d (64 * line) <|> s.agentFenced (64 * line) then (s, some e)
    else if s.poison.contains line ∧ m ≠ BitVec.allOnes 64 then (s, some (s.poisonFail (64 * line)))
    else
      let mem := (upTo 64).foldl (fun a i => if m.getLsbD i then mapPut 0 a (64 * line + i) (byteAt l.bytes i) else a) s.mem
      let s1 := { s with mem := mem, poison := s.poison.filter (· ≠ line) }
      let v := if l.gen = (s.die d).gen then l.valid else 0
      (s1.setCline d line (some { l with dirty := l.dirty &&& ~~~m, valid := v ||| m, gen := (s.die d).gen }), none)

/-- The bytes of a line that lie in some piece of a range. -/
def maskIn (line : Nat) (ps : List (Nat × Nat)) : BitVec 64 :=
  ps.foldl (fun m p =>
    let a := max p.1 (64 * line)
    let e := min (p.1 + p.2) (64 * line + 64)
    if a < e then m ||| lineMask (a - 64 * line) (e - a) else m) 0

/-- Write back every dirty byte of a die's cache that lies in a range (R203, R206); the first failure. -/
def State.writeBackIn (s : State) (d : DieId) (ps : List (Nat × Nat)) : State × Option Fail :=
  (s.die d).cache.foldl (fun (a : State × Option Fail) (e : Nat × Option CLine) =>
    let (s1, f) := a.1.writeBackLine d e.1 (maskIn e.1 ps)
    (s1, a.2 <|> f)) (s, none)

/-- Write back every dirty byte of a die's cache. -/
def State.writeBackAll (s : State) (d : DieId) : State × Option Fail :=
  (s.die d).cache.foldl (fun (a : State × Option Fail) (e : Nat × Option CLine) =>
    let (s1, f) := a.1.writeBackLine d e.1 (BitVec.allOnes 64)
    (s1, a.2 <|> f)) (s, none)

/-- The line without its clean bytes in a mask; gone where it then holds nothing. -/
def CLine.dropClean (l : CLine) (mask : BitVec 64) : Option CLine :=
  let v := l.valid &&& ~~~mask
  if l.dirty = 0 ∧ v = 0 then none else some { l with valid := v }

/-- Drop the clean copies of a range (R206 inval, R211 range acquire). -/
def State.dropCleanIn (s : State) (d : DieId) (ps : List (Nat × Nat)) : State :=
  (s.die d).cache.foldl (fun a e =>
    match e.2 with
    | none => a
    | some l => a.setCline d e.1 (l.dropClean (maskIn e.1 ps))) s

/-- A whole-cache acquire on a die (R209, R211). -/
def State.acquireWhole (s : State) (d : DieId) : State :=
  s.updDie d fun x => { x with gen := x.gen + 1, clearing := true }

/-- Write back and drop a die's cache whole (R219); a byte that cannot be written back is lost. -/
def State.dropCache (s : State) (d : DieId) : State :=
  (s.writeBackAll d).1.updDie d fun x => { x with cache := [] }

/-- An acquire on every die of a partition, whole or over physical pieces (R209). -/
def State.acquirePart (s : State) (p : PartId) (ps : Option (List (Nat × Nat))) : State :=
  (s.partDies p).foldl (fun a d =>
    match ps with
    | none => a.acquireWhole d
    | some l => a.dropCleanIn d l) s

/-! ## Device accesses by virtual address -/

/-- Read device memory of a partition at the stack agent (front end, hubs, walker; R195). -/
def State.agentReadVa (s : State) (p : PartId) : List (Nat × Nat) → Except Fail Bytes
  | [] => .ok []
  | (va, n) :: r =>
    match s.translate p va with
    | .error e => .error e
    | .ok x =>
      match s.agentRead x.pa n, s.agentReadVa p r with
      | .ok b, .ok bs => .ok (b ++ bs)
      | .error e, _ => .error e
      | _, .error e => .error e

/-- `n` bytes of device memory from a virtual address, at the agent. -/
def State.vread (s : State) (p : PartId) (va n : Nat) : Except Fail Bytes := s.agentReadVa p (lineSpans va n)

/-- Write device memory of a partition at the stack agent, piece by piece; the first failure stops it. -/
def State.agentWriteVa (s : State) (p : PartId) (kernel : Bool) : List (Nat × Bytes) → State × Option Fail
  | [] => (s, none)
  | (va, b) :: r =>
    match s.translateWrite p va with
    | .error e => (s, some e)
    | .ok x =>
      match s.agentWrite kernel x.pa b with
      | (s1, none) => s1.agentWriteVa p kernel r
      | (s1, some e) => (s1, some e)

/-- Bytes written to device memory at a virtual address, at the agent. -/
def State.vwrite (s : State) (p : PartId) (kernel : Bool) (va : Nat) (b : Bytes) : State × Option Fail :=
  s.agentWriteVa p kernel (linePieces va b)

/-- A tile's or DMA engine's read of device memory through its die's cache, piece by piece. -/
def State.dieReadVa (s : State) (d : DieId) (p : PartId) (pol : Policy) : List (Nat × Nat) → State × Except Fail Bytes
  | [] => (s, .ok [])
  | (va, n) :: r =>
    match s.translate p va with
    | .error e => (s, .error e)
    | .ok x =>
      match s.cacheReadLine d (if x.nocache then .bypass else pol) x.pa n with
      | (s1, .error e) => (s1, .error e)
      | (s1, .ok b) =>
        match s1.dieReadVa d p pol r with
        | (s2, .ok bs) => (s2, .ok (b ++ bs))
        | (s2, .error e) => (s2, .error e)

/-- A tile's or DMA engine's write of device memory through its die's cache, piece by piece. -/
def State.dieWriteVa (s : State) (d : DieId) (p : PartId) (kernel : Bool) (pol : Policy) :
    List (Nat × Bytes) → State × Option Fail
  | [] => (s, none)
  | (va, b) :: r =>
    match s.translateWrite p va with
    | .error e => (s, some e)
    | .ok x =>
      match s.cacheWriteLine d kernel (if x.nocache then .bypass else pol) x.pa b with
      | (s1, none) => s1.dieWriteVa d p kernel pol r
      | (s1, some e) => (s1, some e)

def State.dieRead (s : State) (d : DieId) (p : PartId) (pol : Policy) (va n : Nat) : State × Except Fail Bytes :=
  s.dieReadVa d p pol (lineSpans va n)

def State.dieWrite (s : State) (d : DieId) (p : PartId) (kernel : Bool) (pol : Policy) (va : Nat) (b : Bytes) :
    State × Option Fail :=
  s.dieWriteVa d p kernel pol (linePieces va b)

/-! ## Host memory (R217, R273, R274) -/

/-- Whether the host's ATS translates an address now; untranslated addresses pass (R274). -/
def State.ats (s : State) (a : Nat) : Bool × State :=
  if s.atsOn then (Config.atsTranslates s.fresh a, { s with fresh := s.fresh + 1 }) else (true, s)

def State.hostRead (s : State) (a n : Nat) : State × Except Fail Bytes :=
  let (ok, s1) := s.ats a
  if ok then (s1, .ok (bytesAt s1.host a n)) else (s1, .error { status := 0x200A, addr := BitVec.ofNat 64 a })

def State.hostWrite (s : State) (a : Nat) (b : Bytes) : State × Option Fail :=
  let (ok, s1) := s.ats a
  if ok then ({ s1 with host := putBytes s1.host a b }, none)
  else (s1, some { status := 0x200A, addr := BitVec.ofNat 64 a })

end Sys2Proof.Machine
end

