-- ==== Sys2Proof/Machine/Report.lean ====
section
/-! DEFINITION. Reports: MSI-X vectors, kernel event causes, event and fault rings, fault records, event
records, trace records, performance and error counters (R297 to R300, R409 to R411, R505 to R515). -/

namespace Sys2Proof.Machine

/-! ## Vectors (R297, R298) -/

/-- Entries of a function's MSI-X table (R281). -/
def msixEntries (f : FnId) : Nat := if f.val = 0 then 1024 else 128

/-- Raise an entry's vector: sent, or pending where the entry is masked (R298). -/
def State.raiseVector (s : State) (f : FnId) (e : Nat) : State :=
  let x := mapGet {} (s.fn f).msix e
  if x.ctl.getLsbD 0 then s.updFn f fun y => { y with msix := mapPut {} y.msix e { x with pending := true } }
  else { s with msixSent := s.msixSent ++ [⟨f, e⟩] }

/-- The function and table entry of a module-wide vector number (R297). -/
def vectorEntry (v : Nat) : Option (FnId × Nat) :=
  if v < 1024 then some (0, v)
  else if h : v < 2048 then some (⟨(v - 1024) / 128 + 1, by omega⟩, (v - 1024) % 128)
  else none

/-- Set a KEV_CAUSE bit; entry 1 is sent when it becomes set while unmasked (R298, R300). -/
def State.setCause (s : State) (f : FnId) (i : Nat) : State :=
  let x := s.fn f
  let s1 := s.setFn f { x with kevCause := x.kevCause ||| BitVec.ofNat 8 (2 ^ i) }
  if x.kevCause.getLsbD i || x.kevMask.getLsbD i then s1 else s1.raiseVector f 1

/-- Set a cause bit in the physical function and in a partition's virtual function. -/
def State.causeBoth (s : State) (p : Option PartId) (i : Nat) : State :=
  let s1 := s.setCause 0 i
  match p with
  | none => s1
  | some q => s1.setCause (vfOf q) i

/-! ## Rings (R299) -/

def Ring.sizeLog2 (r : Ring) : Nat := r.cfg.toNat % 32
def Ring.enabled (r : Ring) : Bool := r.cfg.getLsbD 8

/-- Write bytes at a ring's reach address: space 0x2 is physical for the physical function (which has
no partition, notes/assumptions/24.md) and virtual for a virtual one; space 0x4 is host memory. -/
def State.ringWrite (s : State) (f : FnId) (a : Nat) (b : Bytes) : State × Option Fail :=
  match a / 2 ^ 60, partOfFn f with
  | 2, none => s.agentWrite false (a % 2 ^ 48) b
  | 2, some p => s.vwrite p false (a % 2 ^ 48) b
  | 4, _ => s.hostWrite (a % 2 ^ 57) b
  | _, _ => (s, some { status := 0x1003 })

def State.ringOf (s : State) (f : FnId) (k : RingId) : Ring :=
  match k with
  | .event => (s.fn f).evr
  | .fault => (s.fn f).flt

def State.setRing (s : State) (f : FnId) (k : RingId) (r : Ring) : State :=
  s.updFn f fun x => match k with
    | .event => { x with evr := r }
    | .fault => { x with flt := r }

/-- A dropped record: the ring's overrun and the ring_overrun cause (R299, R300). -/
def State.ringDrop (s : State) (f : FnId) (k : RingId) : State :=
  (s.setRing f k { s.ringOf f k with cfg := (s.ringOf f k).cfg ||| 0x200 }).setCause f 6

/-- Write records into consecutive slots. -/
def State.ringWriteAll (s : State) (f : FnId) (r : Ring) : Nat → List Bytes → State × Option Fail
  | _, [] => (s, none)
  | i, b :: bs =>
    match s.ringWrite f (r.base.toNat + 64 * ((r.prod.toNat + i) % 2 ^ r.sizeLog2)) b with
    | (s1, none) => s1.ringWriteAll f r (i + 1) bs
    | (s1, some e) => (s1, some e)

/-- Put records that stand together into a ring, all or none (R299, R410); cause bit 0 for the fault
ring, 1 for the event ring. -/
def State.ringPut (s : State) (f : FnId) (k : RingId) (recs : List Bytes) : State :=
  let r := s.ringOf f k
  if !r.enabled then s
  else if (r.prod - r.cons).toNat + recs.length > 2 ^ r.sizeLog2 then s.ringDrop f k
  else
    match s.ringWriteAll f r 0 recs with
    | (s1, some _) => s1.ringDrop f k
    | (s1, none) =>
      (s1.setRing f k { r with prod := r.prod + BitVec.ofNat 32 recs.length }).setCause f
        (match k with | .fault => 0 | .event => 1)

/-! ## Sources (R505, R506) -/

def srcQueue (q : QueueId) : BitVec 16 := BitVec.ofNat 16 q.val
def srcTile (t : TileId) : BitVec 16 := BitVec.ofNat 16 (0x1000 + t.val)
def srcDie (d : DieId) : BitVec 16 := BitVec.ofNat 16 (0x2000 + d.val)
def srcStack (k : StackId) : BitVec 16 := BitVec.ofNat 16 (0x3000 + k.val)
def srcPort (p : PortId) : BitVec 16 := BitVec.ofNat 16 (0x4000 + p.val)
def srcLink (l : Fin 6) : BitVec 16 := BitVec.ofNat 16 (0x5000 + l.val)
/-- Hub functions: 0 firmware, 1 capo module loop, 2 to 9 command processors, 10 security engine,
11 always-on logic. -/
def srcHub (i : Nat) : BitVec 16 := BitVec.ofNat 16 (0x6000 + i)
def srcPart (p : PartId) : BitVec 16 := BitVec.ofNat 16 (0x7000 + p.val)

/-- Take the next number of a source's event and fault stream (R506). -/
def State.nextSrcSeq (s : State) (src : BitVec 16) : BitVec 32 × State :=
  let n := mapGet 0 s.tel.evSeq src.toNat
  (n, { s with tel := { s.tel with evSeq := mapPut 0 s.tel.evSeq src.toNat (n + 1) } })

/-! ## Fault records (R409 to R411) -/

/-- The fault number after one (R409). -/
def nextFaultNo (n : BitVec 24) : BitVec 24 := if n + 1 = 0 then 1 else n + 1

/-- The header's 64 bytes (R410). -/
def FaultRec.bytes (r : FaultRec) (no : BitVec 24) (stamp : Word) (sseq : BitVec 32) : Bytes :=
  natLe (packBits [
    (24, no.toNat), (8, r.kind.toNat), (16, r.status.toNat), (8, r.engine.toNat), (1, bnat r.masked),
    (1, bnat r.detail.isSome), (6, 0), (32, r.context.toNat), (32, r.seq.toNat), (64, stamp.toNat),
    (16, r.src.toNat), (16, 0), (32, sseq.toNat), (7, (r.tile.map Fin.val).getD 0x7F), (1, 0),
    (5, (r.die.map Fin.val).getD 0x1F), (5, (r.stack.map Fin.val).getD 0x1F),
    (6, (r.port.map Fin.val).getD 0x3F), (8, r.mech.toNat), (64, r.addr.toNat), (64, r.aux.toNat),
    (32, r.count.toNat), (64, 0)]) 64

/-- Write a fault record (R409): to the physical function's fault ring, and to that of the partition it
names, under one fault number. Answers the number. -/
def State.recordFault (s : State) (r : FaultRec) : BitVec 24 × State :=
  let no := s.flt.nextNo
  let (sseq, s1) := s.nextSrcSeq r.src
  let s2 := { s1 with flt := { s1.flt with nextNo := nextFaultNo no } }
  let recs := r.bytes no s.stamp sseq :: (match r.detail with | some d => [d] | none => [])
  let s3 := s2.ringPut 0 .fault recs
  (no, match r.part with
    | none => s3
    | some p => s3.ringPut (vfOf p) .fault recs)

/-- The context identifier of a queue (R411). -/
def State.contextId (s : State) (q : QueueId) : BitVec 32 :=
  let x := s.queue q
  BitVec.ofNat 32 (packBits [(12, q.val), (3, (x.cfg.map fun c => c.partition.val).getD 0), (1, 1), (16, x.gen.toNat)])

/-! ## Event records (R509) -/

/-- Write an event record, unless its source wrote one of the same code within 1 ms (R509). -/
def State.event (s : State) (src : BitVec 16) (code : Byte) (data : Nat) (part : Option PartId := none) : State :=
  let key := 65536 * code.toNat + src.toNat
  match mapGet none s.tel.evAt key with
  | some t => if s.time < t + 1000000 then s else go key
  | none => go key
where
  go (key : Nat) : State :=
    let (sseq, s1) := s.nextSrcSeq src
    let s2 := { s1 with tel := { s1.tel with evAt := mapPut none s1.tel.evAt key (some s.time) } }
    let b := natLe (packBits [
      (64, s.stamp.toNat), (16, src.toNat), (8, code.toNat), (8, 0), (32, sseq.toNat),
      (3, (part.map Fin.val).getD 0), (1, bnat part.isSome), (28, 0), (352, data)]) 64
    let s3 := s2.ringPut 0 .event [b]
    match part with
    | none => s3
    | some p => s3.ringPut (vfOf p) .event [b]

/-! ## Counters (R510, R511) -/

/-- Add to a performance counter: it wraps at 48 bits, sets ovf, and raises event 0x01 where enabled. -/
def State.perfAdd (s : State) (src : BitVec 16) (idx n : Nat) : State :=
  let key := 65536 * idx + src.toNat
  let old := mapGet 0 s.tel.perf key
  let v := old.toNat % 2 ^ 48 + n
  let wrapped := 2 ^ 48 ≤ v
  let new := BitVec.ofNat 49 (v % 2 ^ 48 + 2 ^ 48 * bnat (old.getLsbD 48 || wrapped))
  let s1 := { s with tel := { s.tel with perf := mapPut 0 s.tel.perf key new } }
  if wrapped && s.tel.trace.ovfEvent then s1.event src 0x01 idx else s1

/-- Add one to an error counter: it sticks at 0xFFFF_FFFF and sets its flag. -/
def State.errAdd (s : State) (src : BitVec 16) (idx : Nat) : State :=
  let key := 65536 * idx + src.toNat
  let old := mapGet 0 s.tel.err key
  let v := old.toNat % 2 ^ 32
  let new : BitVec 33 := if v + 1 ≥ 2 ^ 32 - 1 then 0x1FFFFFFFF else BitVec.ofNat 33 (v + 1) ||| (old &&& 0x100000000)
  { s with tel := { s.tel with err := mapPut 0 s.tel.err key new } }

/-! ## Masked errors (R411) -/

/-- Write the record of a source's masked errors and start its next millisecond. -/
def State.maskedRecord (s : State) (r : FaultRec) (n : Nat) (others : List MaskedRun) : State :=
  ({ s with flt := { s.flt with masked := ⟨r, s.time, 0⟩ :: others } }.recordFault
    { r with masked := true, kind := 0x02, count := BitVec.ofNat 32 (min n (2 ^ 32 - 1)) }).2

/-- A masked error: one record per source and mechanism in 1 ms, with the count since the last. -/
def State.maskedError (s : State) (r : FaultRec) : State :=
  let others := s.flt.masked.filter fun m => !(m.last.src = r.src && m.last.mech = r.mech)
  match s.flt.masked.find? (fun m => m.last.src = r.src && m.last.mech = r.mech) with
  | some m =>
    if s.time < m.since + 1000000 then { s with flt := { s.flt with masked := ⟨r, m.since, m.count + 1⟩ :: others } }
    else s.maskedRecord r (m.count + 1) others
  | none => s.maskedRecord r 1 others

/-- A millisecond after a source's record, what it has masked since has its record (R402, R411). -/
def State.maskedDue (s : State) : State :=
  match s.flt.masked.find? (fun m => m.count ≠ 0 && m.since + 1000000 ≤ s.time) with
  | none => s
  | some m => s.maskedRecord m.last m.count (s.flt.masked.filter fun o => !(o.last.src = m.last.src && o.last.mech = m.last.mech))

/-! ## Crossing queues (R34 to R42) -/

def State.xq (s : State) (i : Nat) : XQueue := mapGet {} s.xqs i
def State.setXq (s : State) (i : Nat) (x : XQueue) : State := { s with xqs := mapPut {} s.xqs i x }

/-- Crossing queue numbers: the trace FIFO of each logic die, then the event ring's. -/
def traceXq (f : LogicDie) : Nat := f.val
def eventXq : Nat := 20

/-- One 8-byte write (R34, R35, R38): packed into the read word being filled, which becomes readable at
64 bytes or at the end of a transfer; a write to a full queue is ignored and sets overrun. -/
def XQueue.write (x : XQueue) (b : Bytes) (last : Bool) : XQueue :=
  if x.words.length ≥ 16 then { x with overrun := true }
  else
    let p := x.pack ++ b.take 8
    if p.length ≥ 64 || last then { x with words := x.words ++ [(slice p 0 64, p.length)], pack := [] }
    else { x with pack := p }

/-- A transfer of whole 8-byte writes, the last marked as its end (R513). -/
def XQueue.transfer (x : XQueue) : Nat → Bytes → XQueue
  | 0, _ => x
  | n + 1, b => (x.write (b.take 8) (b.length ≤ 8)).transfer n (b.drop 8)

/-- Reset on a pointer mismatch: contents lost, overrun kept, mismatches counted (R39, R41). -/
def XQueue.mismatch (x : XQueue) : XQueue :=
  let n := x.mismatches.toNat + 1
  { words := [], pack := [], overrun := x.overrun
    mismatches := BitVec.ofNat 32 (min n (2 ^ 32 - 1)), countSat := x.countSat || n ≥ 2 ^ 32 - 1 }

/-- Reset with its domain: contents lost, the rest kept (R41, R42). -/
def XQueue.emptied (x : XQueue) : XQueue := { x with words := [], pack := [] }
def State.emptyXq (s : State) (i : Nat) : State := s.setXq i (s.xq i).emptied

/-- The status word (R41). -/
def XQueue.status (x : XQueue) : BitVec 64 :=
  BitVec.ofNat 64 (packBits [(1, bnat x.words.isEmpty), (1, bnat (x.words.length ≥ 16)), (1, bnat x.overrun), (3, 0),
    (5, x.words.length), (5, 0), (1, bnat x.countSat), (15, 0), (32, x.mismatches.toNat)])

/-! ## Trace (R513 to R515) -/

/-- The logic die whose FIFO takes a source's records: a queue's is the hub of its command processor, four
to each hub; other hub sources use hub 0 (DEDUCED, notes/assumptions/25.md). -/
def traceFifo (src : BitVec 16) : LogicDie :=
  let i := src.toNat % 4096
  match src.toNat / 4096 with
  | 1 => logicOfDie ⟨i / 8 % 12, Nat.mod_lt _ (by decide)⟩
  | 2 => logicOfDie ⟨i % 12, Nat.mod_lt _ (by decide)⟩
  | 3 => logicOfDie ⟨i / 2 % 12, Nat.mod_lt _ (by decide)⟩
  | 4 => logicOfLink ⟨i / 6 % 6, Nat.mod_lt _ (by decide)⟩
  | 5 => logicOfLink ⟨i % 6, Nat.mod_lt _ (by decide)⟩
  | 0 => if i % 8 < 4 then logicOfHub 0 else logicOfHub 1
  | _ => logicOfHub 0

/-- Put a trace record into its FIFO, where the trace takes its class and kind (R514, R515). The phase
bit is the mover's. -/
def State.trace (s : State) (src : BitVec 16) (kind : Nat) (data : Nat) : State :=
  let c := s.tel.trace
  if c.enable && c.classes.getLsbD (src.toNat / 4096) && c.kinds.getLsbD kind then
    let n := mapGet 0 s.tel.trSeq src.toNat
    let s1 := { s with tel := { s.tel with trSeq := mapPut 0 s.tel.trSeq src.toNat (n + 1) } }
    let b := natLe (packBits [(64, s.stamp.toNat), (16, src.toNat), (8, kind), (8, 0), (32, n.toNat), (128, data)]) 32
    let i := traceXq (traceFifo src)
    s1.setXq i ((s1.xq i).transfer 4 b)
  else s

end Sys2Proof.Machine
end

