-- ==== Sys2Proof/Machine/FabricOps.lean ====
section
/-! DEFINITION. The fabric's shared operations: packets, routing, ports and their credits, and the windows of
reliable delivery (R306 to R320, R325). -/

namespace Sys2Proof.Machine

/-! ## Packets (R315) -/

abbrev ptWrite : BitVec 5 := 0x00
abbrev ptAck : BitVec 5 := 0x01
abbrev ptReadReq : BitVec 5 := 0x02
abbrev ptReadData : BitVec 5 := 0x03
abbrev ptRefusal : BitVec 5 := 0x04
abbrev ptCollData : BitVec 5 := 0x08
abbrev ptCollCtl : BitVec 5 := 0x09

/-- The header's bits below the crc, ttl and cls taken as zero (R315). -/
def packetHeader (k : Packet) : Nat :=
  packBits [(14, k.dst.toNat), (2, 0), (14, k.src.toNat), (2, 0), (3, k.vc.toNat), (5, k.type.toNat), (13, k.len.toNat),
    (4, 0), (7, 0), (24, k.seq.toNat), (16, k.tag.toNat), (2, k.tries.toNat), (3, k.srcPart.toNat), (19, 0),
    (46, k.addr.toNat), (18, 0), (17, k.ctr.toNat), (1, bnat k.ctrValid), (1, 0), (13, 0)]

def packetCrc (k : Packet) : BitVec 32 := crc32c (natLe (packetHeader k) 28 ++ k.data)

/-- The packet with its crc set. -/
def sealPacket (k : Packet) : Packet := { k with crc := packetCrc k }

/-- A new packet of this module. -/
def State.newPacket (s : State) (dst : BitVec 14) (vc : BitVec 3) (type : BitVec 5) (part : PartId) (data : Bytes) : Packet :=
  { dst := dst, src := s.fab.modId, vc := vc, type := type, len := BitVec.ofNat 13 data.length, ttl := 64, seq := 0, tag := 0
    tries := 0, srcPart := BitVec.ofNat 3 part.val, addr := 0, ctr := 0, ctrValid := false, cls := false, crc := 0, data := data }

/-- Flits that a packet takes: its header and data, rounded up (section "Packets"). -/
def packetFlits (k : Packet) : Nat := (32 + (k.data.length + 31) / 32 * 32 + 255) / 256

/-! ## Ports (R308, R310, R314) -/

def Port.up (p : Port) : Bool := p.state = 2 || p.state = 3
def Port.carries (p : Port) : Bool := p.up && p.inRoutes

/-- Active ports: the licence's 12, 24 or 36 lowest (R308). -/
def State.activePorts (s : State) : Nat := s.boot.portsInForce.toNat
def State.licensedPort (s : State) (p : PortId) : Bool := p.val < s.activePorts

/-- Flits of receive buffer per class of a channel (R314). -/
def vcBuffer (vc : Nat) : Nat :=
  match vc with
  | 0 | 1 | 2 => 64
  | 3 => 16
  | _ => 4

/-- Flits wait for credits of their channel and class, then leave (R314). -/
def Port.drain (p : Port) (key : Nat) : Port × Nat :=
  let q := mapGet 0 p.queued key
  let n := min q (vcBuffer (key / 2) - mapGet 0 p.spent key)
  ({ p with queued := mapPut 0 p.queued key (q - n), spent := mapPut 0 p.spent key (mapGet 0 p.spent key + n)
            txSeq := p.txSeq + BitVec.ofNat 12 n }, n)

/-- Flits queued at a port. -/
def Port.waiting (p : Port) : Nat := p.queued.foldl (fun a e => a + e.2) 0

/-- Flits enter a port and leave as credits allow. -/
def State.sendFlits (s : State) (p : PortId) (key n : Nat) : State :=
  let x := s.port p
  let (y, m) := { x with queued := mapPut 0 x.queued key (mapGet 0 x.queued key + n) }.drain key
  (s.setPort p y).perfAdd (srcPort p) 0x00 m

def State.emit (s : State) (o : Sent) : State := { s with fab := { s.fab with out := s.fab.out ++ [o] } }

/-- A port takes a packet. -/
def State.sendOn (s : State) (p : PortId) (k : Packet) : State :=
  (s.sendFlits p (2 * k.vc.toNat + bnat k.cls) (packetFlits k)).emit (.packet (some p) k)

/-- A port goes down (R310, R312, R328): its unacknowledged flits are dropped. -/
def Port.goDown (p : Port) (now : Nat) : Port :=
  { p with state := 4, inRoutes := false, txAck := p.txSeq, nackPending := false, replays := 0, spent := [], queued := []
           peerValid := false, holds := [], attemptAt := now
           downs := if p.up then (if p.downs = 0xFFFF then p.downs else p.downs + 1) else p.downs }

/-! ## Routing (R318 to R320) -/

/-- The routing table's entry for a module (R320); an unlisted entry is 7. -/
def State.routeOf (s : State) (m : BitVec 14) : Nat := (mapGet 7 s.fab.table m.toNat).toNat % 8

/-- The eligible ports of a direction. -/
def State.eligible (s : State) (dir : Nat) : List PortId :=
  allPorts.filter fun p => p.val % 6 = dir && s.licensedPort p && (s.port p).carries

/-- The one with the fewest queued flits, the lower number first (R320). -/
def State.leastQueued (s : State) : List PortId → Option PortId
  | [] => none
  | p :: ps =>
    match s.leastQueued ps with
    | none => some p
    | some q => if (s.port q).waiting < (s.port p).waiting then some q else some p

/-- The port by which a packet leaves, or the refusal's reason (R317, R320). -/
def State.outPort (s : State) (inPort : Option PortId) (m : BitVec 14) : Except (BitVec 8) PortId :=
  let dir := s.routeOf m
  if 6 ≤ dir then .error 0x01
  else
    let es := s.eligible dir
    match inPort.bind (fun q => es.find? fun p => portLink p = portLink q) with
    | some p => .ok p
    | none =>
      match s.leastQueued es with
      | some p => .ok p
      | none => .error 0x02

/-- The port that a strand's data packets leave by, where it is eligible (R341): the group of the strand, the ring's
dimension and direction; a packet that goes straight to its member takes its routed direction. -/
def State.pinned (s : State) (k : Packet) : Option PortId :=
  if k.type ≠ ptCollData then none
  else
    match s.colls.find? fun c => c.idsMatch k with
    | none => none
    | some c =>
      let strand := bits k.addr.toNat 3 0
      let dim := bits k.addr.toNat 5 4
      let g := strand / 2 % (max 1 (s.activePorts / 6))
      let dir := if dim < 3 then 2 * dim + bnat (!c.plus (!bit k.addr.toNat 6) strand) else s.routeOf k.dst
      if c.tree || 6 ≤ dir then none
      else (PortId.ofNat? (6 * g + dir)).filter fun p => s.licensedPort p && (s.port p).carries

/-- The coordinate of a module along a dimension (R318). -/
def coordOf (m : BitVec 14) (dim : Nat) : Nat :=
  match dim with
  | 0 => bits m.toNat 4 0
  | 1 => bits m.toNat 9 5
  | _ => bits m.toNat 13 10

/-- The size of a dimension under the plan in force. -/
def Plan.size (p : Plan) (dim : Nat) : Nat :=
  match dim with
  | 0 => p.sx.toNat + 1
  | 1 => p.sy.toNat + 1
  | _ => p.sz.toNat + 1

/-- Whether the link out of this module in a direction is the dimension's dateline (R319). -/
def State.dateline (s : State) (dir : Nat) : Bool :=
  match s.fab.plan with
  | none => false
  | some p =>
    let c := coordOf s.fab.modId (dir / 2)
    if dir % 2 = 0 then c + 1 = p.size (dir / 2) else c = 0

/-- The class of a packet on the port it leaves by: the lower on entering a dimension, the upper past its
dateline (R319). -/
def State.classOn (s : State) (inPort : Option PortId) (out : PortId) (cls : Bool) : Bool :=
  let same := inPort.any fun q => q.val % 6 / 2 = out.val % 6 / 2
  (same && cls) || s.dateline (out.val % 6)

/-- Send a packet of this module, or one that passes through: the port it took, or the refusal's reason. -/
def State.route (s : State) (inPort : Option PortId) (k : Packet) : State × Except (BitVec 8) PortId :=
  let pin := if inPort.isNone then s.pinned k else none
  match pin.elim (s.outPort inPort k.dst) Except.ok with
  | .error r => (s, .error r)
  | .ok p => (s.sendOn p { k with cls := s.classOn inPort p k.cls }, .ok p)

/-- Send an answer: a packet to this module itself needs no port (R318). -/
def State.answer (s : State) (k : Packet) : State :=
  if k.dst = s.fab.modId then s.emit (.packet none (sealPacket k)) else (s.route none (sealPacket k)).1

/-- A refusal of a packet with a reason (R317). -/
def State.refuse (s : State) (k : Packet) (reason : BitVec 8) : State :=
  s.answer { s.newPacket k.src 1 ptRefusal (PartId.ofNat k.srcPart.toNat) [] with
    seq := k.seq, tag := k.tag, addr := reason.setWidth 46 }

/-! ## Windows of a source (R316) -/

def State.txWin? (s : State) (dst : BitVec 14) (vc : BitVec 3) : Option TxWin :=
  s.fab.tx.find? fun w => w.dst = dst && w.vc = vc

/-- The source's window, new where none exists: a new one is not yet synchronised. -/
def State.txWin (s : State) (dst : BitVec 14) (vc : BitVec 3) : TxWin :=
  (s.txWin? dst vc).getD ⟨dst, vc, 0, [], [], none, false⟩

def State.setTxWin (s : State) (w : TxWin) : State :=
  let l := match s.fab.tx.findIdx? (fun x => x.dst = w.dst && x.vc = w.vc) with
    | some i => s.fab.tx.set i w
    | none => s.fab.tx ++ [w]
  { s with fab := { s.fab with tx := l } }

/-- Transmit a packet by the routes in force; where no port takes it, its timer sends it again (R316). -/
def State.transmit (s : State) (k : Packet) : State :=
  if k.dst = s.fab.modId then s.emit (.packet none (sealPacket k)) else (s.route none (sealPacket k)).1

/-- Send a resynchronisation (R316). -/
def State.resync (s : State) (w : TxWin) (base : BitVec 24) : State :=
  (s.setTxWin { w with resync := some (base, s.time) }).emit (.resync w.dst w.vc base)

/-- The tag of a packet: its channel and the low bits of its number. -/
def tagOf (vc : BitVec 3) (seq : BitVec 24) : BitVec 16 := BitVec.ofNat 16 (seq.toNat % 2 ^ 15 + bnat (vc = 2) * 2 ^ 15)

/-- Packets wait where the window is full or not yet synchronised; otherwise they are sent (R316). -/
def State.pumpWindow (s : State) (dst : BitVec 14) (vc : BitVec 3) : Nat → State
  | 0 => s
  | n + 1 =>
    let w := s.txWin dst vc
    match w.waiting with
    | [] => s
    | u :: us =>
      if !w.synced ∨ w.resync.isSome ∨ w.unacked.length ≥ 1024 then s
      else
        let u1 := { u with firstSent := s.time, lastSent := s.time, interval := 50000 }
        ((s.setTxWin { w with waiting := us, unacked := w.unacked ++ [u1] }).transmit u1.pkt).pumpWindow dst vc n

/-- Hand a packet to reliable delivery (R316, R317, R325): a link status where there is no plan, the
destination is unreachable, or a resynchronisation after an abandonment is pending. -/
def State.sendReliable (s : State) (k : Packet) (seg : Option SegRef) : State × Option (BitVec 16) :=
  if s.fab.plan.isNone then (s, some 0x5003)
  else if k.dst ≠ s.fab.modId ∧ s.routeOf k.dst = 7 then (s, some 0x5001)
  else
    let w := s.txWin k.dst k.vc
    if w.synced ∧ w.resync.isSome then (s, some 0x5003)
    else
      let k1 := { k with seq := w.next, tag := tagOf k.vc w.next }
      let u : Unacked := ⟨k1, s.time, s.time, 50000, if k.type = ptReadReq then k.len.toNat else 0, seg⟩
      let w1 := { w with next := w.next + 1, waiting := w.waiting ++ [u] }
      let s1 := if w.synced ∨ w.resync.isSome then s.setTxWin w1 else s.resync w1 w.next
      (s1.pumpWindow k.dst k.vc 1, none)

/-! ## Windows of a destination (R316) -/

/-- What a window makes of a packet's number. -/
inductive Seen where
  | noWindow | duplicate | beyond | fresh
deriving DecidableEq, Repr

def State.rxWin? (s : State) (src : BitVec 14) (vc : BitVec 3) : Option RxWin :=
  s.fab.rx.find? fun w => w.src = src && w.vc = vc

def State.setRxWin (s : State) (w : RxWin) : State :=
  let l := match s.fab.rx.findIdx? (fun x => x.src = w.src && x.vc = w.vc) with
    | some i => s.fab.rx.set i w
    | none => s.fab.rx ++ [w]
  { s with fab := { s.fab with rx := l } }

/-- The destination's test of a number by serial arithmetic. -/
def State.seen (s : State) (src : BitVec 14) (vc : BitVec 3) (seq : BitVec 24) : Seen :=
  match s.rxWin? src vc with
  | none => .noWindow
  | some w =>
    let d := (seq - w.low).toNat
    if d ≥ 2 ^ 23 ∨ w.got.contains seq then .duplicate
    else if d ≥ 1024 then .beyond
    else .fresh

/-- The lowest number not yet received moves past every received one. -/
def RxWin.settle (w : RxWin) : Nat → RxWin
  | 0 => w
  | n + 1 => if w.got.contains w.low then { w with low := w.low + 1, got := w.got.filter (· ≠ w.low) }.settle n else w

/-- A number is received. -/
def State.markSeen (s : State) (src : BitVec 14) (vc : BitVec 3) (seq : BitVec 24) : State :=
  match s.rxWin? src vc with
  | none => s
  | some w => s.setRxWin ({ w with got := seq :: w.got }.settle 1025)

end Sys2Proof.Machine
end

