-- ==== Sys2Proof/Machine/CollNet.lean ====
section
/-! DEFINITION. Collective packets: the prefix, control packets and their contents, abort reports and how they spread
(R343, R344, R350, R351; layouts the manual does not give, notes/assumptions/42.md). -/

namespace Sys2Proof.Machine

/-! ## Packets (R343) -/

/-- The 16-byte prefix of a collective's packets. -/
def Coll.prefix (k : Coll) : Bytes := natLe k.commId.toNat 4 ++ natLe k.cseq.toNat 4 ++ List.replicate 8 0

/-- The address field: strand, dimension, pass, offset. -/
def collAddr (strand dim : Nat) (pass : Bool) (off : Nat) : BitVec 46 :=
  BitVec.ofNat 46 (packBits [(4, strand), (2, dim), (1, bnat pass), (1, 0), (38, off)])

/-- Send a collective packet to a member; a link status where it cannot be sent. -/
def State.collSend (s : State) (k : Coll) (peer : Nat) (type : BitVec 5) (addr : BitVec 46) (body : Bytes) :
    State × Option (BitVec 16) :=
  match k.members[peer]? with
  | none => (s, some 0x5001)
  | some m => s.sendReliable { s.newPacket m.1 2 type k.part (k.prefix ++ body) with addr := addr } none

/-- Kinds of control packets. -/
abbrev ckOpening : Byte := 0x01
abbrev ckClosing : Byte := 0x02
abbrev ckCredit : Byte := 0x03
abbrev ckAbort : Byte := 0x04
abbrev ckDamp : Byte := 0x05
abbrev ckUndamp : Byte := 0x06

/-- Send a control packet. -/
def State.collCtl (s : State) (k : Coll) (peer : Nat) (kind : Byte) (dim : Nat) (pass : Bool) (body : Bytes) :
    State × Option (BitVec 16) :=
  s.collSend k peer ptCollCtl (collAddr 0xF dim pass 0) (kind :: body)

/-- The kind of a control packet and its contents. -/
def ctlKind (p : Packet) : Byte := BitVec.ofNat 8 (leNat (slice p.data 16 1))
def ctlBody (p : Packet) : Bytes := p.data.drop 17
def ctlDim (p : Packet) : Nat := bits p.addr.toNat 5 4

/-! ## Abort reports (R350) -/

def AbortReport.bytes (r : AbortReport) : Bytes :=
  natLe (packBits [
    (8, r.cause.toNat), (8, 0), (14, r.detRank.toNat), (2, 0), (14, r.otherRank.toNat), (1, bnat r.otherValid), (1, 0),
    (16, r.localStatus.toNat), (32, r.commId.toNat), (32, r.seq.toNat), (14, r.detModule.toNat), (2, 0),
    (14, r.otherModule.toNat), (2, 0), (64, r.stamp.toNat), (32, 0)]) 32

def reportOf (b : Bytes) : AbortReport :=
  let v := leNat b
  { cause := BitVec.ofNat 8 (bits v 7 0), detRank := BitVec.ofNat 14 (bits v 29 16), otherRank := BitVec.ofNat 14 (bits v 45 32)
    otherValid := bit v 46, localStatus := BitVec.ofNat 16 (bits v 63 48), commId := BitVec.ofNat 32 (bits v 95 64)
    seq := BitVec.ofNat 32 (bits v 127 96), detModule := BitVec.ofNat 14 (bits v 141 128)
    otherModule := BitVec.ofNat 14 (bits v 157 144), stamp := BitVec.ofNat 64 (bits v 223 160) }

/-- An abort report of this member. -/
def Coll.report (k : Coll) (s : State) (cause : Byte) (own : BitVec 16) (other : Option Nat) : AbortReport :=
  { cause := cause, detRank := BitVec.ofNat 14 k.rank, otherRank := BitVec.ofNat 14 (other.getD 0), otherValid := other.isSome
    localStatus := own, commId := k.commId, seq := k.cseq, detModule := s.fab.modId
    otherModule := (other.bind fun r => k.members[r]?).elim 0 Prod.fst, stamp := s.stamp }

/-- Whether report a is better than b: lower cause, then lower rank (R351). -/
def reportBetter (a b : AbortReport) : Bool :=
  a.cause.toNat < b.cause.toNat || (a.cause = b.cause && a.detRank.toNat < b.detRank.toNat)

/-- Send a report in both directions on every ring through this member (R351). -/
def State.spreadAbort (s : State) (k : Coll) (r : AbortReport) : State :=
  k.dims.foldl (fun a d =>
    let b := (a.collCtl k (k.next d) ckAbort d false r.bytes).1
    if k.size d = 2 then b else (b.collCtl k (k.prev d) ckAbort d false r.bytes).1) s

/-- Change one collective. -/
def State.updColl (s : State) (c : CmdId) (f : Coll → Coll) : State :=
  { s with colls := s.colls.map fun k => if k.cmd = c then f k else k }

def State.coll? (s : State) (c : CmdId) : Option Coll := s.colls.find? fun k => k.cmd = c

/-- A member holds a report: the better one stays, and one better than any it has forwarded is forwarded (R351). -/
def State.holdAbort (s : State) (c : CmdId) (r : AbortReport) : State :=
  match s.coll? c with
  | none => s
  | some k =>
    let s1 := s.updColl c fun k => match k.abort with
      | none => { k with abort := some r, abortAt := s.time }
      | some a => { k with abort := some (if reportBetter r a then r else a) }
    if k.forwarded.all fun f => reportBetter r f then
      (s1.updColl c fun k => { k with forwarded := some r }).spreadAbort k r
    else s1

/-- Raise an abort of a collective; a member that holds one raises none of its own (R351). `own` is the status its own
queue gives it (R354), zero for none. -/
def State.raiseAbort (s : State) (c : CmdId) (cause : Byte) (localSt own : BitVec 16) (other : Option Nat) : State :=
  match s.coll? c with
  | none => s
  | some k =>
    match k.abort with
    | some _ => s
    | none => (s.updColl c fun k => { k with ownStatus := own }).holdAbort c (k.report s cause localSt other)

/-- Send for a collective; a member that cannot be reached is lost (R350). -/
def State.collOut (s : State) (c : CmdId) (f : State → Coll → State × Option (BitVec 16)) (peer : Nat) : State :=
  match s.coll? c with
  | none => s
  | some k =>
    match f s k with
    | (s1, none) => s1
    | (s1, some st) => s1.raiseAbort c 0x03 st 0 (some peer)

/-! ## Holds (R449) -/

/-- The port at the other end of a link (R306). -/
def otherEnd (p : PortId) : PortId := ⟨if p.val % 2 = 0 then p.val + 1 else p.val - 1, by split <;> omega⟩

/-- The modules of a collective's ring neighbours. -/
def Coll.neighbours (k : Coll) : List (BitVec 14) :=
  ((k.dims.map fun d => [k.next d, k.prev d]).flatten.filterMap fun r => (k.members[r]?).map Prod.fst).eraseDups

/-- Announce a hold, or its release, on the port by which a module is reached (notes/assumptions/53.md). -/
def State.announce (s : State) (hold : Bool) (m : BitVec 14) : State :=
  match s.outPort none m with
  | .error _ => s
  | .ok o => s.emit (.mgmt (some o) (if hold then .hold s.fab.modId (otherEnd o) else .release s.fab.modId (otherEnd o)))

/-- Announce the holds, or the releases, of a collective. -/
def State.announceColl (s : State) (k : Coll) (hold : Bool) : State := k.neighbours.foldl (fun a m => a.announce hold m) s

end Sys2Proof.Machine
end

