-- ==== Sys2Proof/Machine/Flags.lean ====
section
/-! DEFINITION. The arithmetic flags and the fret status of a tile, and the flag status of a completion
(R58, R82, R271). -/

namespace Sys2Proof.Machine

/-- Raise arithmetic flags on a tile (R58). -/
def Tile.raise (x : Tile) (f : BitVec 16) : Tile := { x with flags := x.flags ||| f }

/-- Clear flags by a W1C write (R131). -/
def Tile.clearFlags (x : Tile) (f : BitVec 16) : Tile := { x with flags := x.flags &&& ~~~f }

/-- The location field of FRET_STATUS as one number: pane, row, column, lowest first (R82). -/
def fretLoc (pane row col : Nat) : Nat := pane * 2 ^ 32 + row * 2 ^ 16 + col

/-- FRET_STATUS after an element of an instruction raised fret flags (R82): the lowest location stays. -/
def Tile.fretMark (x : Tile) (f : BitVec 16) (pane row col : Nat) : Tile :=
  let sat := f &&& flFretSat ≠ 0
  let trunc := f &&& flFretTrunc ≠ 0
  if !sat && !trunc then x
  else
    let v := x.fret.toNat
    let loc := fretLoc pane row col
    let old := v / 2 ^ 16
    let keep := bit v 7 && old ≤ loc
    let low := v % 2 ^ 16 ||| 0x80 ||| (bnat trunc * 2) ||| bnat sat
    { x with fret := BitVec.ofNat 64 ((if keep then old else loc) * 2 ^ 16 + low) }

/-- The clamp bit of FRET_STATUS (R93). -/
def Tile.fretClamped (x : Tile) : Tile := { x with fret := x.fret ||| 4 }

/-- The lowest set bit of a 16-bit word; 16 for none. -/
def lowestBit (f : BitVec 16) : Nat := ((upTo 16).find? fun i => f.getLsbD i).getD 16

/-- The status of a success under a queue's flag mask (R271). -/
def flagStatus (flags mask : BitVec 16) : BitVec 16 :=
  if flags &&& mask = 0 then 0 else 0x3000 ||| BitVec.ofNat 16 (lowestBit (flags &&& mask))

end Sys2Proof.Machine
end

