-- ==== Sys2Proof/Machine/Operands.lean ====
section
/-! DEFINITION. Operand forms: packed rows of every format, tensor descriptors, reach addresses, and the
fields of tile instructions (R43 to R52, R127, R133, R176 to R183). -/

namespace Sys2Proof.Machine

/-! ## Rows of elements (R48, R52) -/

/-- Bytes of `n0` elements of a row in the element plane. -/
def Format.rowBytes (f : Format) (n0 : Nat) : Nat :=
  match f.blk with
  | .b16 => n0 / 16 * (1 + 2 * f.elem.width)
  | _ => (n0 * f.elem.width + 7) / 8

/-- Elements and bytes of what a format stores as a unit: an element, a packing group, a block (R48, R52). -/
def Format.unitElems (f : Format) : Nat :=
  match f.blk with
  | .b16 => 16
  | .b32 => 32
  | .none => if f.elem.width = 4 then 2 else if f.elem.width = 6 then 4 else 1
def Format.unitBytes (f : Format) : Nat := f.rowBytes f.unitElems

/-- A count rounded up to whole units. -/
def Format.padded (f : Format) (n : Nat) : Nat := (n + f.unitElems - 1) / f.unitElems * f.unitElems

/-- Whether an innermost element count is one the format takes (R48, R50). -/
def Format.countOk (f : Format) (n0 : Nat) : Bool :=
  match f.blk with
  | .b16 => n0 % 16 = 0
  | .b32 => n0 % 32 = 0
  | .none => if f.elem.width = 4 then n0 % 2 = 0 else if f.elem.width = 6 then n0 % 4 = 0 else true

/-- Element `i` of packed elements of a width. -/
def packedAt (w : Nat) (b : Bytes) (i : Nat) : Nat :=
  leNat (slice b (i * w / 8) (w / 8 + 2)) / 2 ^ (i * w % 8) % 2 ^ w

/-- Pack elements of a width, lowest index first. -/
def packElems (w : Nat) (es : List Nat) : Bytes :=
  natLe (es.foldr (fun e a => e % 2 ^ w + 2 ^ w * a) 0) ((es.length * w + 7) / 8)

/-- The encoded element `i` of a row and its block's scale byte (R48, R52). -/
def Format.rawAt (f : Format) (row scales : Bytes) (i : Nat) : Nat × Nat :=
  let w := f.elem.width
  match f.blk with
  | .none => (packedAt w row i, 0)
  | .b16 =>
    let r := slice row (i / 16 * (1 + 2 * w)) (1 + 2 * w)
    (packedAt w (r.drop 1) (i % 16), (r.headD 0).toNat)
  | .b32 => (packedAt w row i, ((scales.drop (i / 32)).headD 0).toNat)

/-- The value an encoded element has under its block's scale and, for fret64, a base. -/
def Format.value (f : Format) (base : Int) (e : Nat × Nat) : Val :=
  match f.blk with
  | .none => decodeElem f.elem base e.1
  | _ => decodeBlockElem f.elem e.2 e.1

/-- The values of the first `n` elements of a row. -/
def Format.values (f : Format) (base : Int) (row scales : Bytes) (n : Nat) : List Val :=
  (upTo n).map fun i => f.value base (f.rawAt row scales i)

/-- The ceiling of the values a row holds (R54, R85). -/
def Format.ceiling (f : Format) (base : Int) (row scales : Bytes) (n : Nat) : Byte :=
  (f.values base row scales n).foldl (fun c v => ceilMax c (ceilingOf v)) 0

/-- Split a list into runs of `n`. -/
def runsOf {α : Type} (n : Nat) : Nat → List α → List (List α)
  | 0, _ => []
  | _, [] => []
  | fuel + 1, l => l.take n :: runsOf n fuel (l.drop n)

/-- A row as it is stored: element plane, scale plane, flags. -/
structure EncodedRow where
  row : Bytes
  scales : Bytes
  flags : BitVec 16
deriving DecidableEq, Repr

/-- Store blocks in the layout of a format (R52). -/
def Format.layBlocks (f : Format) (bs : List (Nat × List Nat × BitVec 16)) : EncodedRow :=
  let fl := bs.foldl (fun a b => a ||| b.2.2) 0
  match f.blk with
  | .b16 => ⟨(bs.map fun b => BitVec.ofNat 8 b.1 :: packElems f.elem.width b.2.1).flatten, [], fl⟩
  | _ => ⟨(bs.map fun b => packElems f.elem.width b.2.1).flatten, bs.map fun b => BitVec.ofNat 8 b.1, fl⟩

/-- Convert a row of values (R59 to R67): each with its draw; blocks are padded with zeros (R50). -/
def Format.encode (f : Format) (same : Bool) (c : RCtl) (base : Int) (xs : List (Val × Nat)) : EncodedRow :=
  match f.blk with
  | .none =>
    let es := xs.map fun p => convert f.elem same c p.2 base p.1
    ⟨packElems f.elem.width (es.map Prod.fst), [], es.foldl (fun a e => a ||| e.2) 0⟩
  | k =>
    let pad := (k.size - xs.length % k.size) % k.size
    f.layBlocks ((runsOf k.size (xs.length + 1) (xs ++ List.replicate pad (Val.zero, 0))).map (toBlock f.elem c))

/-! ## Reach addresses (R180) -/

/-- What a reach address reaches. -/
inductive Reach where
  | scratch (off : Nat)
  | peer (t : TileId) (off : Nat)
  | device (va : Nat)
  | remote (m : BitVec 14) (va : Nat)
  | host (a : Nat)
deriving DecidableEq, Repr

/-- A reach address; unused bits and other spaces give 0x1003 (R180; notes/assumptions/26.md). -/
def reachOf (a : Word) : Except Fail Reach :=
  let v := a.toNat
  let bad : Except Fail Reach := .error { status := 0x1003, addr := a }
  match v / 2 ^ 60 with
  | 0 => if bits v 59 25 = 0 then .ok (.scratch (bits v 24 0)) else bad
  | 1 =>
    if bits v 59 39 = 0 ∧ bits v 31 25 = 0 then
      match TileId.ofNat? (bits v 38 32) with
      | some t => .ok (.peer t (bits v 24 0))
      | none => .error { status := 0x1102, addr := a }
    else bad
  | 2 => if bits v 59 48 = 0 then .ok (.device (bits v 47 0)) else bad
  | 3 => .ok (.remote (BitVec.ofNat 14 (bits v 59 46)) (bits v 45 0))
  | 4 => if bits v 59 57 = 0 then .ok (.host (bits v 56 0)) else bad
  | _ => bad

/-! ## Tensor descriptors (R176, R177) -/

/-- A tensor descriptor's fields. -/
structure Tensor where
  base : Word
  scale : Word
  id : BitVec 32
  ceiling : Byte
  fmt : Format
  fretBase : Int
  n0 : Nat
  n1 : Nat
  n2 : Nat
  n3 : Nat
  s1 : Int
  s2 : Int
  s3 : Int
deriving DecidableEq, Repr

/-- Read a tensor descriptor's 64 bytes: reserved bits 0x1002, format 0x1006, extents, counts and
strides 0x1003 (R48, R176 to R178). -/
def tensorOf (b : Bytes) : Except Fail Tensor :=
  let v := leNat b
  if bits v 191 168 ≠ 0 ∨ bits v 223 210 ≠ 0 ∨ bits v 511 496 ≠ 0 then .error { status := 0x1002 }
  else
    match formatOf (BitVec.ofNat 8 (bits v 199 192)) with
    | none => .error { status := 0x1006 }
    | some f =>
      let n0 := bits v 255 224
      let s1 := signed 48 (bits v 399 352)
      let s2 := signed 48 (bits v 447 400)
      let s3 := signed 48 (bits v 495 448)
      let al : Int := if f.blk = .none ∧ f.elem.width % 8 = 0 then (f.elem.width / 8 : Nat) else 1
      if n0 = 0 ∨ !f.countOk n0 ∨ s1 % al ≠ 0 ∨ s2 % al ≠ 0 ∨ s3 % al ≠ 0 then .error { status := 0x1003 }
      else .ok
        { base := BitVec.ofNat 64 (bits v 63 0), scale := BitVec.ofNat 64 (bits v 127 64)
          id := BitVec.ofNat 32 (bits v 159 128), ceiling := BitVec.ofNat 8 (bits v 167 160), fmt := f
          fretBase := signed 10 (bits v 209 200), n0 := n0, n1 := bits v 287 256, n2 := bits v 319 288
          n3 := bits v 351 320, s1 := s1, s2 := s2, s3 := s3 }

/-- A tensor descriptor read with the bypass policy by a die's unit (R178, R197). -/
def State.readTensor (s : State) (d : DieId) (p : PartId) (a : Word) : Except Fail Tensor :=
  if a.toNat % 64 ≠ 0 then .error { status := 0x1003, addr := a }
  else
    match (s.dieRead d p .bypass a.toNat 64).2 with
    | .error e => .error e
    | .ok b => tensorOf b

/-- The bytes of that descriptor. -/
def State.tensorBytes (s : State) (d : DieId) (p : PartId) (a : Word) : Except Fail Bytes :=
  if a.toNat % 64 ≠ 0 then .error { status := 0x1003, addr := a } else (s.dieRead d p .bypass a.toNat 64).2

/-- A tensor descriptor read at the stack agent by the front end. -/
def State.readTensorFe (s : State) (p : PartId) (a : Word) : Except Fail Tensor :=
  if a.toNat % 64 ≠ 0 then .error { status := 0x1003, addr := a }
  else
    match s.vread p a.toNat 64 with
    | .error e => .error e
    | .ok b => tensorOf b

/-- Byte address of row (i3, i2, i1) of a tensor (R177). -/
def Tensor.rowAddr (t : Tensor) (i3 i2 i1 : Nat) : Int :=
  (t.base.toNat : Int) + i3 * t.s3 + i2 * t.s2 + i1 * t.s1

/-- Byte address of the scales of row (i3, i2, i1) of a 32-element tensor (R177). -/
def Tensor.scaleAddr (t : Tensor) (i3 i2 i1 : Nat) : Int :=
  t.scale.toNat + (((i3 * t.n2 + i2) * t.n1 + i1) * (t.n0 / 32) : Nat)

/-- Logical index of element (i3, i2, i1, i0) (R67). -/
def Tensor.index (t : Tensor) (i3 i2 i1 i0 : Nat) : Nat := ((i3 * t.n2 + i2) * t.n1 + i1) * t.n0 + i0

/-- Elements of a tensor. -/
def Tensor.count (t : Tensor) : Nat := t.n3 * t.n2 * t.n1 * t.n0

/-- The issuing die of an atomic writes back its dirty bytes of the word and drops its copy (R213). -/
def State.surrender (s : State) (d : DieId) (pa n : Nat) : State :=
  let w := (s.writeBackLine d (pa / 64) (lineMask (pa % 64) n)).1
  match w.cline d (pa / 64) with
  | none => w
  | some l => w.setCline d (pa / 64) (l.dropClean (lineMask (pa % 64) n))

/-- Raise a tensor's ceiling by atomic maximum at its stack agent (R85, R177, R230): 0x2002 without
write permission. The issuing die first writes back and drops its copy of the word (R213). -/
def State.foldCeiling (s : State) (d : Option DieId) (p : PartId) (a : Word) (c : Byte) : State × Option Fail :=
  match s.translateWrite p (a.toNat + 20) with
  | .error e => (s, some e)
  | .ok x =>
    let s1 := d.elim s fun dd => s.surrender dd x.pa 4
    match s1.agentRead x.pa 4 with
    | .error e => (s1, some e)
    | .ok b => s1.agentWrite false x.pa (natLe (max (leNat b) c.toNat) 4)

/-! ## Reach accesses of a tile's engines (R180, R186) -/

/-- Whether a tile may reach another tile's scratchpad (R180). -/
def State.peerOk (s : State) (t u : TileId) : Bool := (s.tilePart t).isSome && s.tilePart t = s.tilePart u

/-- Read bytes at a reach address for a tile's engine; a remote address is not one this reads. -/
def State.reachRead (s : State) (t : TileId) (pol : Policy) (a : Word) (n : Nat) : State × Except Fail Bytes :=
  match reachOf a with
  | .error e => (s, .error e)
  | .ok (.scratch o) => (s, (s.tile t).scratchRead o n)
  | .ok (.peer u o) =>
    if s.peerOk t u then (s, (s.tile u).scratchRead o n) else (s, .error { status := 0x1102, addr := a })
  | .ok (.device va) => s.dieRead (dieOf t) ((s.tilePart t).getD 0) pol va n
  | .ok (.host h) => s.hostRead h n
  | .ok (.remote _ _) => (s, .error { status := 0x1003, addr := a })

/-- Write bytes at a reach address for a tile's engine. -/
def State.reachWrite (s : State) (t : TileId) (pol : Policy) (a : Word) (b : Bytes) : State × Option Fail :=
  match reachOf a with
  | .error e => (s, some e)
  | .ok (.scratch o) =>
    if o + b.length > scratchSize then (s, some { status := 0x2003, addr := a })
    else (s.updTile t fun x => x.scratchWrite o b, none)
  | .ok (.peer u o) =>
    if !s.peerOk t u then (s, some { status := 0x1102, addr := a })
    else if o + b.length > scratchSize then (s, some { status := 0x2003, addr := a })
    else (s.updTile u fun x => x.scratchWrite o b, none)
  | .ok (.device va) => s.dieWrite (dieOf t) ((s.tilePart t).getD 0) false pol va b
  | .ok (.host h) => s.hostWrite h b
  | .ok (.remote _ _) => (s, some { status := 0x1003, addr := a })

/-- Whether a format needs a tensor descriptor beside it: a 32-element scale plane, or a fret base. -/
def Format.needsTensor (g : Format) : Bool := g.blk = .b32 || g.elem = .fret64

/-! ## Fields of tile instructions (R127, R133) -/

def opOf (w : BitVec 32) : Nat := bits w.toNat 31 26
def fD (w : BitVec 32) : BitVec 5 := w.extractLsb' 21 5
def fA (w : BitVec 32) : BitVec 5 := w.extractLsb' 16 5
def fB (w : BitVec 32) : BitVec 5 := w.extractLsb' 11 5
def fFn (w : BitVec 32) : Nat := bits w.toNat 10 0
def fImm (w : BitVec 32) : BitVec 16 := w.extractLsb' 0 16
def fOff26 (w : BitVec 32) : BitVec 26 := w.extractLsb' 0 26

/-- The sign-extended and the zero-extended immediate. -/
def immS (w : BitVec 32) : Word := (fImm w).signExtend 64
def immZ (w : BitVec 32) : Word := (fImm w).setWidth 64

/-- The low and the high word of a 64-bit instruction. -/
def lowWord (x : BitVec 64) : BitVec 32 := x.extractLsb' 0 32
def highWord (x : BitVec 64) : BitVec 32 := x.extractLsb' 32 32

/-- Synchronisation fields (R133). -/
def fWv (x : BitVec 64) : Bool := x.getLsbD 13
def fWev (x : BitVec 64) : BitVec 4 := x.extractLsb' 9 4
def fSv (x : BitVec 64) : Bool := x.getLsbD 8
def fSev (x : BitVec 64) : BitVec 4 := x.extractLsb' 4 4

/-- A scalar register; s0 reads zero (R122). -/
def Seq.reg (q : Seq) (r : BitVec 5) : Word := if r = 0 then 0 else mapGet 0 q.regs r.toNat

/-- A scalar register written; a write to s0 is discarded (R122). -/
def Seq.setReg (q : Seq) (r : BitVec 5) (v : Word) : Seq :=
  if r = 0 then q else { q with regs := mapPut 0 q.regs r.toNat v }

/-- An event counter (R137). -/
def Seq.event (q : Seq) (e : BitVec 4) : BitVec 16 := mapGet 0 q.events e.toNat
def Seq.setEvent (q : Seq) (e : BitVec 4) (v : BitVec 16) : Seq := { q with events := mapPut 0 q.events e.toNat v }

end Sys2Proof.Machine
end

