-- ==== Sys2Proof/Machine/Units.lean ====
section
/-! DEFINITION. Which units of the module are in service: the disabled-unit record in force, licences, the home
and mirror dies (R25 to R27, R223, R224, R476 to R481). -/

namespace Sys2Proof.Machine

/-! ## The disabled-unit record (R476, R477) -/

/-- Entry kinds of R476. -/
abbrev duTile : Byte := 1
abbrev duDie : Byte := 2
abbrev duStack : Byte := 3
abbrev duPort : Byte := 4
abbrev duLane : Byte := 5
abbrev duLink : Byte := 6

/-- Whether the entries in force hold one of a kind for a unit. -/
def State.unitOut (s : State) (kind : Byte) (unit : Nat) : Bool :=
  s.boot.inForce.any fun e => e.kind = kind && e.unit.toNat = unit

/-- A die marked failed (R27). -/
def State.dieFailed (s : State) (d : DieId) : Bool := s.unitOut duDie d.val

/-- Whether a logical tile is available (R27). -/
def State.tileAvailable (s : State) (t : TileId) : Bool := !s.dieFailed (dieOf t)

/-- A port, or a lane pair of one, marked failed. -/
def State.portFailed (s : State) (p : PortId) : Bool := s.unitOut duPort p.val
def State.laneFailed (s : State) (p : PortId) (i : Nat) : Bool :=
  s.boot.inForce.any fun e => e.kind = duLane && e.unit.toNat = p.val && e.sub.toNat = i

/-- The disabled tile position of a die: the base's, or an entry of kind 0x01; the spare is position 8 (R25, R26). -/
def State.disabledPos (s : State) (d : DieId) : Byte :=
  match s.boot.inForce.find? fun e => e.kind = duTile && e.unit.toNat = d.val with
  | some e => e.sub
  | none => mapGet 8 s.boot.basePos d.val

/-- The number whose bit i is the i-th Boolean. -/
def bitmap (l : List Bool) : Nat := packBits (l.map fun b => (1, bnat b))

/-- The canonical map's 72 bytes (R478). -/
def State.canonicalMap (s : State) : Bytes :=
  (allDies.map fun d => if s.dieFailed d then (0xFF : Byte) else s.disabledPos d)
    ++ natLe (bitmap (allStacks.map fun k => s.unitOut duStack k.val || (s.stack k).unavailable)) 3
    ++ natLe (bitmap (allPorts.map s.portFailed)) 5
    ++ natLe (bitmap ((allPorts.map fun p => (upTo 9).map fun i => s.laneFailed p i).flatten)) 41
    ++ natLe (bitmap ((upTo 31).map fun i => s.unitOut duLink i)) 4
    ++ List.replicate 7 0

/-- The unit-map digest (R25, R478). -/
def State.unitDigest (s : State) : BitVec 128 := (Config.unitMapMac s.canonicalMap).setWidth 128

/-- Raise a flash counter: it stays at its largest value, and then the operation fails (R463). -/
def State.flashCounter (s : State) (i : Nat) : BitVec 32 := mapGet 0 s.boot.counters i
def State.counterFull (s : State) (i : Nat) : Bool := s.flashCounter i = 0xFFFFFFFF
def State.setFlashCounter (s : State) (i : Nat) (v : BitVec 32) : State :=
  { s with boot := { s.boot with counters := mapPut 0 s.boot.counters i v } }
def State.raiseCounter (s : State) (i : Nat) : State :=
  if s.counterFull i then s else s.setFlashCounter i (s.flashCounter i + 1)

/-- Extend the record by an entry, which raises counter 1 (R476, R477); nothing is added where the counter is at
its end or an equal entry stands. -/
def State.extendRecord (s : State) (kind : Byte) (unit sub : Nat) (cause : Byte) : State :=
  let u := BitVec.ofNat 8 unit
  let b := BitVec.ofNat 8 sub
  if s.counterFull 1 || s.boot.entries.any (fun e => e.kind = kind && e.unit = u && e.sub = b) then s
  else
    let s1 := s.raiseCounter 1
    let e : DuEntry := ⟨kind, u, b, cause, s1.flashCounter 1⟩
    { s1 with boot := { s1.boot with entries := s1.boot.entries ++ [e], recordGen := e.gen } }

/-- The physical position of a logical tile (R24). -/
def State.tilePos (s : State) (t : TileId) : Nat := if t.val % 8 < (s.disabledPos (dieOf t)).toNat then t.val % 8 else t.val % 8 + 1

/-- A fenced tile is exchanged for the spare, or, where the record exchanged one on its die before, the die is marked
failed (R26, R27, R414). -/
def State.retireTile (s : State) (t : TileId) : State :=
  let d := (dieOf t).val
  if s.boot.entries.any fun e => e.kind = duTile && e.unit.toNat = d then s.extendRecord duDie d 0 0x02
  else s.extendRecord duTile d (s.tilePos t) 0x02

/-! ## Licences (R479, R481) -/

def State.licence (s : State) (f : Nat) : Option Licence := mapGet none s.boot.licences f

/-- The value of a feature by the licences held: ports, partitions, FP64, lock-step. -/
def State.licensed (s : State) (f : Nat) : Nat := (s.licence f).elim 0 fun l => l.value.toNat

/-- Ports that a port licence gives, and partitions that a partition licence gives. -/
def portsOf (v : Nat) : Nat := if v = 2 then 36 else if v = 1 then 24 else 12
def partsOf (v : Nat) : Nat := if v = 1 then 8 else 2

/-! ## Home and mirror dies (R224) -/

/-- The dies that are not marked failed. -/
def State.healthyDies (s : State) : List DieId := allDies.filter fun d => !s.dieFailed d

/-- The home die and the mirror die as firmware chooses them at a start. -/
def State.chooseHome (s : State) : DieId := (s.healthyDies.head?).getD 0
def State.chooseMirror (s : State) : Option DieId := (s.healthyDies.getLast?).filter fun d => d ≠ s.chooseHome

/-! ## Degraded memory (R228) -/

/-- The dies of a partition that it owns itself, borrowed ones left out. -/
def State.loanOf (s : State) (d : DieId) : Option Loan := s.loans.find? fun l => l.die = d

/-- Dies lent out by a partition, and dies it has borrowed (R390). -/
def State.lentOut (s : State) (p : PartId) : List DieId := allDies.filter fun d => (s.loanOf d).any fun l => l.lender = p
def State.borrowed (s : State) (p : PartId) : List DieId := allDies.filter fun d => (s.loanOf d).any fun l => l.borrower = p

end Sys2Proof.Machine
end

