-- ==== Sys2Proof/Machine/QueueOps.lean ====
section
/-! DEFINITION. Commands in flight: finding and changing them, abandoning their work, completing, failing
and cancelling them, and halting their queue (R116, R145, R194, R260, R267, R276, R409, R414). -/

namespace Sys2Proof.Machine

/-! ## Commands in flight -/

def State.cmd? (s : State) (c : CmdId) : Option Cmd := (s.queue c.queue).cmds.find? fun x => x.id = c.id

def State.updCmd (s : State) (c : CmdId) (f : Cmd → Cmd) : State :=
  s.updQueue c.queue fun q => { q with cmds := q.cmds.map fun x => if x.id = c.id then f x else x }

/-- The first command of a queue with a sequence number and a stage. -/
def State.findSeq (s : State) (q : QueueId) (seq : BitVec 32) (g : Stage) : Option Cmd :=
  (s.queue q).cmds.find? fun x => x.seq = seq && x.stage = g

/-- Whether the holder of a tile, an operation or a descriptor is being pre-empted: its engines begin nothing more
(R114, R169, R193, R393). -/
def State.holderStops (s : State) (c : Option CmdId) : Bool := c.any fun d => (s.queue d.queue).preempting
def State.tileStopping (s : State) (t : TileId) : Bool := s.holderStops (s.tile t).cmd
def State.opStopping (s : State) (t : TileId) (o : DmaOp) : Bool := s.holderStops (o.cmd <|> (s.tile t).cmd)

/-- Bits of a command's record (R246). -/
def Cmd.field (c : Cmd) (hi lo : Nat) : Nat := bits (leNat c.record) hi lo
def Cmd.opcode (c : Cmd) : Nat := c.field 7 0

/-- A queue's partition and whether it is a kernel queue; false and partition 0 where it is disabled. -/
def State.queuePart (s : State) (q : QueueId) : PartId := ((s.queue q).cfg.map fun c => c.partition).getD 0
def State.queueKernel (s : State) (q : QueueId) : Bool := ((s.queue q).cfg.map fun c => c.kernel).getD false

/-- The class of a status (R420). -/
def statusClass (st : BitVec 16) : Nat := st.toNat / 256

/-- Whether a completion with this status halts its queue (R267, R271). -/
def haltsQueue (st : BitVec 16) (haltFlag : Bool) : Bool :=
  !(st = 0 || st = 1 || st = 0x8003 || (statusClass st = 0x30 && !haltFlag))

/-- Whether a completion with this status sets destination ceilings to 0xFF: a fault, cancelled, timeout
or collective abort (R85, R352; notes/assumptions/27.md). -/
def spoilsCeilings (st : BitVec 16) : Bool :=
  statusClass st = 0x90 || statusClass st = 0x80 || statusClass st = 0x70 || statusClass st = 0x40

/-! ## Unspecified contents (R7) -/

/-- Free bytes over a range of a tile's scratchpad. -/
def State.scribble (s : State) (t : TileId) (a n : Nat) : State :=
  if a + n > scratchSize then s
  else
    let (b, s1) := s.drawBytes n
    s1.updTile t fun x => x.scratchWrite a b

/-- Every element that a matrix instruction would have written becomes unspecified (R116). -/
def State.scribbleOut (s : State) (t : TileId) (i : MatInstr) : State :=
  match formatOf i.dFmt with
  | none => s
  | some f =>
    (upTo i.m).foldl (fun a r => a.scribble t (i.dAddr.toNat + r * i.dPitch.toNat) (f.rowBytes i.n)) s

/-- A pane with its output block, its chain and its instruction discarded (R116). -/
def Pane.discard (p : Pane) : Pane :=
  { p with acc := [], resident := false, chainOpen := false, instr := none, shadow := none }

/-- Abandon the passes of one pane (R116). -/
def State.abandonPane (s : State) (t : TileId) (p : PaneId) : State :=
  match ((s.tile t).pane p).instr with
  | none => s.updPane t p Pane.discard
  | some i => (s.scribbleOut t i).updPane t p Pane.discard

/-- The tile with its sequencer, queues and tile program's descriptors gone; descriptors that dma
commands handed over run on (R252). -/
def Tile.clearProgram (x : Tile) : Tile :=
  { x with
    seq := { x.seq with run := .idle, resident := false, issued := 0 }
    aq := [], vq := [], dq := [], finished := [], cmd := none
    dma := { x.dma with ops := x.dma.ops.filter fun o => o.cmd.isSome } }

/-- Whether a pending wait is a tile's. -/
def SemWait.ofTile (w : SemWait) (t : TileId) : Bool :=
  match w.who with
  | .tile u _ _ _ => u = t
  | .cmd _ => false

/-- Abandon a tile's program: passes by R116, the rest dropped (R145, R194, R276). -/
def State.abandonTile (s : State) (t : TileId) : State :=
  let s1 := ((List.finRange 16).foldl (fun a p => a.abandonPane t p) s).updTile t Tile.clearProgram
  { s1 with semWaits := s1.semWaits.filter fun w => !w.ofTile t }

/-! ## Ending a command's work -/

/-- The arithmetic flags of the tiles a command occupies (R58). -/
def State.tileFlags (s : State) (c : Cmd) : BitVec 16 := c.holds.foldl (fun f t => f ||| (s.tile t).flags) 0

/-- Free the tiles a command occupies. -/
def State.freeTiles (s : State) (c : CmdId) : State :=
  match s.cmd? c with
  | none => s
  | some x => x.holds.foldl (fun a t =>
      if (a.tile t).cmd = some c then a.updTile t fun y => { y with cmd := none, seq := { y.seq with run := .idle } } else a) s

/-- Drop a command's waits on semaphores and counters (R269, R276). -/
def State.dropWaits (s : State) (c : CmdId) : State :=
  { s with semWaits := s.semWaits.filter fun w => w.who ≠ .cmd c
           ctrWaits := s.ctrWaits.filter fun w => w.cmd ≠ c }

/-- Drop a dma command's descriptors (R194, R252). -/
def Tile.dropDescs (x : Tile) (c : CmdId) : Tile :=
  { x with dma := { x.dma with ops := x.dma.ops.filter fun o => o.cmd ≠ some c
                               handed := x.dma.handed.filter fun h => h.1 ≠ c } }

/-- Every element that a matmul would have written becomes unspecified (R116, R120). -/
def State.scribbleOuts (s : State) (x : Cmd) : State :=
  match x.holds with
  | [] => s
  | t :: _ => x.outs.foldl (fun a r =>
      let (b, a1) := a.drawBytes r.2
      (a1.reachWrite t .noAllocate r.1 b).1) s

/-- Whether a tile's engines may begin operations: a command on the tile, in service (R175, R413). -/
def Tile.inService (x : Tile) : Bool := x.cmd.isSome && !x.zeroing && !x.inReset

/-- The matmul that a tile serves (R248). -/
def State.matmulOn (s : State) (t : TileId) : Option CmdId :=
  if (s.tile t).inService && !(s.tile t).seq.resident then
    (s.tile t).cmd.filter fun c => (s.cmd? c).any fun x => x.opcode = 1 && x.stage = .begun
  else none

/-- Abandon the work of a command: its tiles, descriptors, waits and buffers (R267, R269, R276). -/
def State.abandonWork (s : State) (c : CmdId) : State :=
  match s.cmd? c with
  | none => s
  | some x =>
    let s1 := x.holds.foldl (fun a t => if (a.tile t).cmd = some c then a.abandonTile t else a) s
    let s2 := if x.opcode = 3 then
        match TileId.ofNat? (x.field 150 144) with
        | some t => s1.updTile t fun y => y.dropDescs c
        | none => s1
      else s1
    let s3 := if x.stage = .begun then s2.scribbleOuts x else s2
    { s3.dropWaits c with colls := s3.colls.filter fun k => k.cmd ≠ c }

/-- Set a command's status and stage: a command that never began goes straight to its publication. -/
def Cmd.finish (x : Cmd) (st : BitVec 16) (now : Word) : Cmd :=
  { x with status := st, tiles := [], descs := 0, doneAt := now
           stage := if x.stage = .fetched then .released else .worked }

/-- Whether a command's work still runs or has not begun. -/
def Cmd.live (x : Cmd) : Bool := x.stage = .fetched || x.stage = .begun

/-- Cancel one command with a status (R267, R276): a begun collective aborts with cause 0x04 and
completes by R351; any other is abandoned and completes. -/
def State.cancelCmd (s : State) (c : CmdId) (st : BitVec 16) : State :=
  match s.cmd? c with
  | none => s
  | some x =>
    if !x.live then s
    else if x.opcode = 4 ∧ s.colls.any (fun k => k.cmd = c) then s.raiseAbort c 0x04 st st none
    else (s.abandonWork c).updCmd c fun y => y.finish st s.stamp

/-- The commands of a queue after one of them, in order. -/
def State.laterCmds (s : State) (c : CmdId) : List CmdId :=
  (((s.queue c.queue).cmds.dropWhile fun x => x.id ≠ c.id).drop 1).map fun x => ⟨c.queue, x.id⟩

/-- Queue states (R275). -/
abbrev qDisabled : BitVec 3 := 0
abbrev qIdle : BitVec 3 := 1
abbrev qRunning : BitVec 3 := 2
abbrev qPreempted : BitVec 3 := 3
abbrev qHalted : BitVec 3 := 4
abbrev qStalled : BitVec 3 := 5
abbrev qDestroying : BitVec 3 := 6

/-- Abandon every tile that a command or resident program (number 0) occupies. -/
def State.stopTiles (s : State) (r : CmdId) : State :=
  allTiles.foldl (fun a u => if (a.tile u).cmd = some r then a.abandonTile u else a) s

/-- A queue whose fetched records are all gone enters halted, where a halt waits, or idle, where it has
nothing to fetch (R267, R268, R275). -/
def State.settle (s : State) (q : QueueId) : State :=
  let x := s.queue q
  if !x.cmds.isEmpty || !x.held.isEmpty then s
  else if x.state = qRunning ∨ x.state = qIdle ∨ x.state = qPreempted then
    match x.halting with
    | some r =>
      ((s.stopTiles ⟨q, 0⟩).setQueue q
        { x with state := qHalted, reason := r, halting := none, frames := [], skip := 0 }).causeBoth
        (some (s.queuePart q)) 2
    | none =>
      if x.state = qRunning ∧ x.head = x.tail ∧ x.frames.isEmpty ∧ x.resumeTo.isNone then s.setQueue q { x with state := qIdle } else s
  else s

/-- Drop what a queue staged for its next kernels (R264). -/
def State.dropPreloads (s : State) (q : QueueId) : State :=
  allTiles.foldl (fun a t =>
    if (a.tile t).seq.preload.any fun p => p.queue = q then a.updSeq t fun y => { y with preload := none } else a) s

/-- Halt a queue for a command's status: nothing more is fetched, later commands are cancelled (R267). -/
def State.haltFor (s : State) (c : CmdId) : State :=
  let x := s.queue c.queue
  if x.state = qDestroying then s
  else
    let s1 := (s.setQueue c.queue { x with halting := x.halting <|> some 0x01, frames := [], skip := 0 }).dropPreloads c.queue
    (s1.laterCmds c).foldl (fun a d => a.cancelCmd d 0x8001) s1

/-- Stop a queue's fetching for a reason that belongs to no command (R244, R268, R519). -/
def State.haltQueue (s : State) (q : QueueId) (reason : Byte) : State :=
  ((s.updQueue q fun x => { x with halting := x.halting <|> some reason }).dropPreloads q).settle q

/-- Completion of a command's work with a status (R262, R267, R271): success takes the flag status of its
queue's mask; its tiles are freed; a halting status halts the queue. -/
def State.endWork (s : State) (c : CmdId) (st : BitVec 16) : State :=
  match s.cmd? c with
  | none => s
  | some x =>
    if !x.live then s
    else
      let cfg := (s.queue c.queue).cfg
      let flags := x.flags ||| s.tileFlags x
      let st1 := if st = 0 then flagStatus flags ((cfg.map fun g => g.flagMask).getD 0) else st
      let s1 := (s.freeTiles c).updCmd c fun y => { y.finish st1 s.stamp with flags := flags }
      let s2 := s1.trace (srcQueue c.queue) 0x01 (packBits [(12, c.queue.val), (20, 0), (32, x.seq.toNat)])
      if haltsQueue st1 ((cfg.map fun g => g.haltFlag).getD false) then s2.haltFor c else s2

/-! ## Failing -/

/-- Engine codes of R270. -/
abbrev engArray : Byte := 0x01
abbrev engVector : Byte := 0x02
abbrev engDma : Byte := 0x03
abbrev engSeq : Byte := 0x04
abbrev engColl : Byte := 0x05
abbrev engFront : Byte := 0x06
abbrev engAgent : Byte := 0x07
abbrev engLink : Byte := 0x08

/-- The source that reports a failure (R505). -/
def failSource (q : QueueId) (engine : Byte) (tile : Option TileId) (e : Fail) : BitVec 16 :=
  match tile, e.stack with
  | some t, _ => srcTile t
  | none, some k => if engine = engAgent then srcStack k else srcHub (2 + q.val % 8)
  | none, none => srcHub (2 + q.val % 8)

/-- Whether a failed completion writes a fault record of its own: a hardware-fault status that is not
a reset's and not that of a unit already fenced (R401, R409; notes/assumptions/28.md). -/
def writesRecord (st : BitVec 16) : Bool :=
  statusClass st = 0x90 && st ≠ 0x9009 && st ≠ 0x900A && st ≠ 0x900C

/-- Write the fault record of a command's failure (R409 to R411). -/
def State.recordCmdFault (s : State) (c : CmdId) (e : Fail) (engine : Byte) (tile : Option TileId) : BitVec 24 × State :=
  let seq := (s.cmd? c).elim 0 fun x => x.seq
  s.recordFault
    { kind := 0x01, status := e.status, engine := engine, context := s.contextId c.queue, seq := seq
      src := failSource c.queue engine tile e, tile := tile
      die := e.die <|> tile.map fun t => logicOfDie (dieOf t)
      stack := e.stack, mech := e.mech, addr := e.addr, aux := e.aux, part := some (s.queuePart c.queue) }

/-- Fence a tile after three hardware faults by one mechanism in 24 hours (R414). -/
def State.noteTileFault (s : State) (t : TileId) (mech : Byte) : State :=
  let x := s.tile t
  let log := (mech, s.time) :: x.mechLog.filter fun m => s.time < m.2 + 86400000000000
  let s1 := s.setTile t { x with mechLog := log }
  if 3 ≤ (log.filter fun m => m.1 = mech).length && !x.fenced then
    (((s1.updTile t fun y => { y with fenced := true }).retireTile t).recordFault
      { kind := 0x04, status := 0x900C, src := srcTile t, tile := some t, die := some (logicOfDie (dieOf t)), mech := mech }).2
  else s1

/-- A detection in a tile's own units asks for the tile's reset and counts towards its fencing
(R412, R414); the tile is fenced from then to the end of the reset. -/
def State.tileDetection (s : State) (t : TileId) (st : BitVec 16) (no : BitVec 24) (mech : Byte) : State :=
  let s1 := (s.noteTileFault t mech).updTile t fun x => { x with inReset := true }
  match mapGet none s1.flt.tileCause t.val with
  | some _ => s1
  | none => { s1 with flt := { s1.flt with tileCause := mapPut none s1.flt.tileCause t.val (some ⟨st, no, mech, false⟩) } }

/-- Whether a status is a detection in the tile's own units (R404, R412). -/
def tileUnitStatus (st : BitVec 16) : Bool := st = 0x9001 || st = 0x9002 || st = 0x9008

/-- Fail a command (R267, R409, R422): the record, the tile's reset where a tile unit is at fault, and,
where its work still runs, its completion with the status. -/
def State.failCmd (s : State) (c : CmdId) (e : Fail) (engine : Byte) (tile : Option TileId) : State :=
  let (no, s1) := if writesRecord e.status then s.recordCmdFault c e engine tile else (0, s)
  let s2 := match tile with
    | some t => if tileUnitStatus e.status then s1.tileDetection t e.status no e.mech else s1
    | none => s1
  match s2.cmd? c with
  | none => s2
  | some x =>
    if !x.live then s2
    else if x.opcode = 4 ∧ s2.colls.any (fun k => k.cmd = c) then s2.raiseAbort c 0x05 e.status 0 none
    else
      let s3 := s2.updCmd c fun y => { y with engine := engine, faultRef := no, flags := y.flags ||| s2.tileFlags y }
      ((s3.abandonWork c).updCmd c fun y => y.finish e.status s.stamp).haltFor c

/-- The command that a tile's sequencer runs: its kernel, or the oldest delivered entry that a resident
program has not completed (R144, R265). -/
def State.tileCmd (s : State) (t : TileId) : Option CmdId :=
  let x := s.tile t
  if x.seq.resident then
    x.cmd.bind fun c => ((s.queue c.queue).cmds.find? fun k => k.stage = .begun && k.tiles.contains t).map fun k => ⟨c.queue, k.id⟩
  else x.cmd

/-- Stop a resident program on every tile that runs it, and cancel its queue's entries (R145, R265). -/
def State.stopResident (s : State) (r : CmdId) : State :=
  let s1 := s.stopTiles r
  ((s1.queue r.queue).cmds.filter fun x => x.opcode = 2 && x.live).foldl (fun a x => a.cancelCmd ⟨r.queue, x.id⟩ 0x8001) s1

/-- Fail what runs on a tile: its command, or its queue where a resident program has no entry. -/
def State.failTile (s : State) (t : TileId) (e : Fail) (engine : Byte) : State :=
  match s.tileCmd t, (s.tile t).cmd with
  | some c, some r =>
    let s1 := s.failCmd c e engine (some t)
    if (s.tile t).seq.resident then s1.stopResident r else s1
  | none, some r =>
    let (no, s1) := if writesRecord e.status then s.recordCmdFault r e engine (some t) else (0, s)
    let s2 := if tileUnitStatus e.status then s1.tileDetection t e.status no e.mech else s1
    (s2.stopResident r).haltQueue r.queue 0x01
  | _, none => if tileUnitStatus e.status then s.tileDetection t e.status 0 e.mech else s

/-- A tile program's fault (R145): FAULT_INFO, then the command's failure; the engine code and the
offset are the ones R145 and R137 name. A hardware-fault status of a program carries mech 0x20. -/
def State.tileFault (s : State) (t : TileId) (cause : Byte) (st : BitVec 16) (trap : BitVec 16) (off : Word) (engine : Byte) : State :=
  let info := BitVec.ofNat 64 (packBits [(8, cause.toNat), (16, trap.toNat), (8, 0), (32, off.toNat)])
  let s1 := s.updSeq t fun q => { q with faultInfo := info }
  let s2 := s1.failTile t { status := st, mech := if statusClass st = 0x90 then 0x20 else 0, aux := info } engine
  s2.updSeq t fun q => { q with run := .faulted }

end Sys2Proof.Machine
end

