-- ==== Sys2Proof/Machine/HashOps.lean ====
section
/-! DEFINITION. Block hashes of lock-step comparison, and the CRC-64 they share with collective signatures
(R348, R374). -/

namespace Sys2Proof.Machine

/-- One bit of the CRC-64 of ECMA-182, the highest bit first. -/
def crc64Bit (c : Nat) : Nat :=
  if c / 2 ^ 63 % 2 = 1 then (c * 2 % 2 ^ 64) ^^^ 0x42F0E1EBA9EA3693 else c * 2 % 2 ^ 64

def crc64Byte (c : Nat) (b : Byte) : Nat :=
  crc64Bit (crc64Bit (crc64Bit (crc64Bit (crc64Bit (crc64Bit (crc64Bit (crc64Bit (c ^^^ b.toNat * 2 ^ 56))))))))

/-- CRC-64 of a byte string: initial value 0, no reflection, no inversion (R348). -/
def crc64 (b : Bytes) : BitVec 64 := BitVec.ofNat 64 (b.foldl crc64Byte 0)

/-- A block's hash over its 16 bytes of identification and what was written (R374). -/
def blockHash (t : TileId) (kind : BitVec 3) (ident : Nat) (b : Bytes) : BlockHash :=
  { tile := BitVec.ofNat 7 t.val, kind := kind, ident := BitVec.ofNat 64 ident
    hash := crc64 (natLe (kind.toNat + 256 * t.val) 8 ++ natLe ident 8 ++ b) }

/-- Whether a partition, and a queue's partition, is paired (R373, R390). -/
def State.partPaired (s : State) (p : PartId) : Bool := (s.part p).lsState = 2 || (s.part p).lsState = 3
def State.paired (s : State) (q : QueueId) : Bool := s.partPaired (s.queuePart q)

/-- Note a block that a tile wrote for a command of a paired queue (R374). -/
def State.hashFor (s : State) (c : Option CmdId) (t : TileId) (kind : BitVec 3) (ident : Nat) (b : Bytes) : State :=
  match c with
  | none => s
  | some k => if s.paired k.queue then s.updCmd k fun x => { x with hashes := blockHash t kind ident b :: x.hashes } else s

/-- The block of vector stores that a tile has open is hashed and closed. -/
def State.closeStores (s : State) (t : TileId) : State :=
  let v := (s.tile t).vec
  if v.blkCount = 0 then s
  else
    (s.hashFor (s.tileCmd t) t 1 v.blkFirst v.blkBytes).updTile t fun x =>
      { x with vec := { x.vec with blkCount := 0, blkBytes := [] } }

/-- One vst or scatter enters the open block of 256 consecutive stores (R374). -/
def State.hashStore (s : State) (t : TileId) (b : Bytes) : State :=
  let s1 := s.updTile t fun x =>
    let v := x.vec
    { x with vec := { v with blkFirst := if v.blkCount = 0 then v.ordinal else v.blkFirst
                             blkCount := v.blkCount + 1, blkBytes := v.blkBytes ++ b } }
  if (s1.tile t).vec.blkCount = 256 then s1.closeStores t else s1

/-- The rows of a tile operation's output, 64 to a block (R374). -/
def State.hashRows (s : State) (t : TileId) (rows : List (Nat × Bytes)) : State :=
  let o := (s.tile t).vec.ordinal
  (upTo 64).foldl (fun a g =>
    let rs := rows.filter fun r => r.1 / 64 = g
    if rs.isEmpty then a else a.hashFor (a.tileCmd t) t 1 (packBits [(32, o), (16, g)]) (rs.map Prod.snd).flatten) s

/-! ## Comparison (R375 to R377) -/

/-- Whether a local record and a peer's agree; `fretted` is fretted-only. -/
def recordsAgree (fretted : Bool) (a b : HashRec) : Bool :=
  a.status = b.status && ((fretted && (a.fast || b.fast)) || (a.flags = b.flags && a.fast = b.fast && a.hash = b.hash))

/-- The order of output blocks: tile, kind, identifier (R377). -/
def blockKey (h : BlockHash) : Nat := packBits [(64, h.ident.toNat), (3, h.kind.toNat), (7, h.tile.toNat)]

/-- The hash of a block in a list. -/
def hashAt (l : List BlockHash) (key : Nat) : Option (BitVec 64) := (l.find? fun h => blockKey h = key).map fun h => h.hash

/-- The lowest block whose hashes differ, by its key. -/
def lowestDiff (a b : List BlockHash) : Option Nat :=
  (((a ++ b).map blockKey).filter fun k => hashAt a k ≠ hashAt b k).min?

/-- The divergence detail (R377). -/
def divergenceDetail (ls : LsBlock) (a b : HashRec) (x y : List BlockHash) : Bytes :=
  let d := lowestDiff x y
  let key := d.getD (packBits [(64, 0), (3, 7), (7, 0x7F)])
  let at_ (l : List BlockHash) : Nat := (d.bind (hashAt l)).elim 0 BitVec.toNat
  natLe (packBits [
    (12, a.queue.val), (4, 0), (32, a.seq.toNat), (3, bits key 66 64), (7, bits key 73 67), (1, bnat (a.status ≠ b.status)),
    (1, bnat (a.flags ≠ b.flags || a.fast ≠ b.fast)), (4, 0), (64, bits key 63 0), (64, at_ x), (64, at_ y), (14, ls.peer.toNat), (2, 0),
    (3, ls.peerPart.toNat), (237, 0)]) 64

/-- A pair of records that disagrees: the first writes the divergence record, later ones count (R377). -/
def State.diverge (s : State) (p : PartId) (a b : HashRec) (x y : List BlockHash) : State :=
  let w := s.part p
  if w.diverged then
    let n := w.divergences.toNat + 1
    s.setPart p { w with divergences := BitVec.ofNat 32 (min n (2 ^ 32 - 1)), divSat := w.divSat || 2 ^ 32 - 1 ≤ n }
  else
    ((s.setPart p { w with diverged := true }).recordFault
      { kind := 0x05, status := 0, detail := some (divergenceDetail w.ls a b x y), context := s.contextId a.queue, seq := a.seq
        src := srcPart p, part := some p }).2

/-- Compare and drop every local record whose peer record has come (R375, R376). -/
def State.compareRecords (s : State) (p : PartId) : State :=
  let w := s.part p
  w.local_.foldl (fun a r =>
    let v := a.part p
    match v.peer_.find? fun e => e.1.queue = r.queue && e.1.seq = r.seq with
    | none => a
    | some (b, y) =>
      let x := ((v.localBlocks.find? fun e => e.1 = r.queue && e.2.1 = r.seq).map fun e => e.2.2).getD []
      let a1 := a.setPart p { v with local_ := v.local_.filter (· ≠ r), peer_ := v.peer_.filter fun e => e.1 ≠ b }
      if recordsAgree (v.lsState = 3) r b then a1 else a1.diverge p r b x y) s

/-- The newest 4,096 entries of one queue (R376). -/
def keepBlocks (q : QueueId) (l : List (QueueId × BitVec 32 × List BlockHash)) : List (QueueId × BitVec 32 × List BlockHash) :=
  let mine := (l.filter fun e => e.1 = q).take 4096
  mine ++ l.filter fun e => e.1 ≠ q

end Sys2Proof.Machine
end

