-- ==== Sys2Proof/Machine/SeqOps.lean ====
section
/-! DEFINITION. The tile sequencer's shared operations: fetching from the instruction store, legality of
encodings, the step every scalar instruction takes, events (R122 to R137, R145). -/

namespace Sys2Proof.Machine

/-- What a meaning answers. -/
abbrev Out := Host.Outcome State Fault Refusal

/-! ## Instruction store (R124) -/

/-- What a fetch finds. -/
inductive Fetch (n : Nat) where
  | word (v : BitVec n)
  | missing (block : Nat)
  | outside (off : Word)
deriving DecidableEq, Repr

/-- The held copy of a block. -/
def Seq.held (q : Seq) (b : Nat) : Option IBlock := q.store.find? fun x => x.block = b

/-- The 32-bit word at an image offset: outside the image, not held, or the held copy's word (R124). -/
def Seq.wordAt (q : Seq) (off : Word) : Fetch 32 :=
  if off.toNat + 4 > q.imgLen then .outside off
  else
    match q.held (off.toNat / 4096) with
    | none => .missing (off.toNat / 4096)
    | some b => .word (BitVec.ofNat 32 (leNat (bytesAt b.bytes (off.toNat % 4096) 4)))

/-- Fetch a 32-bit instruction. -/
def Seq.fetch32 (q : Seq) : Fetch 32 := q.wordAt q.pc

/-- Fetch a 64-bit instruction, its second word as bits 63:32 (R127). -/
def Seq.fetch64 (q : Seq) : Fetch 64 :=
  match q.wordAt q.pc with
  | .outside o => .outside o
  | .missing b => .missing b
  | .word lo =>
    match q.wordAt (q.pc + 4) with
    | .outside o => .outside o
    | .missing b => .missing b
    | .word hi => .word (hi ++ lo)

/-- A fetched block becomes the most recently used (R124). -/
def Seq.touch (q : Seq) (b : Nat) : Seq :=
  match q.held b with
  | none => q
  | some x => { q with store := q.store.filter (fun y => y.block ≠ b) ++ [x] }

/-- Whether a tile's sequencer may issue: a running program on a tile in service (R175, R413). -/
def Tile.canIssue (x : Tile) : Bool := x.seq.run = .running && x.cmd.isSome && !x.zeroing && !x.inReset

/-! ## Legal 32-bit encodings (R128) -/

/-- The alu functions of R128. -/
def aluFnOk (fn : Nat) : Bool := fn ≤ 0x008 || (0x00A ≤ fn && fn ≤ 0x013)

/-- Whether a 32-bit word is an encoding of R128; the first words of 64-bit instructions pass here. -/
def legal32 (w : BitVec 32) : Bool :=
  let v := w.toNat
  let d := bits v 25 21
  let a := bits v 20 16
  let b := bits v 15 11
  match opOf w with
  | 0x00 => aluFnOk (bits v 10 0) && bits v 10 0 ≠ 0x009
  | 0x01 | 0x02 | 0x03 | 0x04 | 0x06 | 0x07 => true
  | 0x05 => bits v 15 8 = 0 && bits v 7 6 ≠ 3
  | 0x08 => a = 0
  | 0x10 | 0x11 | 0x12 | 0x13 | 0x14 | 0x15 | 0x16 => true
  | 0x18 | 0x19 | 0x1A | 0x1B => true
  | 0x20 | 0x21 | 0x22 | 0x23 | 0x24 | 0x25 | 0x26 | 0x27 => true
  | 0x28 => b = 0 && bits v 10 0 = 0
  | 0x2C | 0x2D => d = 0 && a = 0
  | 0x2E => a = 0 && bits v 15 12 = 0
  | 0x2F => d = 0 && bits v 15 12 = 0
  | 0x30 => d = 0 && a = 0 && b = 0 && bits v 10 4 = 0
  | 0x31 => bits v 25 0 = 0
  | 0x32 => d = 0 && a = 0
  | 0x34 => d = 0 && bits v 15 6 = 0
  | 0x38 | 0x39 | 0x3A | 0x3B | 0x3C => true
  | _ => false

/-! ## The step of a scalar instruction -/

/-- Move the pc on. -/
def State.advance (s : State) (t : TileId) (n : Word) : State := s.updSeq t fun q => { q with pc := q.pc + n }

/-- Write a scalar register and move the pc on. -/
def State.writeReg (s : State) (t : TileId) (d : BitVec 5) (v : Word) (n : Word) : State :=
  s.updSeq t fun q => { q.setReg d v with pc := q.pc + n }

def State.reg (s : State) (t : TileId) (r : BitVec 5) : Word := (s.tile t).seq.reg r

/-- The fault of an illegal encoding, and of a fetch outside the image (R128, R145). -/
def State.illegal (s : State) (t : TileId) : State := s.tileFault t 0x01 0x1005 0 (s.tile t).seq.pc engSeq
def State.fetchFault (s : State) (t : TileId) (off : Word) : State := s.tileFault t 0x03 0x2003 0 off engSeq

/-- A 32-bit instruction command: its word must be the one fetched; `mine` says that the word is this
command's instruction. Otherwise nothing issues (notes/assumptions/5.md, 9.md). -/
def State.issue32 (s : State) (t : TileId) (w : BitVec 32) (mine : Bool) (f : State → State) : State :=
  let x := s.tile t
  if !x.canIssue then s
  else
    match x.seq.fetch32 with
    | .outside o => s.fetchFault t o
    | .missing _ => s
    | .word v =>
      if v ≠ w then s
      else if !legal32 w then s.illegal t
      else if !mine then s
      else f (s.updSeq t fun q => q.touch (q.pc.toNat / 4096))

/-- A 64-bit instruction command. `legal` is the legality of its own opcode's fields. -/
def State.issue64 (s : State) (t : TileId) (x : BitVec 64) (mine legal : Bool) (f : State → State) : State :=
  let y := s.tile t
  if !y.canIssue then s
  else
    match y.seq.fetch32 with
    | .outside o => s.fetchFault t o
    | .missing _ => s
    | .word lo =>
      if lo ≠ lowWord x then s
      else if !legal32 lo then s.illegal t
      else if !mine then s
      else
        match y.seq.fetch64 with
        | .outside o => s.fetchFault t o
        | .missing _ => s
        | .word v =>
          if v ≠ x then s
          else if !legal then s.illegal t
          else f (s.updSeq t fun q => q.touch (q.pc.toNat / 4096))

/-! ## Events (R137) -/

/-- Raise an event counter: past 0xFFFF it stays there and the program faults with the offset and the
engine given. -/
def State.raiseEvent (s : State) (t : TileId) (e : BitVec 4) (n : Nat) (off : Word) (engine : Byte) : State :=
  let v := ((s.tile t).seq.event e).toNat + n
  if v > 0xFFFF then
    (s.updSeq t fun q => q.setEvent e 0xFFFF).tileFault t 0x04 0x100D 0 off engine
  else s.updSeq t fun q => q.setEvent e (BitVec.ofNat 16 v)

/-- Whether the sequencer waits on an event with a count its counter has reached: it is served before
any engine (R137). -/
def Seq.claims (q : Seq) (e : BitVec 4) : Bool :=
  match q.run with
  | .waitEvent ev n => ev = e && n.toNat ≤ (q.event e).toNat
  | _ => false

/-! ## Engines (R132, R133, R137) -/

/-- An engine's issue queue and its depth. -/
def Tile.queueOf (x : Tile) (e : Engine) : List Issue :=
  match e with | .array => x.aq | .vector => x.vq | .dma => x.dq
def Tile.setQueueOf (x : Tile) (e : Engine) (l : List Issue) : Tile :=
  match e with | .array => { x with aq := l } | .vector => { x with vq := l } | .dma => { x with dq := l }
def queueDepth : Engine → Nat
  | .array => 8
  | .vector => 32
  | .dma => 16

/-- Whether an engine's queue has an instruction at its head that waits on an event. -/
def Tile.waitsOn (x : Tile) (e : Engine) (ev : BitVec 4) : Bool :=
  match x.queueOf e with
  | [] => false
  | i :: _ => fWv i.word && fWev i.word = ev

/-- Whether the head of an engine's queue may begin as far as its event goes: waiters are served in the
order sequencer, array, vector, DMA (R137). -/
def Tile.eventReady (x : Tile) (e : Engine) (i : Issue) : Bool :=
  !fWv i.word ||
    (let ev := fWev i.word
     x.seq.event ev ≠ 0 && !x.seq.claims ev &&
     match e with
     | .array => true
     | .vector => !x.waitsOn .array ev
     | .dma => !x.waitsOn .array ev && !x.waitsOn .vector ev)

/-- The head of an engine's queue leaves it, its event lowered by one (R133). -/
def State.leaveQueue (s : State) (t : TileId) (e : Engine) (i : Issue) : State :=
  s.updTile t fun x =>
    let y := x.setQueueOf e ((x.queueOf e).drop 1)
    if fWv i.word then { y with seq := y.seq.setEvent (fWev i.word) (y.seq.event (fWev i.word) - 1) } else y

/-- An operation's results are written; its completion is still to come (R133). -/
def State.opWritten (s : State) (t : TileId) (e : Engine) (word : BitVec 64) (pc : Word) (spans : List (Nat × Nat)) : State :=
  s.updTile t fun x => { x with finished := x.finished ++ [⟨e, word, pc, spans⟩] }

/-- The command of a tile names a tensor descriptor as a destination (R85). -/
def State.nameDest (s : State) (t : TileId) (a : Word) : State :=
  match s.tileCmd t with
  | none => s
  | some c => s.updCmd c fun x => if a = 0 ∨ x.dests.contains a then x else { x with dests := a :: x.dests }

/-- The command of a tile takes the fast-mode mark (R95). -/
def State.markFast (s : State) (t : TileId) : State :=
  match s.tileCmd t with
  | none => s
  | some c => s.updCmd c fun x => { x with fast := true }

/-! ## Ceiling slots (R167, R168) -/

/-- Flush one slot (R168): a byte of 0x00 performs no atomic. -/
def State.flushSlot (s : State) (t : TileId) (n : Nat) (sl : Slot) : State × Option Fail :=
  let r := if sl.ceiling = 0 then (s, none) else s.foldCeiling (some (dieOf t)) ((s.tilePart t).getD 0) sl.tdesc sl.ceiling
  (r.1.updTile t fun x => { x with vec := { x.vec with slots := mapPut none x.vec.slots n none } }, r.2)


/-- Flush a tile's ceiling slots: each folds its ceiling into its descriptor (R168); the first failure. -/
def State.flushSlots (s : State) (t : TileId) : State × Option Fail :=
  (s.tile t).vec.slots.foldl (fun (a : State × Option Fail) (e : Nat × Option Slot) =>
    match e.2 with
    | none => a
    | some sl =>
      let (s1, f) := a.1.flushSlot t e.1 sl
      (s1, a.2 <|> f)) (s, none)

end Sys2Proof.Machine
end

