-- ==== Sys2Proof/Machine/Launch.lean ====
section
/-! DEFINITION. Kernel launch: the launch block, starting a sequencer, the resident program of a
persistent queue and its work ring (R123, R126, R144, R250, R251, R264, R265). -/

namespace Sys2Proof.Machine

/-- A launch block (R250). -/
structure Launch where
  imgSrc : Nat
  imgLen : Nat
  imgDst : Nat
  entry : Nat
  argDst : Nat
  argSrc : Nat
  argLen : Nat
  ranges : List (Word × Nat)
  wring : Nat
deriving DecidableEq, Repr

/-- Range `i` of a launch block. -/
def launchRange (v i : Nat) : Nat × Nat := (bits v (575 + 128 * i) (512 + 128 * i), bits v (639 + 128 * i) (576 + 128 * i))

/-- The fields of a launch block's 320 bytes, checked by R266: reserved 0x1002, limits 0x1003. -/
def launchOf (b : Bytes) (persist : Bool) : Except Fail Launch :=
  let v := leNat b
  let n := bits v 276 272
  let l : Launch :=
    { imgSrc := bits v 63 0, imgLen := bits v 95 64, imgDst := bits v 127 96, entry := bits v 159 128
      argDst := bits v 191 160, argSrc := bits v 255 192, argLen := bits v 271 256
      ranges := (upTo n).map fun i => (BitVec.ofNat 64 (launchRange v i).1, (launchRange v i).2)
      wring := bits v 319 288 }
  if bits v 287 277 ≠ 0 ∨ bits v 511 320 ≠ 0 then .error { status := 0x1002 }
  else if l.imgLen < 4 ∨ l.imgLen > mib ∨ l.imgLen % 4 ≠ 0 ∨ l.imgDst % 4096 ≠ 0 ∨ l.imgDst + l.imgLen > scratchSize
      ∨ l.entry % 4 ≠ 0 ∨ l.entry ≥ l.imgLen ∨ l.argDst % 64 ≠ 0 ∨ l.argLen > 32768
      ∨ l.argDst + l.argLen > scratchSize ∨ n > 16
      ∨ (upTo 16).any (fun i => n ≤ i && launchRange v i ≠ (0, 0))
      ∨ (if persist then l.wring = 0 ∨ l.wring % 4096 ≠ 0 ∨ l.wring + 4096 > scratchSize else l.wring ≠ 0) then
    .error { status := 0x1003 }
  else .ok l

/-- Read a launch block at the stack agent (R250). -/
def State.readLaunch (s : State) (q : QueueId) (a : Nat) (persist : Bool) : Except Fail Launch :=
  if a % 64 ≠ 0 then .error { status := 0x1003, addr := BitVec.ofNat 64 a }
  else
    match s.vread (s.queuePart q) a 320 with
    | .error e => .error e
    | .ok b => launchOf b persist

/-- The image and the argument block as the front end reads them (R251). -/
def State.readImage (s : State) (q : QueueId) (l : Launch) : Except Fail (Bytes × Bytes) :=
  match s.vread (s.queuePart q) l.imgSrc l.imgLen, s.vread (s.queuePart q) l.argSrc l.argLen with
  | .ok i, .ok a => .ok (i, a)
  | .error e, _ => .error e
  | _, .error e => .error e

/-- Whether a tile can take a kernel: no command on it, in service, its scratchpad zeroed (R175, R262, R413). -/
def State.tileReady (s : State) (t : TileId) : Bool :=
  let x := s.tile t
  x.cmd = none && !x.zeroing && !x.inReset && !x.fenced && !(s.die (dieOf t)).fenced && !(s.die (dieOf t)).inReset
    && (s.die (dieOf t)).pstate = 0

/-- The sequencer at the start of a kernel (R123): the tile's place in the launch, the instruction store
and its half (R126). -/
def Seq.launched (old : Seq) (l : Launch) (q : QueueId) (seq : BitVec 32) (rank count : Nat) (resident halved : Bool)
    (staged : Option Preload) : Seq :=
  { run := .running, pc := BitVec.ofNat 64 l.entry, regs := mapPut 0 [] 1 (BitVec.ofNat 64 l.argDst), events := []
    rank := BitVec.ofNat 64 rank, count := BitVec.ofNat 64 count, queue := BitVec.ofNat 12 q.val, seq := seq
    cycles := 0, workRing := BitVec.ofNat 32 l.wring, faultInfo := 0, imgBase := l.imgDst, imgLen := l.imgLen
    store := (staged.map fun p => p.blocks).getD [], half := if halved then !old.half else old.half
    halved := halved, preload := none, resident := resident, issued := 0 }

/-- Start one tile (R123, R147, R251): image and arguments in its scratchpad, flags clear, vector state zero.
A staged preload of this command supplies the instruction store and the arguments (R264). -/
def State.startTile (s : State) (t : TileId) (l : Launch) (img args : Bytes) (c : CmdId) (seq : BitVec 32)
    (rank count : Nat) (resident halved : Bool) : State :=
  s.updTile t fun x =>
    let staged := x.seq.preload.filter fun p => p.queue = c.queue && p.seq = seq && halved
    let y := (x.scratchWrite l.imgDst img).scratchWrite l.argDst ((staged.map fun p => p.args).getD args)
    { y with
      seq := x.seq.launched l c.queue seq rank count resident halved staged
      flags := 0, fret := 0, aq := [], vq := [], dq := [], finished := [], vec := {}, cmd := some c
      arr := { y.arr with ordinals := 0, stopped := false }
      dma := { y.dma with stopped := false, ordinals := 0 } }

/-- Start a launch on its tiles in rank order. -/
def State.startTiles (s : State) (l : Launch) (img args : Bytes) (c : CmdId) (seq : BitVec 32) (count : Nat)
    (resident halved : Bool) : Nat → List TileId → State
  | _, [] => s
  | r, t :: ts => (s.startTile t l img args c seq r count resident halved).startTiles l img args c seq count resident halved (r + 1) ts

/-- `n` consecutive logical tiles; none where they pass tile 95 or there are none. -/
def tileSpan (first n : Nat) : Option (List TileId) :=
  if n = 0 then none else (upTo n).mapM fun i => TileId.ofNat? (first + i)

/-! ## Persistent mode (R144, R265) -/

/-- The tiles of a queue's resident program. -/
def QueueCfg.residents (c : QueueCfg) : List TileId := (tileSpan c.pFirst.toNat c.pTiles.toNat).getD []

/-- The command number of a queue's resident program. -/
def residentId (q : QueueId) : CmdId := ⟨q, 0⟩

/-- Whether a queue's resident program runs on every one of its tiles. -/
def State.residentUp (s : State) (q : QueueId) : Bool :=
  match (s.queue q).cfg with
  | none => false
  | some c => c.residents.all fun t => (s.tile t).cmd = some (residentId q) && (s.tile t).seq.resident

/-- Deliver a kernel record to one resident tile (R144): the record enters its slot of the work ring, and
event 15 rises by one. -/
def State.deliver (s : State) (x : Cmd) (t : TileId) : State :=
  let q := (s.tile t).seq
  (s.updTile t fun y => y.scratchWrite (q.workRing.toNat + 64 * (x.seq.toNat % 64)) x.record).raiseEvent t 15 1 q.pc engSeq

/-- Entries that the resident program has not completed are delivered again after a relaunch
(notes/assumptions/29.md). -/
def State.redeliver (s : State) (q : QueueId) : State :=
  (s.queue q).cmds.foldl (fun a x =>
    if x.opcode = 2 ∧ x.stage = .begun then x.tiles.foldl (fun b t => b.deliver x t) a else a) s

/-- Launch the resident program of a running persistent queue where its tiles are free (R265). A launch
that fails halts the queue (notes/assumptions/29.md). -/
def State.launchResident (s : State) (q : QueueId) : State :=
  let x := s.queue q
  match x.cfg with
  | none => s
  | some c =>
    if !c.persist || x.state ≠ qRunning || x.halting.isSome || s.residentUp q then s
    else if !(c.residents.all s.tileReady) then s
    else
      match s.readLaunch q c.pLaunch.toNat true with
      | .error _ => s.haltQueue q 0x01
      | .ok l =>
        match s.readImage q l with
        | .error _ => s.haltQueue q 0x01
        | .ok (img, args) =>
          (s.startTiles l img args (residentId q) 0 c.residents.length true false 0 c.residents).redeliver q

/-! ## Preload staging (R264) -/

/-- Split image bytes into the blocks of the instruction store. -/
def imageBlocks (b : Bytes) : List IBlock :=
  (upTo ((min b.length 131072 + 4095) / 4096)).map fun i => ⟨i, putBytes [] 0 ((b.drop (4096 * i)).take 4096)⟩

/-- Stage a next kernel of the same queue on the tiles of it that run the current one (R264). -/
def State.stagePreload (s : State) (q : QueueId) (x : Cmd) : State :=
  match (s.queue q).cfg with
  | none => s
  | some c =>
    if c.persist || c.nopre || x.opcode ≠ 2 || x.depth ≠ 0 then s
    else
      match tileSpan (x.field 134 128) (x.field 142 136), s.readLaunch q (x.field 127 64) false with
      | some ts, .ok l =>
        if l.argLen > 4096 then s
        else
          match s.readImage q l with
          | .error _ => s
          | .ok (img, args) =>
            ts.foldl (fun a t =>
              if ((a.tile t).cmd.any fun k => k.queue = q) && (a.tile t).seq.preload.isNone && !(a.tile t).seq.resident then
                a.updSeq t fun y => { y with preload := some ⟨q, x.seq, imageBlocks img, args⟩ }
              else a) s
      | _, _ => s

end Sys2Proof.Machine
end

