-- ==== Sys2Proof/Machine/TileFlow.lean ====
section
/-! DEFINITION. Control flow of a tile program: branches, jumps, tile events, status registers, sync, end,
trap and wdone (R128, R131, R137, R142, R144, R145). -/

namespace Sys2Proof.Machine

/-! ## Branches and jumps (R127, R128) -/

/-- pc + 4 × off, for a branch's 16-bit and a jump's 26-bit offset. -/
def branchTo (pc : Word) (w : BitVec 32) : Word := pc + (immS w <<< 2)
def jumpTo (pc : Word) (w : BitVec 32) : Word := pc + ((fOff26 w).signExtend 64 <<< 2)

def State.setPc (s : State) (t : TileId) (pc : Word) : State := s.updSeq t fun q => { q with pc := pc }

/-- A conditional branch: form B holds a in bits 25:21 and b in bits 20:16. -/
def State.branch (s : State) (t : TileId) (w : BitVec 32) (code : Nat) (c : Word → Word → Bool) : State :=
  s.issue32 t w (opOf w = code) fun s =>
    let pc := (s.tile t).seq.pc
    s.setPc t (if c (s.reg t (fD w)) (s.reg t (fA w)) then branchTo pc w else pc + 4)

/-- R128 op 0x20. -/
def execBeq (t : TileId) (w : BitVec 32) (s : State) : Out := .next (s.branch t w 0x20 (· == ·))
/-- R128 op 0x21. -/
def execBne (t : TileId) (w : BitVec 32) (s : State) : Out := .next (s.branch t w 0x21 (· != ·))
/-- R128 op 0x22. -/
def execBlt (t : TileId) (w : BitVec 32) (s : State) : Out := .next (s.branch t w 0x22 fun a b => a.slt b)
/-- R128 op 0x23. -/
def execBge (t : TileId) (w : BitVec 32) (s : State) : Out := .next (s.branch t w 0x23 fun a b => !a.slt b)
/-- R128 op 0x24. -/
def execBltu (t : TileId) (w : BitVec 32) (s : State) : Out := .next (s.branch t w 0x24 fun a b => a.ult b)
/-- R128 op 0x25. -/
def execBgeu (t : TileId) (w : BitVec 32) (s : State) : Out := .next (s.branch t w 0x25 fun a b => !a.ult b)

/-- R128 op 0x26: pc = pc + 4 × sext(off). -/
def execJmp (t : TileId) (w : BitVec 32) (s : State) : Out :=
  .next (s.issue32 t w (opOf w = 0x26) fun s => s.setPc t (jumpTo (s.tile t).seq.pc w))

/-- R128 op 0x27: s31 = pc + 4, then the jump. -/
def execCall (t : TileId) (w : BitVec 32) (s : State) : Out :=
  .next (s.issue32 t w (opOf w = 0x27) fun s =>
    s.updSeq t fun q => { q.setReg 31 (q.pc + 4) with pc := jumpTo q.pc w })

/-- R128 op 0x28: d = pc + 4; pc = the value a held before. A misaligned target faults at the jr. -/
def execJr (t : TileId) (w : BitVec 32) (s : State) : Out :=
  .next (s.issue32 t w (opOf w = 0x28) fun s =>
    let q := (s.tile t).seq
    let a := q.reg (fA w)
    if a.toNat % 4 ≠ 0 then s.tileFault t 0x03 0x2003 0 q.pc engSeq
    else s.updSeq t fun q => { q.setReg (fD w) (q.pc + 4) with pc := a })

/-! ## Tile events (R137) -/

/-- The event and the count of an evsig or evwait. -/
def evNum (w : BitVec 32) : BitVec 4 := w.extractLsb' 0 4
def evCount (w : BitVec 32) : BitVec 12 := w.extractLsb' 4 12

/-- R137: event imm[3:0] rises by imm[15:4]. -/
def execEvsig (t : TileId) (w : BitVec 32) (s : State) : Out :=
  .next (s.issue32 t w (opOf w = 0x2C) fun s =>
    (s.advance t 4).raiseEvent t (evNum w) (evCount w).toNat (s.tile t).seq.pc engSeq)

/-- Lower an event that a wait has found high enough, and go on. -/
def State.takeEvent (s : State) (t : TileId) (e : BitVec 4) (n : BitVec 12) : State :=
  s.updSeq t fun q => { q.setEvent e (q.event e - n.setWidth 16) with pc := q.pc + 4, run := .running }

/-- R137: wait until event imm[3:0] reaches imm[15:4], then subtract it. -/
def execEvwait (t : TileId) (w : BitVec 32) (s : State) : Out :=
  .next (s.issue32 t w (opOf w = 0x2D) fun s =>
    if (evCount w).toNat ≤ ((s.tile t).seq.event (evNum w)).toNat then s.takeEvent t (evNum w) (evCount w)
    else s.updSeq t fun q => { q with run := .waitEvent (evNum w) (evCount w) })

/-- R137: a waiting evwait whose event has reached its count. -/
def State.evwaitRelease (s : State) (t : TileId) : State :=
  let x := s.tile t
  match x.seq.run with
  | .waitEvent e n => if n.toNat ≤ (x.seq.event e).toNat ∧ !x.inReset then s.takeEvent t e n else s
  | _ => s

def execEvwaitRelease (t : TileId) (s : State) : Out := .next (s.evwaitRelease t)

/-! ## Status registers (R131) -/

/-- The command that QUEUE_SEQ names: the launch's, or the oldest entry of a resident program. -/
def State.seqOf (s : State) (t : TileId) : BitVec 32 :=
  if (s.tile t).seq.resident then
    match s.tileCmd t with
    | some c => (s.cmd? c).elim 0 fun x => x.seq
    | none => 0
  else (s.tile t).seq.seq

/-- The value of a status register; an index not listed reads as zero. -/
def State.statusReg (s : State) (t : TileId) (i : Nat) : Word :=
  let x := s.tile t
  let q := x.seq
  match i with
  | 0x000 => BitVec.ofNat 64 t.val
  | 0x001 => q.rank
  | 0x002 => q.count
  | 0x003 => BitVec.ofNat 64 ((s.tilePart t).elim 0 Fin.val)
  | 0x004 => BitVec.ofNat 64 (packBits [(32, (s.seqOf t).toNat), (12, q.queue.toNat)])
  | 0x008 => BitVec.ofNat 64 (q.cycles / 40)
  | 0x009 => s.stamp
  | 0x020 => BitVec.ofNat 64 (packBits [(8, x.aq.length), (8, x.vq.length), (8, x.dq.length)])
  | 0x021 => x.flags.setWidth 64
  | 0x022 => x.fret
  | 0x028 => q.workRing.setWidth 64
  | 0x030 => q.faultInfo
  | _ => if 0x010 ≤ i ∧ i < 0x020 then (q.event (BitVec.ofNat 4 i)).setWidth 64 else 0

/-- R131 srrd: d = status register imm[11:0]. -/
def execSrrd (t : TileId) (w : BitVec 32) (s : State) : Out :=
  .next (s.issue32 t w (opOf w = 0x2E) fun s => s.writeReg t (fD w) (s.statusReg t (bits w.toNat 11 0)) 4)

/-- A write of a status register: an event counter is set, ARITH_FLAGS clears the bits written 1, every
other index ignores it. -/
def Tile.writeStatus (x : Tile) (i : Nat) (v : Word) : Tile :=
  if i = 0x021 then x.clearFlags (v.setWidth 16)
  else if 0x010 ≤ i ∧ i < 0x020 then { x with seq := x.seq.setEvent (BitVec.ofNat 4 i) (v.setWidth 16) }
  else x

/-- The command's arithmetic flags keep what a tile raised when the tile's own bits are cleared: operations
raise into the command's flags too (R58, R82; DEDUCED, notes/assumptions/70.md). -/
def State.keepFlags (s : State) (t : TileId) : State :=
  match (s.tile t).cmd with
  | none => s
  | some c => s.updCmd c fun y => { y with flags := y.flags ||| (s.tile t).flags }

/-- R131 srwr: status register imm[11:0] = a. -/
def execSrwr (t : TileId) (w : BitVec 32) (s : State) : Out :=
  .next (s.issue32 t w (opOf w = 0x2F) fun s =>
    let s1 := if bits w.toNat 11 0 = 0x021 then s.keepFlags t else s
    (s1.updTile t fun x => x.writeStatus (bits w.toNat 11 0) (x.seq.reg (fA w))).advance t 4)

/-! ## sync (R128, R125) -/

/-- Whether an engine's queue has drained: no instruction in it and no operation begun from it that has
not completed (DEDUCED from R207, notes/assumptions/30.md). -/
def Tile.drained (x : Tile) (e : Engine) : Bool :=
  !(x.finished.any fun o => o.engine = e) &&
  match e with
  | .array => x.aq.isEmpty && x.arr.panes.all fun p => p.2.instr.isNone
  | .vector => x.vq.isEmpty
  | .dma => x.dq.isEmpty && x.dma.ops.all fun o => o.cmd.isSome

/-- The engines of a sync's fn[2:0]. -/
def Tile.drainedAll (x : Tile) (m : BitVec 3) : Bool :=
  (!m.getLsbD 0 || x.drained .array) && (!m.getLsbD 1 || x.drained .vector) && (!m.getLsbD 2 || x.drained .dma)

/-- A sync is over: with isync = 1 every held block is discarded (R125). -/
def State.syncDone (s : State) (t : TileId) (isync : Bool) : State :=
  s.updSeq t fun q => { q with run := .running, pc := q.pc + 4, store := if isync then [] else q.store }

/-- R128 op 0x30. -/
def execSync (t : TileId) (w : BitVec 32) (s : State) : Out :=
  .next (s.issue32 t w (opOf w = 0x30) fun s =>
    if (s.tile t).drainedAll (w.extractLsb' 0 3) then s.syncDone t (w.getLsbD 3)
    else s.updSeq t fun q => { q with run := .waitSync (w.extractLsb' 0 3) })

/-- R128: the queues that a sync waits on have drained. -/
def State.syncRelease (s : State) (t : TileId) : State :=
  let x := s.tile t
  match x.seq.run with
  | .waitSync m =>
    if x.drainedAll m ∧ !x.inReset then
      s.syncDone t (match x.seq.fetch32 with | .word v => v.getLsbD 3 | _ => false)
    else s
  | _ => s

def execSyncRelease (t : TileId) (s : State) : Out := .next (s.syncRelease t)

/-! ## end, trap (R142, R145) -/

/-- R142: the tile program ends and waits for the operations it issued. -/
def execEndProgram (t : TileId) (w : BitVec 32) (s : State) : Out :=
  .next (s.issue32 t w (opOf w = 0x31) fun s => s.updSeq t fun q => { q with run := .ended })

/-- A tile reports done: with the last one the command's work ends (R142). -/
def State.tileReports (s : State) (t : TileId) (c : CmdId) : State :=
  let s1 := (s.updSeq t fun q => { q with run := .done }).updCmd c fun x => { x with tiles := x.tiles.filter (· ≠ t) }
  match s1.cmd? c with
  | none => s1
  | some x => if x.tiles.isEmpty then s1.endWork c 0 else s1

/-- A resident program that has ended on every tile is launched again (R265). -/
def State.residentEnds (s : State) (t : TileId) (r : CmdId) : State :=
  let s1 := s.updSeq t fun q => { q with run := .done }
  match (s1.queue r.queue).cfg with
  | none => s1
  | some c =>
    if c.residents.all fun u => (s1.tile u).seq.run = .done then
      (c.residents.foldl (fun a u => a.updTile u Tile.clearProgram) s1).launchResident r.queue
    else s1

/-- R142: every operation of an ended tile has completed; its ceiling slots flush and it reports done. -/
def State.tileDone (s : State) (t : TileId) : State :=
  let x := s.tile t
  match x.cmd with
  | none => s
  | some c =>
    if x.seq.run ≠ .ended ∨ x.seq.issued ≠ 0 ∨ x.inReset then s
    else
      match (s.closeStores t).flushSlots t with
      | (s1, some e) => s1.failTile t e engVector
      | (s1, none) => if x.seq.resident then s1.residentEnds t c else s1.tileReports t c

/-- R145 cause 0x05: the trap code goes to FAULT_INFO. -/
def execTrap (t : TileId) (w : BitVec 32) (s : State) : Out :=
  .next (s.issue32 t w (opOf w = 0x32) fun s => s.tileFault t 0x05 0x907F (fImm w) (s.tile t).seq.pc engSeq)

/-! ## wdone (R144, R265) -/

/-- Whether a tile program may give a status (R421). -/
def wdoneOk (st : BitVec 16) : Bool := st = 0 || (0x9080 ≤ st.toNat && st.toNat ≤ 0x90FF)

/-- The entry that a wdone completes: the queue's delivered kernel record with that number modulo 64. -/
def State.entryOf (s : State) (t : TileId) (q : QueueId) (e : BitVec 6) : Option CmdId :=
  ((s.queue q).cmds.find? fun x =>
    x.opcode = 2 && x.stage = .begun && x.seq.setWidth 6 = e && x.tiles.contains t).map fun x => ⟨q, x.id⟩

/-- The nonzero status of the lowest rank that gave one, or success (R265). -/
def wdoneStatus (l : List (Nat × BitVec 16)) : BitVec 16 :=
  match l.foldl (fun (b : Option (Nat × BitVec 16)) r =>
      if r.2 = 0 then b else match b with
        | none => some r
        | some o => if r.1 < o.1 then some r else b) none with
  | none => 0
  | some r => r.2

/-- One tile has completed an entry with a status (R144, R265, R421). -/
def State.entryDone (s : State) (t : TileId) (c : CmdId) (st : BitVec 16) : State :=
  let x := s.tile t
  let s1 := ((s.closeStores t).updCmd c fun y =>
    { y with wdone := (x.seq.rank.toNat, st) :: y.wdone, tiles := y.tiles.filter (· ≠ t), flags := y.flags ||| x.flags }).updTile t
      fun z => { z with flags := 0, vec := { z.vec with ordinal := 0 }, arr := { z.arr with ordinals := 0 }
                        dma := { z.dma with ordinals := 0 } }
  match s1.cmd? c with
  | none => s1
  | some y =>
    if !y.tiles.isEmpty then s1
    else
      let f := wdoneStatus y.wdone
      if f = 0 then s1.endWork c 0
      else s1.failCmd c { status := if wdoneOk f then f else 0x100C, mech := if wdoneOk f then 0x20 else 0 } engSeq (some t)

/-- Slots flush and the entry completes (R144, R168). -/
def State.wdoneFinish (s : State) (t : TileId) (e : BitVec 6) (st : BitVec 16) : State :=
  match s.flushSlots t with
  | (s1, some f) => s1.failTile t f engVector
  | (s1, none) =>
    let s2 := s1.updSeq t fun q => { q with run := .running, pc := q.pc + 4 }
    match (s.tile t).cmd.filter fun _ => (s.tile t).seq.resident with
    | none => s2
    | some r =>
      match s2.entryOf t r.queue e with
      | none => s2
      | some c => s2.entryDone t c st

/-- R144: wdone waits for the operations issued since the previous one, then completes its entry.
Outside persistent mode there is no entry to complete (notes/assumptions/29.md). -/
def execWdone (t : TileId) (w : BitVec 32) (s : State) : Out :=
  .next (s.issue32 t w (opOf w = 0x34) fun s =>
    let st := (s.reg t (fA w)).setWidth 16
    let e := w.extractLsb' 0 6
    if (s.tile t).seq.issued = 0 then s.wdoneFinish t e st
    else s.updSeq t fun q => { q with run := .waitWdone e st })

end Sys2Proof.Machine
end

