-- ==== Sys2Proof/Machine/VecOps.lean ====
section
/-! DEFINITION. The vector engine's encodings, lanes, registers and element operations (R147 to R161). -/

namespace Sys2Proof.Machine

/-! ## Lanes (R148) -/

/-- Lane types. -/
inductive Lane where
  | fp32 | fp64 | bf16 | fp16 | int32 | fret64
deriving DecidableEq, Repr

def laneOf : Nat → Option Lane
  | 0 => some .fp32 | 1 => some .fp64 | 2 => some .bf16 | 3 => some .fp16 | 4 => some .int32 | 5 => some .fret64
  | _ => none

def Lane.width : Lane → Nat
  | .fp32 | .int32 => 32
  | .fp64 | .fret64 => 64
  | .bf16 | .fp16 => 16

/-- Elements per register. -/
def Lane.count (l : Lane) : Nat := 4096 / l.width

/-- The element format of a lane type; none for INT32, which has no format byte. -/
def Lane.elem : Lane → Option Elem
  | .fp32 => some .fp32 | .fp64 => some .fp64 | .bf16 => some .bf16 | .fp16 => some .fp16
  | .fret64 => some .fret64 | .int32 => none

def Lane.floating : Lane → Bool
  | .fp32 | .fp64 | .bf16 | .fp16 => true
  | _ => false

/-- BF16 and FP16, whose operations go through FP32 (R153). -/
def Lane.half : Lane → Bool
  | .bf16 | .fp16 => true
  | _ => false

/-! ## Fields of the vec instruction (R150) -/

structure VF where
  vop : Nat
  vb : Nat
  aux : Nat
  mreg : Nat
  ety : Nat
  rc : Nat
  cslot : Nat
  vd : Nat
  va : Nat
  cls : Nat
deriving DecidableEq, Repr

def vecFields (x : BitVec 64) : VF :=
  let v := x.toNat
  { vop := bits v 63 58, vb := bits v 57 53, aux := bits v 52 45, mreg := bits v 44 42, ety := bits v 41 39
    rc := bits v 38 35, cslot := bits v 34 32, vd := bits v 25 21, va := bits v 20 16, cls := bits v 15 14 }

/-- The lane type; a legal instruction has one. -/
def VF.lane (f : VF) : Lane := (laneOf f.ety).getD .fp32

/-- The rounding control of a legal instruction. -/
def VF.rctl (f : VF) : RCtl := (rctlOf (BitVec.ofNat 8 f.rc)).getD .rne

/-- Register operations and the lane types that take them (R152, R154). -/
def regLegal (f : VF) (l : Lane) : Bool :=
  match f.vop with
  | 0x00 | 0x01 => true
  | 0x02 => l ≠ .fret64
  | 0x03 | 0x04 | 0x05 | 0x06 | 0x09 | 0x0A => l.floating
  | 0x07 | 0x08 | 0x0B | 0x0C | 0x0E | 0x11 | 0x12 | 0x13 | 0x17 | 0x18 => true
  | 0x0D =>
    bits f.vd 4 3 = 0 && bits f.vd 2 0 ≠ 0 && bits f.aux 7 5 = 0 && bits f.aux 3 3 = 0 &&
      (l.floating || bits f.aux 2 0 < 6)
  | 0x0F =>
    match laneOf (bits f.aux 2 0) with
    | none => false
    | some k => bits f.aux 7 3 = 0 && ((k = .fret64 && l = .fret64) || (k ≠ .fret64 && l ≠ .fret64 && k ≠ l))
  | 0x10 => (l = .fp32 || l.half) && f.aux ≤ 9
  | 0x14 | 0x15 | 0x16 => !l.floating
  | 0x19 => l = .int32
  | _ => false

/-- Formats that a lane type moves to and from (R160). -/
def laneFormatOk (l : Lane) (f : Format) : Bool :=
  f.elem ≠ .fret128 &&
  match l with
  | .int32 => f.blk = .none && (f.elem = .fp32 || f.elem = .int8 || f.elem = .uint8 || f.elem = .int4)
  | .fret64 => f.blk = .none && f.elem = .fret64
  | _ => true

/-- Memory and scalar operations (R159, R160). -/
def memLegal (f : VF) (l : Lane) : Bool :=
  match f.vop with
  | 0x00 | 0x01 => (formatOf (BitVec.ofNat 8 f.aux)).any fun g => laneFormatOk l g
  | 0x02 | 0x03 => (formatOf (BitVec.ofNat 8 f.aux)).any fun g => laneFormatOk l g && g.blk = .none && 8 ≤ g.elem.width
  | 0x04 | 0x06 | 0x07 => true
  | 0x05 => f.aux < l.count
  | 0x08 => f.aux ≤ 7 && f.aux ≠ 0
  | _ => false

/-- Tile operations (R162 to R165). Functions other than identity take the lane types of fun. -/
def tileLegal (f : VF) (l : Lane) : Bool :=
  f.vb = 0 && f.vd = 0 && f.mreg = 0 && f.cslot = 0 &&
  match f.vop with
  | 0x00 => bits f.aux 5 0 ≤ 9 && (bits f.aux 5 0 = 0 || l = .fp32 || l.half)
  | 0x02 => bits f.aux 1 0 ≠ 3
  | 0x03 => true
  | _ => false

/-- The encoding of R150. -/
def vecLegal (x : BitVec 64) : Bool :=
  let f := vecFields x
  bits x.toNat 3 0 = 0 && f.rc % 8 < 5 && (f.rc % 8 ≠ 4 || f.cls = 1) &&
  match laneOf f.ety with
  | none => false
  | some l =>
    match f.cls with
    | 0 => regLegal f l
    | 1 => tileLegal f l
    | 2 => memLegal f l
    | _ => false

/-! ## Registers (R147 to R149) -/

def Vec.word (v : Vec) (r i : Nat) : Nat := (mapGet 0 v.regs (128 * r + i)).toNat
def Vec.setWord (v : Vec) (r i x : Nat) : Vec := { v with regs := mapPut 0 v.regs (128 * r + i) (BitVec.ofNat 32 x) }

/-- Element i of register r, as bits. -/
def Vec.elem (v : Vec) (l : Lane) (r i : Nat) : Nat :=
  match l.width with
  | 16 => v.word r (i / 2) / 2 ^ (16 * (i % 2)) % 2 ^ 16
  | 32 => v.word r i
  | _ => v.word r (2 * i) + 2 ^ 32 * v.word r (2 * i + 1)

def Vec.setElem (v : Vec) (l : Lane) (r i x : Nat) : Vec :=
  match l.width with
  | 16 =>
    let w := v.word r (i / 2)
    v.setWord r (i / 2) (if i % 2 = 0 then w / 2 ^ 16 * 2 ^ 16 + x % 2 ^ 16 else w % 2 ^ 16 + x % 2 ^ 16 * 2 ^ 16)
  | 32 => v.setWord r i x
  | _ => (v.setWord r (2 * i) (x % 2 ^ 32)).setWord r (2 * i + 1) (x / 2 ^ 32)

/-- Bit i of a mask register; k0 reads as all ones. -/
def Vec.on (v : Vec) (k i : Nat) : Bool := k = 0 || (mapGet 0 v.masks k).getLsbD i

/-- A mask register written; k0 is never written. -/
def Vec.setMask (v : Vec) (k : Nat) (m : BitVec 256) : Vec :=
  if k = 0 then v else { v with masks := mapPut 0 v.masks k m }

/-- The elements that an instruction operates on. -/
def Vec.lanesOn (v : Vec) (l : Lane) (k : Nat) : List Nat := (upTo l.count).filter (v.on k)

/-! ## Elements -/

/-- The value of an element (R148); fret64 in units. -/
def laneVal (l : Lane) (b : Nat) : Val :=
  match l.elem with
  | some e => decodeElem e 0 b
  | none => .ofInt (signed 32 b) 0

/-- A value converted to INT32 by R61 to R63. -/
def toInt32 (c : RCtl) (v : Val) : Nat × BitVec 16 :=
  let lo := unsigned 32 (-(2 ^ 31 : Nat))
  let hi := 2 ^ 31 - 1
  match v with
  | .nan _ => (0, flInvalid ||| flNanZero)
  | .inf neg => (if neg then lo else hi, flNarrowSat)
  | .num neg m e =>
    let (n, inex) := roundUnits c.rnd neg 0 m e 0
    let raised := flOverflow ||| flInexact ||| flNarrowSat
    if neg && n > 2 ^ 31 then (lo, raised)
    else if !neg && n ≥ 2 ^ 31 then (hi, raised)
    else (unsigned 32 (if neg then -(n : Int) else n), flagIf inex flInexact)

/-- A value converted to a lane type (R59 to R65). -/
def laneEnc (l : Lane) (c : RCtl) (v : Val) : Nat × BitVec 16 :=
  match l.elem with
  | some e => convert e false c 0 0 v
  | none => toInt32 c v

/-- The result of a floating operation in its lane type: BF16 and FP16 round to FP32 first (R153). -/
def laneRound (l : Lane) (c : RCtl) (r : Val × BitVec 16) : Nat × BitVec 16 :=
  if l.half then
    let (b, f1) := toFp32 r.1
    let (y, f2) := laneEnc l c (decodeElem .fp32 0 b)
    (y, r.2 ||| f1 ||| f2)
  else
    let (y, f) := laneEnc l c r.1
    (y, r.2 ||| f)

/-- Whether an exact zero sum takes a negative sign: the operation itself rounds down (R55, R153). -/
def zeroDown (l : Lane) (c : RCtl) : Bool := !l.half && c.rnd = .down

/-- fret64 saturation (R154). -/
def satFret (n : Int) : Nat × BitVec 16 :=
  let lo : Int := -(2 ^ 63 : Nat)
  let hi : Int := (2 ^ 63 - 1 : Nat)
  if n < lo then (unsigned 64 lo, flOverflow ||| flNarrowSat)
  else if n > hi then (unsigned 64 hi, flOverflow ||| flNarrowSat)
  else (unsigned 64 n, 0)

/-- What an element operation reads: the three sources, the element number, a free value and a free
choice, and, for BF16 and FP16 elements past word 127, a free index word. -/
structure VArgs where
  a : Nat
  b : Nat
  d : Nat
  i : Nat
  free : BitVec 64
  choice : Bool
  idx : Int
deriving DecidableEq, Repr

/-- add and sub (R152 to R154). -/
def addE (neg : Bool) (l : Lane) (c : RCtl) (x : VArgs) : Nat × BitVec 16 :=
  match l with
  | .int32 => ((if neg then x.a + 2 ^ 32 - x.b else x.a + x.b) % 2 ^ 32, 0)
  | .fret64 => satFret (if neg then signed 64 x.a - signed 64 x.b else signed 64 x.a + signed 64 x.b)
  | _ =>
    let b := laneVal l x.b
    laneRound l c (addVal (zeroDown l c) (laneVal l x.a) (if neg then b.negate else b))

/-- mul; INT32 keeps the low 32 bits. -/
def mulE (l : Lane) (c : RCtl) (x : VArgs) : Nat × BitVec 16 :=
  match l with
  | .int32 => (x.a * x.b % 2 ^ 32, 0)
  | _ => laneRound l c (mulVal (laneVal l x.a) (laneVal l x.b))

/-- fma and fnma: one rounding. -/
def fmaE (neg : Bool) (l : Lane) (c : RCtl) (x : VArgs) : Nat × BitVec 16 :=
  let a := laneVal l x.a
  laneRound l c (fmaVal (zeroDown l c) (if neg then a.negate else a) (laneVal l x.b) (laneVal l x.d))

def divE (l : Lane) (c : RCtl) (x : VArgs) : Nat × BitVec 16 := laneRound l c (divVal (laneVal l x.a) (laneVal l x.b))
def sqrtE (l : Lane) (c : RCtl) (x : VArgs) : Nat × BitVec 16 := laneRound l c (sqrtVal (laneVal l x.a))

/-- The smaller or larger of two numbers; −0 is below +0 (R55). -/
def pickVal (max : Bool) (a b : Val) : Val :=
  match cmpVal a b with
  | .lt => if max then b else a
  | .gt => if max then a else b
  | .eq => if a.negative = max then b else a

/-- minimum, maximum and, with `num`, minimumNumber, maximumNumber (R55). -/
def minMax (max num : Bool) (a b : Val) : Val × BitVec 16 :=
  let inv := flagIf (a.isSnan || b.isSnan) flInvalid
  if a.isNan && b.isNan then (.nan false, inv)
  else if a.isNan then (if num then b else .nan false, inv)
  else if b.isNan then (if num then a else .nan false, inv)
  else (pickVal max a b, inv)

/-- min, max, minnum, maxnum: signed for integer types. -/
def minMaxE (max num : Bool) (l : Lane) (_ : RCtl) (x : VArgs) : Nat × BitVec 16 :=
  let (v, f) := minMax max num (laneVal l x.a) (laneVal l x.b)
  ((laneEnc l .rne v).1, f)

/-- abs: sign cleared. INT32 wraps; the manual states no result for −2^63 in fret64
(notes/assumptions/36.md). -/
def absE (l : Lane) (_ : RCtl) (x : VArgs) : Nat × BitVec 16 :=
  match l with
  | .int32 => ((signed 32 x.a).natAbs % 2 ^ 32, 0)
  | .fret64 =>
    if x.a = 2 ^ 63 then (x.free.toNat, flagIf x.choice (flOverflow ||| flNarrowSat)) else ((signed 64 x.a).natAbs, 0)
  | _ => (x.a % 2 ^ (l.width - 1), 0)

/-- neg: sign inverted. -/
def negE (l : Lane) (_ : RCtl) (x : VArgs) : Nat × BitVec 16 :=
  match l with
  | .int32 => ((2 ^ 32 - x.a) % 2 ^ 32, 0)
  | .fret64 =>
    if x.a = 2 ^ 63 then (x.free.toNat, flagIf x.choice (flOverflow ||| flNarrowSat)) else ((2 ^ 64 - x.a) % 2 ^ 64, 0)
  | _ => (x.a ^^^ 2 ^ (l.width - 1), 0)

/-- A predicate of cmp by an order (R152). -/
def predHolds (p : Nat) (o : Ordering) (unordered : Bool) : Bool :=
  match p with
  | 0 => !unordered && o = .eq
  | 1 => unordered || o ≠ .eq
  | 2 => !unordered && o = .lt
  | 3 => !unordered && o ≠ .gt
  | 4 => !unordered && o = .gt
  | 5 => !unordered && o ≠ .lt
  | 6 => unordered
  | _ => !unordered

/-- cmp on one element: the bit and the flags. -/
def cmpE (l : Lane) (aux a b : Nat) : Bool × BitVec 16 :=
  let x := laneVal l a
  let y := laneVal l b
  let un := x.isNan || y.isNan
  let inv := if bit aux 4 then un else x.isSnan || y.isSnan
  (predHolds (bits aux 2 0) (cmpVal x y) un, flagIf inv flInvalid)

/-- cvt: element of the source lane type, or +0 past its last (R152). -/
def cvtE (src l : Lane) (c : RCtl) (b : Option Nat) : Nat × BitVec 16 :=
  match b with
  | none => (0, 0)
  | some x => if src = .fret64 then (x, 0) else laneEnc l c (laneVal src x)

/-! ## Functions (R157, R158) -/

/-- FP32 encodings that R157 names. -/
abbrev f32One : Nat := 0x3F800000
abbrev f32Inf : Nat := 0x7F800000
abbrev f32NegInf : Nat := 0xFF800000
abbrev f32Nan : Nat := 0x7FC00000

/-- An integer as a value, for comparisons. -/
def intVal (n : Int) : Val := .ofInt n 0

/-- A function of an FP32 element (R157): the special inputs the table names, else the firmware
version's approximation (notes/assumptions/12.md). -/
def funFp32 (tables : BitVec 32) (fn : Nat) (b : Nat) : Nat × BitVec 16 :=
  let v := decodeElem .fp32 0 b
  let approx := ((Config.vectorFunction tables (BitVec.ofNat 6 fn) (BitVec.ofNat 32 b)).toNat, (0 : BitVec 16))
  let below (n : Int) : Bool := cmpVal v (intVal n) = .lt
  if v.isNan then (f32Nan, flagIf v.isSnan flInvalid)
  else
    match fn with
    | 0 => (b, 0)
    | 1 => if !below 128 then (f32Inf, flOverflow) else if below (-150) then (0, 0) else approx
    | 2 =>
      if v.isZero then (f32NegInf, flDivZero) else if v.negative then (f32Nan, flInvalid)
      else if v.isInf then (f32Inf, 0) else approx
    | 3 =>
      if v.isZero then (if v.negative then f32NegInf else f32Inf, flDivZero)
      else if v.isInf then (if v.negative then 0x80000000 else 0, 0) else approx
    | 4 =>
      if v.isZero then (if v.negative then f32NegInf else f32Inf, flDivZero)
      else if v.negative then (f32Nan, flInvalid) else if v.isInf then (0, 0) else approx
    | 5 => if v.isInf then (if v.negative then 0xBF800000 else f32One, 0) else approx
    | 6 => if v.isInf then (if v.negative then 0 else f32One, 0) else approx
    | 7 | 8 => if v.isInf then (f32Nan, flInvalid) else approx
    | _ => if v.negative || v.isZero then (0, 0) else (b, 0)

/-- A function in a lane type (R153, R157). -/
def funE (tables : BitVec 32) (fn : Nat) (l : Lane) (c : RCtl) (b : Nat) : Nat × BitVec 16 :=
  if l.half then
    let w := (toFp32 (laneVal l b)).1
    let w := if (laneVal l b).isSnan then 0x7F800001 else w
    let (y, f1) := funFp32 tables fn w
    let (r, f2) := laneEnc l c (decodeElem .fp32 0 y)
    (r, f1 ||| f2)
  else if l = .fp32 then funFp32 tables fn b
  else (b, 0)

/-! ## Bits and shifts -/

def bitE (op : Nat → Nat → Nat) (_ : Lane) (_ : RCtl) (x : VArgs) : Nat × BitVec 16 := (op x.a x.b, 0)

/-- shl, shr, sar by the low six bits of vb's element (R152). -/
def shlE (l : Lane) (_ : RCtl) (x : VArgs) : Nat × BitVec 16 := ((x.a <<< (x.b % 64)) % 2 ^ l.width, 0)
def shrE (_ : Lane) (_ : RCtl) (x : VArgs) : Nat × BitVec 16 := (x.a >>> (x.b % 64), 0)
def sarE (l : Lane) (_ : RCtl) (x : VArgs) : Nat × BitVec 16 :=
  (unsigned l.width (signed l.width x.a / (2 ^ (x.b % 64) : Nat)), 0)

/-! ## Running the head of the vector queue (R132, R133, R151) -/


/-- The head of the vector queue where it is an operation of a class and may begin. -/
def State.vecHead (s : State) (t : TileId) (cls vop : Nat) : Option Issue :=
  let x := s.tile t
  match x.vq with
  | [] => none
  | i :: _ =>
    if (vecFields i.word).cls = cls && (vecFields i.word).vop = vop && x.inService && !s.tileStopping t && x.eventReady .vector i then
      some i else none

/-- Begin the head of the vector queue and run it; `f` answers the scratchpad spans it wrote, or none where
the operation failed. -/
def State.vecRun (s : State) (t : TileId) (cls vop : Nat) (f : State → Issue → State × Option (List (Nat × Nat))) : State :=
  match s.vecHead t cls vop with
  | none => s
  | some i =>
    match f (s.leaveQueue t .vector i) i with
    | (s1, some spans) =>
      (s1.updTile t fun x => { x with vec := { x.vec with ordinal := x.vec.ordinal + 1 } }).opWritten t .vector i.word i.pc spans
    | (s1, none) => s1

/-- The sources of element i of a register operation. Vector words past 127, which 16-bit lane types
name as indices, are free (notes/assumptions/34.md). -/
def State.vargs (s : State) (v : Vec) (f : VF) (l : Lane) (i : Nat) : VArgs :=
  { a := v.elem l f.va i, b := v.elem l f.vb i, d := v.elem l f.vd i, i := i
    free := Config.free64 (s.fresh + i), choice := Config.freeBit (s.fresh + i)
    idx := if i < 128 then signed 32 (v.word f.vb i) else signed 32 (Config.free64 (s.fresh + i)).toNat }

/-- A register operation that writes vd element by element (R149, R152, R155). -/
def State.vecElems (s : State) (t : TileId) (vop : Nat) (op : VF → Vec → Lane → RCtl → VArgs → Nat × BitVec 16) : State :=
  s.vecRun t 0 vop fun s i =>
    let f := vecFields i.word
    let v := (s.tile t).vec
    let l := f.lane
    let rs := (v.lanesOn l f.mreg).map fun e => (e, op f v l f.rctl (s.vargs v f l e))
    let v1 := rs.foldl (fun a r => a.setElem l f.vd r.1 r.2.1) v
    let fl := rs.foldl (fun a r => a ||| r.2.2) 0
    ({ s with fresh := s.fresh + l.count }.updTile t fun x => { x with vec := v1 }.raise fl, some [])

end Sys2Proof.Machine
end

