-- ==== Sys2Proof/Machine/TileIssue.lean ====
section
/-! DEFINITION. Issue instructions and the completion of engine operations (R132, R133, R135, R150, R179). -/

namespace Sys2Proof.Machine

/-! ## Encodings -/

/-- Panes of a configuration (R102). -/
def paneCount (cfg : Nat) : Nat :=
  match cfg with
  | 0 => 1
  | 1 => 4
  | _ => 16

/-- The encoding of mma (R135). -/
def mmaLegal (x : BitVec 64) : Bool :=
  let v := x.toNat
  bits v 63 56 = 0 && bits v 3 0 = 0 && bits v 20 19 ≠ 3 && bits v 18 15 < paneCount (bits v 20 19)

/-- The encoding of dma (R179). -/
def dmaLegal (x : BitVec 64) : Bool :=
  let v := x.toNat
  bits v 63 32 = 0 && bits v 20 14 = 0 && bits v 3 0 = 0

/-- The scalar register an issue instruction names: dreg, or va of a memory or tile operation. -/
def issueReg (x : BitVec 64) : BitVec 5 := if opOf (lowWord x) = 0x39 then fA (lowWord x) else fD (lowWord x)

/-! ## Issue (R132) -/

/-- An instruction enters its queue with the register it names as it stands (notes/assumptions/10.md). -/
def State.enqueue (s : State) (t : TileId) (e : Engine) (x : BitVec 64) : State :=
  (s.trace (srcTile t) (match e with | .array => 2 | .vector => 3 | .dma => 4) (bits (s.tile t).seq.pc.toNat 31 0)).updTile t fun y =>
    let i : Issue := ⟨x, y.seq.pc, y.seq.reg (issueReg x)⟩
    let z := y.setQueueOf e (y.queueOf e ++ [i])
    { z with seq := { z.seq with pc := z.seq.pc + 8, issued := z.seq.issued + 1, run := .running } }

/-- An issue instruction: it enters its queue, or the sequencer stalls on a full one. -/
def State.issueOp (s : State) (t : TileId) (e : Engine) (x : BitVec 64) (code : Nat) (legal : Bool) : State :=
  s.issue64 t x (opOf (lowWord x) = code) legal fun s =>
    if ((s.tile t).queueOf e).length < queueDepth e then s.enqueue t e x
    else s.updSeq t fun q => { q with run := .waitIssue e }

/-- R135. -/
def execMma (t : TileId) (x : BitVec 64) (s : State) : Out := .next (s.issueOp t .array x 0x38 (mmaLegal x))
/-- R150. -/
def execVec (t : TileId) (x : BitVec 64) (s : State) : Out := .next (s.issueOp t .vector x 0x39 (vecLegal x))
/-- R179. -/
def execDma (t : TileId) (x : BitVec 64) (s : State) : Out := .next (s.issueOp t .dma x 0x3B (dmaLegal x))

/-- R132: a stalled instruction enters its queue once an entry is free. -/
def State.issueStallRelease (s : State) (t : TileId) : State :=
  let x := s.tile t
  match x.seq.run, x.seq.fetch64 with
  | .waitIssue e, .word w => if (x.queueOf e).length < queueDepth e ∧ !x.inReset then s.enqueue t e w else s
  | _, _ => s

def execIssueStallRelease (t : TileId) (s : State) : Out := .next (s.issueStallRelease t)

/-! ## Completion (R133, R137) -/

/-- The engine code of R270. -/
def engCode : Engine → Byte
  | .array => engArray
  | .vector => engVector
  | .dma => engDma

/-- Remove the first finished operation of an engine. -/
def dropFirst (e : Engine) : List DoneOp → List DoneOp
  | [] => []
  | o :: os => if o.engine = e then os else o :: dropFirst e os

/-- A wdone whose operations have all completed goes on (R144). -/
def State.wdoneResume (s : State) (t : TileId) : State :=
  match (s.tile t).seq.run with
  | .waitWdone e st => if (s.tile t).seq.issued = 0 then s.wdoneFinish t e st else s
  | _ => s

/-- What an operation wrote becomes unspecified where a check finds it wrong (R170). -/
def State.scribbleSpans (s : State) (t : TileId) (l : List (Nat × Nat)) : State :=
  l.foldl (fun a p => a.scribble t p.1 p.2) s

/-- The failure that a unit's check reports (R118, R170, R187); none where it finds nothing. -/
def checkFail (t : TileId) (c : UnitCheck) (aux : BitVec 64) : Option Fail :=
  match c with
  | .good => none
  | .mismatch m => some { status := 0x9001, mech := m, aux := aux, die := some (logicOfDie (dieOf t)) }
  | .doubleBit => some { status := 0x9002, mech := 0x02, aux := aux, die := some (logicOfDie (dieOf t)) }

/-- R133: an operation completes and raises the event it signals; the vector engine's checks of R170 end
with it, and a mismatch makes what it wrote unspecified and fails the command. -/
def State.operationComplete (s : State) (t : TileId) (e : Engine) (c : UnitCheck) : State :=
  let x := s.tile t
  match x.finished.find? fun o => o.engine = e, if e = .vector then checkFail t c 0 else none with
  | none, _ => s
  | some o, some f => if !x.inService then s else (s.scribbleSpans t o.spans).failTile t f engVector
  | some o, none =>
    if !x.inService then s
    else
      let s1 := s.updTile t fun y =>
        { y with finished := dropFirst e y.finished, seq := { y.seq with issued := y.seq.issued - 1 } }
      (if fSv o.word then s1.raiseEvent t (fSev o.word) 1 o.pc (engCode e) else s1).wdoneResume t

def execOperationComplete (t : TileId) (e : Engine) (c : UnitCheck) (s : State) : Out := .next (s.operationComplete t e c)

end Sys2Proof.Machine
end

