-- ==== Sys2Proof/Machine/ArrayOps.lean ====
section
/-! DEFINITION. The matrix array's shared operations: geometry, operand pairings, stationary sets, passes,
accumulator images (R96 to R118, R187 to R192). -/

namespace Sys2Proof.Machine

/-! ## Geometry and pairings -/

/-- Pane height and half its width, W (R102). -/
def paneW (cfg : BitVec 2) : Nat :=
  match cfg with
  | 0 => 256
  | 1 => 128
  | _ => 64

/-- Operand pairings of R98. -/
inductive Path where
  | bf16 | fp16 | fp32 | fp8 | int | block (n : Nat)
deriving DecidableEq, Repr

def isInt (e : Elem) : Bool := e = .int8 || e = .uint8 || e = .int4

/-- The path of a pairing; none where the array does not accept it. -/
def pathOf (a b : Format) : Option Path :=
  match a.blk, b.blk with
  | .none, .none =>
    if a.elem = .bf16 ∧ b.elem = .bf16 then some .bf16
    else if a.elem = .fp16 ∧ b.elem = .fp16 then some .fp16
    else if a.elem = .fp32 ∧ b.elem = .fp32 then some .fp32
    else if a.elem.isFp8 ∧ b.elem.isFp8 then some .fp8
    else if isInt a.elem ∧ isInt b.elem then some .int
    else none
  | x, y => if x = y ∧ x ≠ .none ∧ ((a.elem = .int8) = (b.elem = .int8)) then some (.block x.size) else none

/-- Group size S (R73). -/
def Path.group : Path → Nat
  | .block n => n
  | _ => 16

/-- Terms of a pass sequence, and stationary sets per block (R103, R105). -/
def Path.terms : Path → Nat
  | .fp32 => 3
  | _ => 1
def Path.halves : Path → Nat
  | .bf16 | .fp16 | .fp32 => 2
  | _ => 1

/-- The pairing of an instruction, its B format being the active set's where it names that set (R108). -/
def MatInstr.path (i : MatInstr) : Path :=
  match formatOf i.aFmt, formatOf i.bFmt with
  | some a, some b => (pathOf a b).getD .bf16
  | _, _ => .bf16

def fmtOf (b : Byte) : Format := (formatOf b).getD ⟨.fp32, .none⟩
def MatInstr.ctl (i : MatInstr) : AccCtl := (accCtlOf i.acc).getD ⟨false, true, false, false, true, 0⟩
def MatInstr.rc (i : MatInstr) : RCtl := (rctlOf i.rctl).getD .rne

/-- Blocks and slices of an instruction (R105). -/
def ceilDiv (a b : Nat) : Nat := (a + b - 1) / b
def MatInstr.mBlocks (i : MatInstr) (w : Nat) : Nat := ceilDiv i.m w
def MatInstr.nBlocks (i : MatInstr) (w : Nat) : Nat := ceilDiv i.n (2 * w)
def MatInstr.kSlices (i : MatInstr) (w : Nat) : Nat := ceilDiv i.k w

/-- Rows and columns of the cursor's block that lie in the product. -/
def MatInstr.rows (i : MatInstr) (w : Nat) : Nat := min w (i.m - i.cursor.mBlock * w)
def MatInstr.cols (i : MatInstr) (w : Nat) : Nat := min (2 * w) (i.n - i.cursor.nBlock * (2 * w))

/-- Columns of the cursor's stationary set, and the K indices of its slice. -/
def MatInstr.setCols (i : MatInstr) (w : Nat) : Nat :=
  if i.path.halves = 2 then min w (i.cols w - bnat i.cursor.half * w) else i.cols w
def MatInstr.kLen (i : MatInstr) (w : Nat) : Nat := min w (i.k - i.cursor.kSlice * w)

/-- The pass cursor record of a pane (R113). -/
def Cursor.record (c : Cursor) (p : PaneId) : BitVec 64 :=
  BitVec.ofNat 64 (packBits [(1, 1), (27, 0), (9, c.mRow), (10, c.kSlice), (3, c.nBlock), (6, c.mBlock),
    (1, bnat c.half), (1, bnat c.stopped), (2, c.term.toNat), (4, p.val)])

/-! ## Reading operands -/

/-- `n` elements of operand row `r` from element `k0`, which starts a unit of the format. -/
def State.opRow (s : State) (t : TileId) (g : Format) (addr pitch : BitVec 32) (ref : Option TRef) (r k0 n : Nat) :
    State × Except Fail (List (Nat × Nat)) :=
  match (s.tile t).scratchRead (addr.toNat + r * pitch.toNat + g.rowBytes k0) (g.rowBytes (g.padded n)) with
  | .error e => (s, .error e)
  | .ok row =>
    let (s1, sc) := match g.blk, ref with
      | .b32, some x => s.reachRead t .bypass (x.scale + BitVec.ofNat 64 (r * (x.n0 / 32) + k0 / 32)) (g.padded n / 32)
      | _, _ => (s, .ok [])
    match sc with
    | .error e => (s1, .error e)
    | .ok scales => (s1, .ok ((upTo n).map fun j => g.rawAt row scales j))

/-- Rows `rs` of an operand. -/
def State.opRows (s : State) (t : TileId) (g : Format) (addr pitch : BitVec 32) (ref : Option TRef) (k0 n : Nat) :
    List Nat → State × Except Fail (List (List (Nat × Nat)))
  | [] => (s, .ok [])
  | r :: rs =>
    match s.opRow t g addr pitch ref r k0 n with
    | (s1, .error e) => (s1, .error e)
    | (s1, .ok x) =>
      match s1.opRows t g addr pitch ref k0 n rs with
      | (s2, .error e) => (s2, .error e)
      | (s2, .ok xs) => (s2, .ok (x :: xs))

/-! ## Stationary sets (R97, R106, R108) -/

/-- Whether a set is the one the cursor's pass needs, loaded by this instruction (R105). -/
def MatInstr.servedBy (i : MatInstr) (x : StatSet) : Bool :=
  i.act || (x.serial = i.serial && x.kSlice = i.cursor.kSlice && x.nBlock = i.cursor.nBlock && x.term = i.cursor.term
    && x.half = i.cursor.half)

/-- The set of the cursor's pass, from rows of B as they lie: B's row n holds its K elements
(DEDUCED, notes/assumptions/38.md). -/
def MatInstr.makeSet (i : MatInstr) (w : Nat) (rows : List (List (Nat × Nat))) : StatSet :=
  let g := i.path.group
  let elems := (rows.mapIdx fun c r => r.mapIdx fun k e => (512 * k + c, e.1)).flatten
  let scales := (rows.mapIdx fun c r => r.mapIdx fun k e => (k, 512 * (k / g) + c, e.2)).flatten
  { fmt := i.bFmt, addr := i.bAddr, pitch := i.bPitch, kSlice := i.cursor.kSlice, nBlock := i.cursor.nBlock
    term := i.cursor.term, half := i.cursor.half, kLen := i.kLen w, cols := i.setCols w, ceiling := i.bCeiling
    elems := elems.foldl (fun m e => mapPut 0 m e.1 (BitVec.ofNat 32 e.2)) []
    scales := (scales.filter fun e => e.1 % g = 0).foldl (fun m e => mapPut 0 m e.2.1 (BitVec.ofNat 8 e.2.2)) []
    serial := i.serial }

def StatSet.elem (x : StatSet) (k c : Nat) : Nat := (mapGet 0 x.elems (512 * k + c)).toNat
def StatSet.scale (x : StatSet) (group c : Nat) : Nat := (mapGet 0 x.scales (512 * group + c)).toNat

/-! ## Group sums of a pass (R73 to R78) -/

/-- The value a block's element has with its scale set aside (R51, R75). -/
def bareValue (f : Elem) (v : Nat) : Val :=
  let x := decodeElem f 0 v
  if f = .int8 then x.scaleBy (-6) else x

/-- The group sum of group `g` of a set's column and a streamed row. -/
def groupSum (path : Path) (fa fb : Format) (term : Nat) (row : List (Nat × Nat)) (x : StatSet) (g c : Nat) : GroupSum :=
  let n := path.group
  let ks := (upTo n).filter fun j => g * n + j < row.length
  let a (j : Nat) : Nat × Nat := row.getD (g * n + j) (0, 0)
  match path with
  | .block _ =>
    blockGroup (a 0).2 (x.scale g c) (ks.map fun j => mulVal (bareValue fa.elem (a j).1) (bareValue fb.elem (x.elem (g * n + j) c)))
  | .fp32 => windowGroup (ks.map fun j => termProduct term (fa.value 0 (a j)) (fb.value 0 (x.elem (g * n + j) c, 0)))
  | _ => windowGroup (ks.map fun j => mulVal (fa.value 0 (a j)) (fb.value 0 (x.elem (g * n + j) c, 0)))

/-- Add every group of a row and column into an accumulator, in ascending k (R79, R94, R105). -/
def addGroups (fast : Bool) (base : Int) (gs : List GroupSum) (a : Acc) : Acc × BitVec 16 :=
  gs.foldl (fun acc g =>
    if fast then
      let (v, f1) := g.fastValue
      let (b, f2) := acc.1.fastAdd v
      (b, acc.2 ||| f1 ||| f2)
    else
      let (k, f) := g.contribution base
      (acc.1.add k, acc.2 ||| f)) (a, 0)

/-- An element of a block whose accumulator changed: row and column in the block, its flags. -/
structure Touched where
  row : Nat
  col : Nat
  acc : Acc
  flags : BitVec 16
deriving DecidableEq, Repr

/-- What a pass adds to a block: streamed rows with their numbers, through one set (R109). -/
def passElems (i : MatInstr) (w : Nat) (base : Int) (acc : NMap Acc) (x : StatSet) (rows : List (Nat × List (Nat × Nat))) :
    List Touched :=
  let fa := fmtOf i.aFmt
  let fb := fmtOf i.bFmt
  let off := if i.path.halves = 2 ∧ !i.act then bnat i.cursor.half * w else 0
  (rows.map fun r => (upTo (if i.act then i.n else i.setCols w)).map fun c =>
    let gs := (upTo (ceilDiv r.2.length i.path.group)).map fun g => groupSum i.path fa fb i.cursor.term.toNat r.2 x g c
    let (a, f) := addGroups i.ctl.fast base gs (mapGet {} acc (2 * w * r.1 + off + c))
    (⟨r.1, off + c, a, f⟩ : Touched)).flatten

/-- Flags of elements of a pane's block raised on the tile, with their places in FRET_STATUS (R82). -/
def Tile.markElems (x : Tile) (p : PaneId) (r0 c0 : Nat) (es : List (Nat × Nat × BitVec 16)) : Tile :=
  es.foldl (fun (y : Tile) e => (y.raise e.2.2).fretMark e.2.2 p.val (r0 + e.1) (c0 + e.2.1)) x

/-! ## Accumulator images (R188 to R192) -/

/-- Bytes of an image slot. -/
def slotSize (w : Nat) : Nat := 4096 + 40 * w * w

/-- The share of a spill area that belongs to a tile's rank (R190). -/
def shareOf (len count rank : Nat) : Nat × Nat :=
  let n := if count = 0 then 0 else len / count / 4096 * 4096
  (rank * n, n)

/-- Where image j lies (R191); none where spill space is exhausted. -/
def State.placeImage (s : State) (t : TileId) (image : BitVec 64) (w j : Nat) : Option Word :=
  let v := image.toNat
  let z := slotSize w
  let q := (s.tile t).seq
  let cfg := (s.queue (QueueId.ofNat q.queue.toNat)).cfg
  let dev := shareOf ((cfg.map fun c => c.dspillLen).getD 0) q.count.toNat q.rank.toNat
  let host := shareOf ((cfg.map fun c => c.hspillLen).getD 0) q.count.toNat q.rank.toNat
  let n1 := bits v 47 32 * 4096 / z
  let n2 := dev.2 / z
  let n3 := if bit v 48 then host.2 / z else 0
  if j < n1 then some (BitVec.ofNat 64 (bits v 31 0 + j * z))
  else if j < n1 + n2 then
    some (BitVec.ofNat 64 (2 * 2 ^ 60 + ((cfg.map fun c => c.dspill.toNat).getD 0) + dev.1 + (j - n1) * z))
  else if j < n1 + n2 + n3 then
    some (BitVec.ofNat 64 (((cfg.map fun c => c.hspill.toNat).getD 0) + host.1 + (j - n1 - n2) * z))
  else none

/-- Count one image in a spill count word (R192): fields of scratch, device and host stop at 1,023. -/
def spillAdd (word : BitVec 32) (scratch device host : Nat) : BitVec 32 :=
  let v := word.toNat
  let a := bits v 9 0 + scratch
  let b := bits v 19 10 + device
  let c := bits v 29 20 + host
  let sat := bit v 31 || a ≥ 1023 || b ≥ 1023 || c ≥ 1023
  BitVec.ofNat 32 (packBits [(10, min a 1023), (10, min b 1023), (10, min c 1023), (1, 0), (1, bnat sat)])

/-- Count an image written or read at a place. -/
def State.countImage (s : State) (t : TileId) (a : Word) : State :=
  let sp := a.toNat / 2 ^ 60
  let s1 := s.perfAdd (srcTile t) 0x0A 1
  match s.tileCmd t with
  | none => s1
  | some c => s1.updCmd c fun x =>
      { x with spill := spillAdd x.spill (bnat (sp = 0)) (bnat (sp = 2)) (bnat (sp = 4)) }

/-- The words of a block: fret128 words, then extension words, row by row. -/
def imageBody (w : Nat) (acc : NMap Acc) : Bytes :=
  let as := (upTo (2 * w * w)).map fun k => mapGet ({} : Acc) acc k
  (as.map fun a => natLe a.word.toNat 16).flatten ++ (as.map fun a => natLe a.ext.toNat 4).flatten

/-- An image header (R188). -/
def imageHeader (cfg : BitVec 2) (p : Pane) (body : Bytes) : Bytes :=
  natLe (packBits [(16, 0xF128), (2, cfg.toNat), (6, p.mBlock), (3, p.nBlock), (1, bnat p.mode), (4, 0), (10, p.base.toNat),
    (22, 0), (32, p.kDone), (32, p.chain), (32, (crc32c body).toNat)]) 64

/-- Write a pane's image at a place with the no-allocate policy (R188). -/
def State.writeImage (s : State) (t : TileId) (p : PaneId) (a : Word) : State × Option Fail :=
  let x := (s.tile t).pane p
  let cfg := (s.tile t).arr.cfg
  let body := imageBody (paneW cfg) x.acc
  let (s1, e1) := s.reachWrite t .noAllocate a (imageHeader cfg x body)
  match e1 with
  | some e => (s1, some e)
  | none =>
    match s1.reachWrite t .noAllocate (a + 4096) body with
    | (s2, some e) => (s2, some e)
    | (s2, none) => (s2.countImage t a, none)

/-- Accumulators of an image body. -/
def imageAccs (w : Nat) (body : Bytes) : NMap Acc :=
  (upTo (2 * w * w)).foldl (fun m k =>
    mapPut {} m k { word := BitVec.ofNat 128 (leNat (slice body (16 * k) 16))
                    ext := BitVec.ofNat 32 (leNat (slice body (32 * w * w + 4 * k) 4)) }) []

/-- Whether an image is the one a continuing instruction expects (R189). -/
def imageOk (cfg : BitVec 2) (i : MatInstr) (h body : Bytes) : Bool :=
  let v := leNat h
  let w := paneW cfg
  bits v 15 0 = 0xF128 && bits v 17 16 = cfg.toNat && bits v 23 18 = i.cursor.mBlock && bits v 26 24 = i.cursor.nBlock
    && bit v 27 = i.ctl.fast && bits v 31 28 = 0 && bits v 63 42 = 0 && bits v 511 160 = 0
    && bits v 95 64 + i.k ≤ bits v 127 96 && BitVec.ofNat 32 (bits v 159 128) = crc32c body
    && (upTo (2 * w * w)).all fun k => bits (leNat (slice body (32 * w * w + 4 * k) 4)) 31 28 = 0

/-! ## Progress of an instruction -/

/-- The pane's instruction changed. -/
def Pane.withInstr (p : Pane) (f : MatInstr → MatInstr) : Pane := { p with instr := p.instr.map f }

/-- Fail the tile's command for the array (R116, R119): the aux field carries the pane's cursor. -/
def State.arrayFail (s : State) (t : TileId) (p : PaneId) (e : Fail) : State :=
  let aux := (((s.tile t).pane p).instr.map fun i => i.cursor.record p).getD 0
  s.failTile t { e with aux := aux, die := e.die <|> some (logicOfDie (dieOf t)) } engArray

/-- The next pass: the active set serves it, or one must be loaded and swapped in. -/
def Pane.nextPass (p : Pane) : Pane :=
  match p.instr with
  | none => p
  | some i =>
    if i.act || p.active.any i.servedBy then p.withInstr fun j => { j with phase := .pass }
    else p.withInstr fun j => { j with phase := .needSet }

/-- The oldest instruction of the panes: its pane and it. -/
def Arr.oldest (a : Arr) : Option (Nat × MatInstr) :=
  a.panes.foldl (fun b e =>
    match e.2.instr, b with
    | none, _ => b
    | some i, none => some (e.1, i)
    | some i, some o => if i.serial < o.2.serial then some (e.1, i) else some o) none

/-- Instructions complete in queue order (R132): each oldest one that is finished has its results written. -/
def State.settleArray (s : State) (t : TileId) : Nat → State
  | 0 => s
  | n + 1 =>
    match (s.tile t).arr.oldest with
    | none => s
    | some (p, i) =>
      if i.phase = .finished then
        let p : PaneId := ⟨p % 16, Nat.mod_lt _ (by decide)⟩
        ((s.updPane t p fun x => { x with instr := none }).opWritten t .array i.word i.pc []).settleArray t n
      else s

/-- The addend's contribution to an accumulator (R80, R94). -/
def addendAcc (fast : Bool) (base : Int) (v : Val) : Acc × BitVec 16 :=
  if fast then
    let (b, f1) := toFp32 v
    let (a, f2) := ({} : Acc).fastAdd (decodeElem .fp32 0 b)
    (a, f1 ||| f2)
  else
    let (k, f) := addendContribution base v
    (({} : Acc).add k, f)

/-- Begin the cursor's block (R105): resident accumulators, an image to load, or zero with the addend. -/
def State.beginBlock (s : State) (t : TileId) (p : PaneId) : State :=
  let x := (s.tile t).pane p
  let w := paneW (s.tile t).arr.cfg
  match x.instr with
  | none => s
  | some i =>
    if i.ctl.cont then
      if x.loaded then s.updPane t p fun y => { y with loaded := false }.nextPass
      else s.updPane t p fun y => y.withInstr fun j => { j with phase := .reload }
    else if i.cAddr = 0xFFFFFFFF then
      s.updPane t p fun y => { y with acc := [], kDone := 0, mBlock := i.cursor.mBlock, nBlock := i.cursor.nBlock }.nextPass
    else
      let g := fmtOf i.cFmt
      let cb := i.cT.elim 0 fun r => baseInt r.base
      match s.opRows t g i.cAddr i.cPitch i.cT (i.cursor.nBlock * (2 * w)) (i.cols w)
          ((upTo (i.rows w)).map (· + i.cursor.mBlock * w)) with
      | (s1, .error e) => s1.arrayFail t p e
      | (s1, .ok rows) =>
        let es : List Touched := (rows.mapIdx fun r row => row.mapIdx fun c raw =>
          let (a, f) := addendAcc x.mode (baseInt x.base) (g.value cb raw)
          (⟨r, c, a, f⟩ : Touched)).flatten
        let acc := es.foldl (fun m e => mapPut {} m (2 * w * e.row + e.col) e.acc) []
        (s1.updTile t fun y => y.markElems p (i.cursor.mBlock * w) (i.cursor.nBlock * (2 * w))
          (es.map fun e => (e.row, e.col, e.flags))).updPane t p fun y =>
            { y with acc := acc, kDone := 0, mBlock := i.cursor.mBlock, nBlock := i.cursor.nBlock }.nextPass

/-- The block after the cursor's, or the instruction's end (R105). -/
def State.nextBlock (s : State) (t : TileId) (p : PaneId) : State :=
  let w := paneW (s.tile t).arr.cfg
  match ((s.tile t).pane p).instr with
  | none => s
  | some i =>
    let c := i.cursor
    let go (m n : Nat) : State :=
      (s.updPane t p fun y => y.withInstr fun j => { j with cursor := { mBlock := m, nBlock := n } }).beginBlock t p
    if c.nBlock + 1 < i.nBlocks w then go c.mBlock (c.nBlock + 1)
    else if c.mBlock + 1 < i.mBlocks w then go (c.mBlock + 1) 0
    else (s.updPane t p fun y => y.withInstr fun j => { j with phase := .finished }).settleArray t 16

/-- The cursor of the pass after this one within the block; none after the last (R105). -/
def MatInstr.advance (i : MatInstr) (w : Nat) : Option Cursor :=
  let c := { i.cursor with mRow := 0, stopped := false }
  if i.act then none
  else if i.path.halves = 2 ∧ !c.half ∧ w < i.cols w then some { c with half := true }
  else if c.term.toNat + 1 < i.path.terms then some { c with half := false, term := c.term + 1 }
  else if c.kSlice + 1 < i.kSlices w then some { c with half := false, term := 0, kSlice := c.kSlice + 1 }
  else none

end Sys2Proof.Machine
end

