-- ==== Sys2Proof/Machine/ArrayFam.lean ====
section
/-! DEFINITION. The matrix array's commands: a matrix instruction's start, its sets, passes, readout, spills
and reloads (R104 to R119, R135, R136, R187 to R192). -/

namespace Sys2Proof.Machine

/-! ## Start (R136) -/

/-- The first failing check of a list: a condition that must hold, and its status. -/
def firstFail : List (Bool × BitVec 16) → Option (BitVec 16)
  | [] => none
  | (ok, st) :: r => if ok then firstFail r else some st

/-- The matrix descriptor's fields with the instruction's, before any check. -/
def matInstrOf (x : Issue) (desc : Bytes) (act : Option StatSet) (serial ordinal : Nat) : MatInstr :=
  let v := leNat desc
  let u := x.word.toNat
  let w32 (lo : Nat) : BitVec 32 := BitVec.ofNat 32 (bits v (lo + 31) lo)
  { pc := x.pc, word := x.word, acc := BitVec.ofNat 16 (bits u 47 32), rctl := BitVec.ofNat 8 (bits u 55 48), act := bit u 14
    aAddr := w32 0, bAddr := w32 32, cAddr := w32 64, dAddr := w32 96
    aPitch := w32 128, bPitch := w32 160, cPitch := w32 192, dPitch := w32 224
    m := bits v 271 256, n := bits v 287 272, k := bits v 319 288
    aFmt := BitVec.ofNat 8 (bits v 359 352)
    bFmt := if bit u 14 then act.elim 0 fun s => s.fmt else BitVec.ofNat 8 (bits v 367 360)
    cFmt := BitVec.ofNat 8 (bits v 375 368), dFmt := BitVec.ofNat 8 (bits v 383 376)
    image := BitVec.ofNat 64 (bits v 447 384), seed := BitVec.ofNat 64 (bits v 511 448)
    aT := none, bT := none, cT := none, dT := none
    bCeiling := act.elim 0 fun s => s.ceiling
    cursor := {}, phase := .needSet, serial := serial, ordinal := ordinal }

/-- Whether an operand's address and pitch are aligned (R178). -/
def aligned64 (a p : BitVec 32) : Bool := a.toNat % 64 = 0 && p.toNat % 64 = 0

/-- Whether a count of elements suits a format (R48, R50). -/
def Format.takes (g : Format) (n : Nat) : Bool := g.blk ≠ .none || g.countOk n

/-- The checks of R71, R98, R105, R108, R136, R178 and R190 that need no memory beyond the descriptor. -/
def matChecks (i : MatInstr) (desc : Bytes) (chain : Nat) (act : Option StatSet) : Option (BitVec 16) :=
  let v := leNat desc
  let im := i.image.toNat
  let fs := [i.aFmt, i.bFmt, i.dFmt] ++ (if i.cAddr = 0xFFFFFFFF then [] else [i.cFmt])
  let c := i.ctl
  firstFail [
    (!i.acc.getLsbD 15 && i.rctl.toNat / 16 = 0 && bits v 1023 768 = 0 && bits im 63 49 = 0, 0x1002),
    (i.rctl.toNat % 8 < 5, 0x1003),
    (1 ≤ i.m && i.m ≤ 4096 && 1 ≤ i.n && i.n ≤ 1024 && 1 ≤ i.k && i.k ≤ 65536, 0x1003),
    (bits im 31 0 % 4096 = 0 && bits im 31 0 + bits im 47 32 * 4096 ≤ scratchSize, 0x1003),
    (!i.act || act.isSome, 0x1009),
    (fs.all fun b => (formatOf b).any fun g => g.elem ≠ .fret128, 0x1006),
    ((pathOf (fmtOf i.aFmt) (fmtOf i.bFmt)).isSome, 0x1006),
    (aligned64 i.aAddr i.aPitch && aligned64 i.dAddr i.dPitch && (i.act || aligned64 i.bAddr i.bPitch)
      && (i.cAddr = 0xFFFFFFFF || aligned64 i.cAddr i.cPitch), 0x1003),
    ((fmtOf i.aFmt).takes i.k && (i.act || (fmtOf i.bFmt).takes i.k) && (fmtOf i.dFmt).takes i.n
      && (i.cAddr = 0xFFFFFFFF || (fmtOf i.cFmt).takes i.n), 0x1003),
    (!i.act || act.any fun s => i.path ≠ .fp32 && i.k ≤ s.kLen && i.n ≤ s.cols, 0x1003),
    (i.rc.rnd ≠ .stochastic || !c.fast || stochasticOk .fp32 (fmtOf i.dFmt).elem, 0x1003),
    (c.cont || (1 ≤ chain && chain ≤ 2 ^ 24), 0x1003),
    (c.cont || i.k ≤ chain, 0x1007),
    (c.last || i.k % i.path.group = 0, 0x1007)]

/-- A tensor's reference. -/
def Tensor.ref (x : Tensor) (a : Word) : TRef := ⟨a, x.scale, x.n0, x.id, BitVec.ofInt 10 x.fretBase⟩

/-- A named tensor descriptor; none where the address is 0 (notes/assumptions/38.md). -/
def State.matTensor (s : State) (t : TileId) (use : Bool) (a : Word) : Except Fail (Option Tensor) :=
  if !use || a = 0 then .ok none
  else (s.readTensor (dieOf t) ((s.tilePart t).getD 0) a).map some

/-- The four descriptors that an instruction names. -/
structure MatTensors where
  a : Option Tensor
  b : Option Tensor
  c : Option Tensor
  d : Option Tensor
deriving DecidableEq, Repr

def State.matTensors (s : State) (t : TileId) (i : MatInstr) (desc : Bytes) : Except Fail MatTensors :=
  let v := leNat desc
  let at_ (k : Nat) : Word := BitVec.ofNat 64 (bits v (575 + 64 * k) (512 + 64 * k))
  match s.matTensor t true (at_ 0), s.matTensor t (!i.act) (at_ 1), s.matTensor t (i.cAddr ≠ 0xFFFFFFFF) (at_ 2),
      s.matTensor t true (at_ 3) with
  | .ok a, .ok b, .ok c, .ok d => .ok ⟨a, b, c, d⟩
  | .error e, _, _, _ => .error e
  | _, .error e, _, _ => .error e
  | _, _, .error e, _ => .error e
  | _, _, _, .error e => .error e

/-- Whether the descriptors that the formats and an automatic base need are named. -/
def tensorsOk (i : MatInstr) (x : MatTensors) : Bool :=
  let c := i.ctl
  let auto := c.auto && !c.fast && !c.cont
  (x.a.isSome || !((fmtOf i.aFmt).needsTensor || auto)) && (x.b.isSome || i.act || !((fmtOf i.bFmt).needsTensor || auto))
    && (x.c.isSome || i.cAddr = 0xFFFFFFFF || !((fmtOf i.cFmt).needsTensor || auto)) && (x.d.isSome || !(fmtOf i.dFmt).needsTensor)

/-- The fret base of a chain's first instruction (R83, R84, R108). -/
def chainBase (i : MatInstr) (x : MatTensors) (chain : Nat) : Int :=
  let c := i.ctl
  if c.auto then
    deriveBase (x.a.elim 0 fun t => t.ceiling) (if i.act then i.bCeiling else x.b.elim 0 fun t => t.ceiling)
      (x.c.map fun t => t.ceiling) chain c.carry
  else baseInt c.base

/-- Whether the head's pane is free for it: no instruction on it, and what it holds is not to be spilled
first (R104, R110). -/
def Pane.freeFor (y : Pane) (cont : Bool) : Bool := y.instr.isNone && (!y.resident || cont)

/-- The head of the array queue where it may begin. -/
def Tile.matHead (x : Tile) : Option Issue :=
  match x.aq with
  | [] => none
  | i :: _ => if x.inService && x.eventReady .array i then some i else none

/-- The pane and configuration of an mma's first word. -/
def mmaPane (w : BitVec 64) : PaneId := ⟨bits w.toNat 18 15, by unfold bits; omega⟩
def mmaCfg (w : BitVec 64) : BitVec 2 := w.extractLsb' 19 2
def mmaCtl (w : BitVec 64) : BitVec 16 := w.extractLsb' 32 16

/-- Put a checked instruction on its pane: a first one fixes mode, base and chain length (R72); a
continuing one must fit them where the block is resident. -/
def State.placeInstr (s : State) (t : TileId) (p : PaneId) (i : MatInstr) (x : MatTensors) (chain : Nat) : State :=
  let c := i.ctl
  let y := (s.tile t).pane p
  let s1 := (s.nameDest t (i.dT.elim 0 fun r => r.desc)).updTile t fun z =>
    { z with fret := if c.last then 0 else z.fret }
  let s2 := if c.fast then s1.markFast t else s1
  if c.cont ∧ y.resident ∧ (y.mode ≠ c.fast ∨ y.kDone + i.k > y.chain) then
    (s2.updPane t p Pane.discard).failTile t { status := 0x1007, aux := i.cursor.record p } engArray
  else
    (s2.updPane t p fun z =>
      if c.cont then { z with instr := some i, loaded := z.resident, resident := false, mode := c.fast }
      else
        { z with instr := some i, loaded := false, resident := false, mode := c.fast, chainOpen := true
                 base := BitVec.ofInt 10 (chainBase i x chain), chain := chain, kDone := 0 }).beginBlock t p

/-- R136: a matrix instruction leaves the array queue, its descriptor is read and checked, the fold begins. -/
def State.matStart (s : State) (t : TileId) : State :=
  let x := s.tile t
  match x.matHead.filter fun _ => !s.tileStopping t with
  | none => s
  | some h =>
    let p := mmaPane h.word
    let y := x.pane p
    let cont := ((accCtlOf (mmaCtl h.word)).map fun c => c.cont).getD false
    if mmaCfg h.word ≠ x.arr.cfg || !y.freeFor cont then s
    else
      let s1 := (s.leaveQueue t .array h).updTile t fun z =>
        { z with arr := { z.arr with serials := z.arr.serials + 1, ordinals := z.arr.ordinals + 1 } }
      if h.arg.toNat % 128 ≠ 0 then s1.failTile t { status := 0x1003 } engArray
      else
        match (s1.tile t).scratchRead h.arg.toNat 128 with
        | .error e => s1.failTile t { e with die := some (logicOfDie (dieOf t)) } engArray
        | .ok desc =>
          let i := matInstrOf h desc y.active x.arr.serials x.arr.ordinals
          let chain := bits (leNat desc) 351 320
          match matChecks i desc chain y.active with
          | some st => (s1.updPane t p Pane.discard).failTile t { status := st } engArray
          | none =>
            match s1.matTensors t i desc with
            | .error e => s1.failTile t e engArray
            | .ok ts =>
              if !tensorsOk i ts then s1.failTile t { status := 0x1003 } engArray
              else
                let v := leNat desc
                let at_ (k : Nat) : Word := BitVec.ofNat 64 (bits v (575 + 64 * k) (512 + 64 * k))
                let j := { i with
                  aT := ts.a.map fun z => z.ref (at_ 0), bT := ts.b.map fun z => z.ref (at_ 1)
                  cT := ts.c.map fun z => z.ref (at_ 2), dT := ts.d.map fun z => z.ref (at_ 3)
                  bCeiling := if i.act then i.bCeiling else ts.b.elim 0 fun z => z.ceiling }
                s1.placeInstr t p j ts chain

def execMatrixInstructionStart (t : TileId) (s : State) : Out := .next (s.matStart t)

/-! ## Reconfiguration and forced spills (R104, R110) -/

/-- R104: with no pass in flight and no resident block left, the array takes the head's configuration. -/
def State.paneReconfigure (s : State) (t : TileId) : State :=
  let x := s.tile t
  match x.matHead.filter fun _ => !s.tileStopping t with
  | none => s
  | some h =>
    if mmaCfg h.word = x.arr.cfg || x.arr.panes.any (fun e => e.2.instr.isSome || e.2.resident) then s
    else s.updTile t fun z => { z with arr := { z.arr with cfg := mmaCfg h.word, panes := [] } }

def execPaneReconfigure (t : TileId) (s : State) : Out := .next (s.paneReconfigure t)

/-- Whether the head of the queue needs a pane's resident block out of the way (R110). -/
def Tile.forcesSpill (x : Tile) (p : PaneId) : Bool :=
  match x.matHead with
  | none => false
  | some h =>
    mmaCfg h.word ≠ x.arr.cfg || (mmaPane h.word = p && !((accCtlOf (mmaCtl h.word)).any fun c => c.cont))

/-- A pane whose block has gone to its image. -/
def Pane.spilled (y : Pane) : Pane := { y with acc := [], resident := false, place := none }

/-- Write a pane's block to a place; a double-bit error of the store leaves the image without its mark
(R187, R194). -/
def State.spillTo (s : State) (t : TileId) (p : PaneId) (j : Nat) (place : Option Word) (c : UnitCheck) : State × Bool :=
  match checkFail t c 0, place with
  | some e, _ => (s.arrayFail t p e, false)
  | none, none => (s.arrayFail t p { status := 0x2004 }, false)
  | none, some a =>
    match s.writeImage t p a with
    | (s1, some e) => (s1.arrayFail t p e, false)
    | (s1, none) => ((s1.trace (srcTile t) 8 j).updPane t p Pane.spilled, true)

/-- R110: an unfinished block's image is written, or a resident one's that must make way. -/
def State.spillPane (s : State) (t : TileId) (p : PaneId) (c : UnitCheck) : State :=
  let x := s.tile t
  let y := x.pane p
  if !x.inService then s
  else
    match y.instr with
    | some i =>
      if i.phase ≠ .spill then s
      else
        let w := paneW x.arr.cfg
        let j := i.cursor.mBlock * i.nBlocks w + i.cursor.nBlock
        match s.spillTo t p j (s.placeImage t i.image w j) c with
        | (s1, true) => s1.nextBlock t p
        | (s1, false) => s1
    | none => if y.resident && x.forcesSpill p then (s.spillTo t p 0 y.place c).1 else s

def execSpill (t : TileId) (p : PaneId) (c : UnitCheck) (s : State) : Out := .next (s.spillPane t p c)

/-- R189: a continuing instruction loads and checks a block's image. -/
def State.reload (s : State) (t : TileId) (p : PaneId) : State :=
  let x := s.tile t
  let y := x.pane p
  let w := paneW x.arr.cfg
  match y.instr with
  | none => s
  | some i =>
    if i.phase ≠ .reload || !x.inService || s.tileStopping t then s
    else
      match s.placeImage t i.image w (i.cursor.mBlock * i.nBlocks w + i.cursor.nBlock) with
      | none => s.arrayFail t p { status := 0x2004 }
      | some a =>
        match s.reachRead t .bypass a 64 with
        | (s1, .error e) => s1.arrayFail t p e
        | (s1, .ok h) =>
          match s1.reachRead t .bypass (a + 4096) (40 * w * w) with
          | (s2, .error e) => s2.arrayFail t p e
          | (s2, .ok body) =>
            let s3 := s2.countImage t a
            if !imageOk x.arr.cfg i h body then s3.arrayFail t p { status := 0x1008 }
            else
              let v := leNat h
              s3.updPane t p fun z =>
                { z with acc := imageAccs w body, base := BitVec.ofNat 10 (bits v 41 32), kDone := bits v 95 64
                         chain := bits v 127 96, mBlock := i.cursor.mBlock, nBlock := i.cursor.nBlock }.nextPass

def execReload (t : TileId) (p : PaneId) (s : State) : Out := .next (s.reload t p)

/-! ## Sets and passes (R106 to R109) -/

/-- R106: the shadow set that the cursor's pass needs finishes loading. -/
def State.loadSet (s : State) (t : TileId) (p : PaneId) : State :=
  let x := s.tile t
  let y := x.pane p
  let w := paneW x.arr.cfg
  match y.instr with
  | none => s
  | some i =>
    if i.phase ≠ .needSet || y.shadow.isSome || !x.inService || s.tileStopping t then s
    else
      let first := i.cursor.nBlock * (2 * w) + (if i.path.halves = 2 then bnat i.cursor.half * w else 0)
      match s.opRows t (fmtOf i.bFmt) i.bAddr i.bPitch i.bT (i.cursor.kSlice * w) (i.kLen w)
          ((upTo (i.setCols w)).map (· + first)) with
      | (s1, .error e) => s1.arrayFail t p e
      | (s1, .ok rows) => s1.updPane t p fun z => { z with shadow := some (i.makeSet w rows) }

def execStationarySetLoaded (t : TileId) (p : PaneId) (s : State) : Out := .next (s.loadSet t p)

/-- R107: active and shadow are exchanged; the set that leaves the active registers serves no later pass. -/
def State.swapSets (s : State) (t : TileId) (p : PaneId) : State :=
  let x := s.tile t
  let y := x.pane p
  match y.instr, y.shadow with
  | some i, some sh =>
    if i.phase ≠ .needSet || !x.inService || s.tileStopping t then s
    else s.updPane t p fun z => { z with active := some sh, shadow := none }.withInstr fun j => { j with phase := .pass }
  | _, _ => s

def execSwap (t : TileId) (p : PaneId) (s : State) : Out := .next (s.swapSets t p)

/-- What the end-of-pass checks report (R116, R118, R187). -/
def arrayCheckFail (t : TileId) (c : ArrayCheck) : Option Fail :=
  match c with
  | .good => none
  | .paneMismatch m => checkFail t (.mismatch m) 0
  | .sharedMismatch m => checkFail t (.mismatch m) 0
  | .accDoubleBit => checkFail t .doubleBit 0

/-- Whether the tile's partition checks arithmetic; dies of no partition do (R120). -/
def State.checkedTile (s : State) (t : TileId) : Bool :=
  match s.tilePart t with
  | none => true
  | some p => (s.part p).checked

/-- Whether a finding is one that the disabled checks of R120 would not see. -/
def arrayUnseen (c : ArrayCheck) : Bool :=
  match c with
  | .paneMismatch _ | .sharedMismatch _ => true
  | _ => false

/-- Free contents for every accumulator of a block: an undetected mismatch (R120). -/
def State.scribbleAcc (s : State) (t : TileId) (p : PaneId) : State :=
  let w := paneW (s.tile t).arr.cfg
  let acc := (upTo (2 * w * w)).foldl (fun (m : NMap Acc) k =>
    mapPut {} m k { word := Config.free64 (s.fresh + 3 * k) ++ Config.free64 (s.fresh + 3 * k + 1)
                    ext := (Config.free64 (s.fresh + 3 * k + 2)).setWidth 28 |>.setWidth 32 }) []
  { s with fresh := s.fresh + 6 * w * w }.updPane t p fun y => { y with acc := acc }

/-- After a block's last pass (R109 to R111): readout; residency of a single block; or its image. -/
def Pane.endBlock (y : Pane) (w : Nat) (place : Option Word) : Pane :=
  match y.instr with
  | none => y
  | some i =>
    let z := { y with kDone := y.kDone + i.k }
    if i.ctl.last then z.withInstr fun j => { j with phase := .out }
    else if i.mBlocks w = 1 ∧ i.nBlocks w = 1 then
      { z with resident := true, place := place }.withInstr fun j => { j with phase := .finished }
    else z.withInstr fun j => { j with phase := .spill }

/-- R109: a pass's last row completes and its end-of-pass checks run. -/
def State.passEnd (s : State) (t : TileId) (p : PaneId) (c : ArrayCheck) : State :=
  let x := s.tile t
  let y := x.pane p
  let w := paneW x.arr.cfg
  match y.instr, y.active with
  | some i, some set =>
    if i.phase ≠ .pass || !x.inService || s.tileStopping t then s
    else
      let r0 := i.cursor.mBlock * w
      let rs := (upTo (i.rows w)).filter fun r => i.cursor.mRow ≤ r
      match s.opRows t (fmtOf i.aFmt) i.aAddr i.aPitch i.aT (i.cursor.kSlice * w) (if i.act then i.k else i.kLen w)
          (rs.map (· + r0)) with
      | (s1, .error e) => s1.arrayFail t p e
      | (s1, .ok rows) =>
        match arrayCheckFail t c with
        | some e =>
          if arrayUnseen c && !s1.checkedTile t then go s1 i set rs rows r0 w true else s1.arrayFail t p e
        | none => go s1 i set rs rows r0 w false
  | _, _ => s
where
  /-- Add the pass's contributions and move on. -/
  go (s : State) (i : MatInstr) (set : StatSet) (rs : List Nat) (rows : List (List (Nat × Nat))) (r0 w : Nat) (bad : Bool) : State :=
    let y := (s.tile t).pane p
    let es := passElems i w (baseInt y.base) y.acc set (rs.zip rows)
    let acc := es.foldl (fun m e => mapPut {} m (2 * w * e.row + e.col) e.acc) y.acc
    let s1 := (s.updTile t fun z =>
      z.markElems p r0 (i.cursor.nBlock * (2 * w)) (es.map fun e => (e.row, e.col, e.flags))).updPane t p fun z => { z with acc := acc }
    let s2 := (if bad then s1.scribbleAcc t p else s1).perfAdd (srcTile t) 0x00 rows.length
    match i.advance w with
    | some cur => s2.updPane t p fun z => (z.withInstr fun j => { j with cursor := cur }).nextPass
    | none => (s2.updPane t p fun z => z.endBlock w (s2.placeImage t i.image w 0)).settleArray t 16


/-! ## Readout (R81, R94, R111) -/

/-- One row of a readout: its packed bytes, its scale bytes, each element's flags. -/
structure ReadRow where
  row : Bytes
  scales : Bytes
  flags : List (BitVec 16)
deriving DecidableEq, Repr

/-- Read out a row of accumulators with their draws (R81, R94). -/
def readRow (i : MatInstr) (base : Int) (as : List (Acc × Nat)) : ReadRow :=
  let g := fmtOf i.dFmt
  let out := i.dT.elim 0 fun r => baseInt r.base
  if i.ctl.fast then
    let e := g.encode (g.elem = .fp32) i.rc out (as.map fun p => (p.1.fastValue, p.2))
    ⟨e.row, e.scales, e.flags :: as.tail.map fun _ => 0⟩
  else
    match g.blk with
    | .none =>
      let es := as.map fun p => readoutElem g.elem i.rc p.2 out base p.1
      ⟨packElems g.elem.width (es.map Prod.fst), [], es.map Prod.snd⟩
    | _ =>
      let pad := g.padded as.length - as.length
      let bs := (runsOf g.unitElems (as.length + 1) (as ++ List.replicate pad ({}, 0))).map fun r => readoutBlock g.elem i.rc base r
      let lay := g.layBlocks (bs.map fun b => (b.1, b.2.map Prod.fst, 0))
      ⟨lay.row, lay.scales, ((bs.map fun b => b.2.map Prod.snd).flatten).take as.length⟩

/-- R111: an output block is read out and written to the output tensor; its ceiling is folded (R85). -/
def State.readout (s : State) (t : TileId) (p : PaneId) (c : UnitCheck) : State :=
  let x := s.tile t
  let y := x.pane p
  let w := paneW x.arr.cfg
  match y.instr with
  | none => s
  | some i =>
    if i.phase ≠ .out || !x.inService then s
    else
      let g := fmtOf i.dFmt
      let r0 := i.cursor.mBlock * w
      let c0 := i.cursor.nBlock * (2 * w)
      let n0 := i.dT.elim i.n fun r => r.n0
      let id := i.dT.elim ((Config.free64 s.fresh).setWidth 32) fun r => r.id
      let rows : List (Nat × ReadRow) := (upTo (i.rows w)).map fun r => (r, readRow i (baseInt y.base)
        ((upTo (i.cols w)).map fun k => (mapGet {} y.acc (2 * w * r + k), drawFor i.rc i.seed id ((r0 + r) * n0 + c0 + k))))
      let addr (r : Nat) : Nat := i.dAddr.toNat + (r0 + r) * i.dPitch.toNat + g.rowBytes c0
      if rows.any fun e => addr e.1 + e.2.row.length > scratchSize then s.arrayFail t p { status := 0x2003 }
      else
        match checkFail t c 0 with
        | some e =>
          match c, s.checkedTile t with
          | .mismatch _, false =>
            rows.foldl (fun a r => a.scribble t (addr r.1) r.2.row.length) s |>.nextBlock t p
          | _, _ => s.arrayFail t p e
        | none =>
          let s1 := { s with fresh := s.fresh + 1 }.updTile t fun z => rows.foldl (fun (z : Tile) (e : Nat × ReadRow) =>
            (z.scratchWrite (addr e.1) e.2.row).markElems p r0 c0 (e.2.flags.mapIdx fun k f => (e.1, k, f))) z
          let (s2, err) := match g.blk, i.dT with
            | .b32, some d => rows.foldl (fun (a : State × Option Fail) (e : Nat × ReadRow) =>
                let (b, f) := a.1.reachWrite t .noAllocate (d.scale + BitVec.ofNat 64 ((r0 + e.1) * (d.n0 / 32) + c0 / 32)) e.2.scales
                (b, a.2 <|> f)) (s1, none)
            | _, _ => (s1, none)
          let ceil := rows.foldl (fun (a : Byte) (e : Nat × ReadRow) =>
            ceilMax a (g.ceiling (i.dT.elim 0 fun r => baseInt r.base) e.2.row e.2.scales (i.cols w))) 0
          let (s3, err3) := match i.dT with
            | none => (s2, none)
            | some d => if ceil = 0 then (s2, none) else s2.foldCeiling (some (dieOf t)) ((s.tilePart t).getD 0) d.desc ceil
          let ident := packBits [(4, p.val), (6, i.cursor.mBlock), (3, i.cursor.nBlock), (3, 0), (32, i.ordinal)]
          match err <|> err3 with
          | some e => s3.arrayFail t p e
          | none => ((s3.hashFor (s3.tileCmd t) t 0 ident (rows.map fun r => r.2.row ++ r.2.scales).flatten).updPane t p fun z => { z with acc := [], chainOpen := (i.mBlocks w ≠ 1 ∨ i.nBlocks w ≠ 1) && z.chainOpen }).nextBlock t p


end Sys2Proof.Machine
end

