-- ==== Sys2Proof/Machine/AtomicOps.lean ====
section
/-! DEFINITION. Atomic requests: the record, its checks, the operations at a stack agent, and writes that
may reach an atomic aperture (R212, R213, R230 to R232). -/

namespace Sys2Proof.Machine

/-- An atomic request record (R230). -/
structure AtomReq where
  target : BitVec 64
  operand : BitVec 64
  extra : BitVec 64
  result : BitVec 64
  op : Nat
  w64 : Bool
  reserved : Nat
deriving DecidableEq, Repr

/-- The record's fields from its 64 bytes. -/
def atomOf (b : Bytes) : AtomReq :=
  let v := leNat b
  { target := BitVec.ofNat 64 (bits v 63 0), operand := BitVec.ofNat 64 (bits v 127 64)
    extra := BitVec.ofNat 64 (bits v 191 128), result := BitVec.ofNat 64 (bits v 255 192), op := bits v 259 256
    w64 := bit v 260, reserved := bits v 511 261 }

/-- Bytes of an operation's word (R231). -/
def AtomReq.width (r : AtomReq) : Nat :=
  match r.op with
  | 0xA => 8
  | 0xB => 16
  | 0xC => 4
  | _ => if r.w64 then 8 else 4

/-- The new value for the value at the target, and the arithmetic flags raised (R231). -/
def AtomReq.newValue (r : AtomReq) (v : Nat) : Nat × BitVec 16 :=
  let w := 8 * r.width
  let o := r.operand.toNat % 2 ^ w
  match r.op with
  | 0x0 => ((v + o) % 2 ^ w, 0)
  | 0x1 => (if signed w o < signed w v then o else v, 0)
  | 0x2 => (if signed w v < signed w o then o else v, 0)
  | 0x3 => (min v o, 0)
  | 0x4 => (max v o, 0)
  | 0x5 => (v &&& o, 0)
  | 0x6 => (v ||| o, 0)
  | 0x7 => (v ^^^ o, 0)
  | 0x8 => (o, 0)
  | 0x9 => (if v = r.extra.toNat then o else v, 0)
  | 0xA => ((v + o) % 2 ^ 64, 0)
  | 0xB => ((v + (r.operand.toNat + 2 ^ 64 * r.extra.toNat)) % 2 ^ 128, 0)
  | _ =>
    let (x, f1) := addVal false (decodeElem .fp32 0 v) (decodeElem .fp32 0 o)
    let (e, f2) := convert .fp32 false .rne 0 0 x
    (e, f1 ||| f2)

/-- The checks of a record that need no memory (R230 to R232). -/
def AtomReq.check (r : AtomReq) : Option (BitVec 16) :=
  let narrow := r.width = 4
  if r.reserved ≠ 0 then some 0x1002
  else if r.op > 0xC then some 0x1003
  else if bits r.target.toNat 63 60 = 3 then some 0x2005
  else if bits r.target.toNat 63 60 ≠ 2 ∨ bits r.target.toNat 59 48 ≠ 0 then some 0x1003
  else if narrow ∧ (bits r.operand.toNat 63 32 ≠ 0 ∨ bits r.extra.toNat 63 32 ≠ 0) then some 0x1003
  else if r.op ≠ 0x9 ∧ r.op ≠ 0xB ∧ r.extra ≠ 0 then some 0x1003
  else if r.target.toNat % r.width ≠ 0 then some 0x1003
  else
    match reachOf r.result with
    | .ok (.scratch _) => none
    | .ok (.device _) => none
    | _ => some 0x1003

/-- Write the old value at a result address: the issuing tile's scratchpad, or device memory (R231). -/
def State.atomResult (s : State) (d : DieId) (p : PartId) (t : Option TileId) (r : AtomReq) (v : Nat) : State × Option Fail :=
  if r.result = 0 then (s, none)
  else
    match reachOf r.result, t with
    | .ok (.scratch o), some u =>
      if o + r.width > scratchSize then (s, some { status := 0x2003, addr := r.result })
      else (s.updTile u fun x => x.scratchWrite o (natLe v r.width), none)
    | .ok (.device va), _ => s.dieWrite d p false .noAllocate va (natLe v r.width)
    | _, _ => (s, some { status := 0x1003, addr := r.result })

/-- Perform one atomic request of a partition from a die (R212, R213, R231, R232): the flags it raises,
or its failure, with nothing stored. -/
def State.atomic (s : State) (d : DieId) (p : PartId) (t : Option TileId) (r : AtomReq) : State × Except Fail (BitVec 16) :=
  match r.check with
  | some st => (s, .error { status := st, addr := r.target })
  | none =>
    match s.translate p (r.target.toNat % 2 ^ 48) with
    | .error e => (s, .error e)
    | .ok x =>
      if !x.atomic then (s, .error { status := 0x2002, addr := r.target })
      else
        match s.paKind x.pa with
        | .region rd o =>
          let s1 := s.surrender d x.pa r.width
          match s1.dieAgentRead d x.pa r.width with
          | .error e => (s1, .error e)
          | .ok b =>
            let v := leNat b
            let (n, f) := r.newValue v
            let (s2, e2) := s1.dieAgentWrite d false x.pa (natLe n r.width)
            match e2 with
            | some e => (s1, .error e)
            | none =>
              match s2.atomResult d p t r v with
              | (_, some e) => (s1, .error e)
              | (s3, none) => (s3.perfAdd (srcStack (s.stackOf rd o)) 0x02 1, .ok f)
        | .hole => (s, .error (outsideExtent x.pa))
        | _ => (s, .error { status := 0x1003, addr := r.target })

/-- An aligned 64-byte write into an aperture is one request; any other write is a format failure
(R230). Answers the flags raised and whether an FP32 add was among them. -/
def State.apertureWrite (s : State) (d : DieId) (p : PartId) (t : Option TileId) (b : Bytes) (a : Nat) :
    State × Except Fail (BitVec 16 × Bool) :=
  if a % 64 ≠ 0 ∨ b.length ≠ 64 then (s, .error { status := 0x1003, addr := BitVec.ofNat 64 a })
  else
    let r := atomOf b
    match s.atomic d p t r with
    | (s1, .error e) => (s1, .error e)
    | (s1, .ok f) => (s1, .ok (f, r.op = 0xC))

/-- A command takes the flags and the fast mark of its atomics (R213, R231). -/
def State.atomEffects (s : State) (c : CmdId) (f : BitVec 16) (fast : Bool) : State :=
  s.updCmd c fun x => { x with flags := x.flags ||| f, fast := x.fast || fast }

/-- Write pieces, one within each line, of device memory for a tile's DMA engine: ordinary memory through
the die's cache, an aperture by atomic requests (R197, R230). -/
def State.dmaWriteVa (s : State) (t : TileId) (p : PartId) (kernel : Bool) (pol : Policy) (c : Option CmdId) :
    List (Nat × Bytes) → State × Option Fail
  | [] => (s, none)
  | (va, b) :: r =>
    match s.translateWrite p va with
    | .error e => (s, some e)
    | .ok x =>
      match s.paKind x.pa with
      | .aperture _ =>
        match s.apertureWrite (dieOf t) p (some t) b x.pa with
        | (s1, .error e) => (s1, some e)
        | (s1, .ok (f, fast)) => (c.elim s1 fun k => s1.atomEffects k f fast).dmaWriteVa t p kernel pol c r
      | _ =>
        match s.cacheWriteLine (dieOf t) kernel (if x.nocache then .bypass else pol) x.pa b with
        | (s1, none) => s1.dmaWriteVa t p kernel pol c r
        | (s1, some e) => (s1, some e)

end Sys2Proof.Machine
end

