-- ==== Sys2Proof/Machine/DmaOps.lean ====
section
/-! DEFINITION. The DMA engine's shared operations: descriptors, segments, local and remote transfers
(R179 to R186, R193, R323, R324). -/

namespace Sys2Proof.Machine

/-! ## Descriptors (R181, R183) -/

/-- The stride in a 64-bit slot. -/
def slotStride (v lo : Nat) : Int := signed 48 (bits v (lo + 47) lo)

/-- The fields of a descriptor's 128 bytes. -/
def dmaDescOf (b : Bytes) : DmaDesc :=
  let v := leNat b
  { src := BitVec.ofNat 64 (bits v 63 0), dst := BitVec.ofNat 64 (bits v 127 64), kind := BitVec.ofNat 4 (bits v 131 128)
    srcCache := BitVec.ofNat 2 (bits v 133 132), dstCache := BitVec.ofNat 2 (bits v 135 134)
    srcFmt := BitVec.ofNat 8 (bits v 143 136), dstFmt := BitVec.ofNat 8 (bits v 151 144), rctl := BitVec.ofNat 8 (bits v 159 152)
    n0 := bits v 191 160, n1 := bits v 207 192, n2 := bits v 223 208, n3 := bits v 239 224
    srcS1 := slotStride v 256, srcS2 := slotStride v 320, srcS3 := slotStride v 384
    dstS1 := slotStride v 448, dstS2 := slotStride v 512, dstS3 := slotStride v 576
    idxAddr := BitVec.ofNat 32 (bits v 671 640), seed := BitVec.ofNat 64 (bits v 767 704)
    tdescDst := BitVec.ofNat 64 (bits v 831 768), origin := bits v 879 832, ctr := BitVec.ofNat 17 (bits v 912 896)
    ctrValid := bit v 913, tdescSrc := BitVec.ofNat 64 (bits v 955 914 * 64), scale := BitVec.ofNat 64 (bits v 1023 960) }

/-- Reserved fields of a descriptor, the rounding byte's included. -/
def dmaReserved (b : Bytes) : List Nat :=
  let v := leNat b
  [bits v 255 240, bits v 319 304, bits v 383 368, bits v 447 432, bits v 511 496, bits v 575 560, bits v 639 624,
    bits v 703 672, bits v 895 880, bits v 959 956, bits v 159 156]

def DmaDesc.sf (d : DmaDesc) : Format := (formatOf d.srcFmt).getD ⟨.fp32, .none⟩
def DmaDesc.df (d : DmaDesc) : Format := (formatOf d.dstFmt).getD ⟨.fp32, .none⟩
def DmaDesc.same (d : DmaDesc) : Bool := d.srcFmt = d.dstFmt
def DmaDesc.rc (d : DmaDesc) : RCtl := (rctlOf d.rctl).getD .rne
def spaceOf (a : Word) : Nat := a.toNat / 2 ^ 60

/-- The alignment of a format's elements in addresses and strides (R178). -/
def Format.stepBytes (f : Format) : Nat := if f.blk = .none ∧ f.elem.width % 8 = 0 then f.elem.width / 8 else 1

/-- Whether one side's base and strides are aligned. -/
def sideAligned (f : Format) (a : Word) (ss : List Int) : Bool :=
  a.toNat % f.stepBytes = 0 && ss.all fun s => s % (f.stepBytes : Int) = 0

/-- The first failing check of a descriptor (R57, R178, R181, R183). -/
def dmaCheck (b : Bytes) (d : DmaDesc) : Option (BitVec 16) :=
  let okFmt (x : Byte) : Bool := (formatOf x).any fun f => f.elem ≠ .fret128
  if (dmaReserved b).any (· ≠ 0) then some 0x1002
  else if !okFmt d.srcFmt || !okFmt d.dstFmt then some 0x1006
  else if d.kind.toNat > 2 || d.srcCache = 3 || d.dstCache = 3 || d.rctl.toNat % 8 > 4 then some 0x1003
  else if d.n0 = 0 || d.n0 > 2 ^ 24 || d.n1 = 0 || d.n2 = 0 || d.n3 = 0 then some 0x1003
  else if !d.sf.countOk d.n0 || !d.df.countOk d.n0 then some 0x1003
  else if !sideAligned d.sf d.src [d.srcS1, d.srcS2, d.srcS3] || !sideAligned d.df d.dst [d.dstS1, d.dstS2, d.dstS3] then some 0x1003
  else if d.ctrValid ≠ (spaceOf d.dst = 3) then some 0x1003
  else if !d.same && d.sf.blk = .b32 && d.df.blk = .b32 then some 0x1003
  else if d.rc.rnd = .stochastic && (d.same || d.tdescDst = 0 || !stochasticOk d.sf.elem d.df.elem) then some 0x1003
  else if !d.same && ((d.sf.elem = .fret64 && d.tdescSrc = 0) || (d.df.elem = .fret64 && d.tdescDst = 0)) then some 0x1003
  else none

/-! ## Rows and segments (R182, R193) -/

def DmaDesc.rows (d : DmaDesc) : Nat := d.n1 * d.n2 * d.n3
def DmaDesc.rowSegs (d : DmaDesc) : Nat := (d.df.rowBytes d.n0 + 4095) / 4096
def DmaDesc.segCount (d : DmaDesc) : Nat := d.rows * d.rowSegs

/-- The offset of row r by its coordinates. -/
def rowOffset (d : DmaDesc) (s1 s2 s3 : Int) (r : Nat) : Int :=
  ((r % d.n1 : Nat) : Int) * s1 + ((r / d.n1 % d.n2 : Nat) : Int) * s2 + ((r / d.n1 / d.n2 : Nat) : Int) * s3

/-- Index r of gather and scatter. -/
def dmaIndex (x : Tile) (d : DmaDesc) (r : Nat) : Except Fail Nat :=
  if d.kind = 0 then .ok r else (x.scratchRead (d.idxAddr.toNat + 4 * r) 4).map leNat

/-- A row's place on each side: byte offset and dense row of the scales (R182). -/
structure RowPlace where
  srcOff : Int
  dstOff : Int
  srcRow : Nat
  dstRow : Nat
deriving DecidableEq, Repr

def rowPlace (d : DmaDesc) (r k : Nat) : RowPlace :=
  { srcOff := if d.kind = 1 then k * d.srcS1 else rowOffset d d.srcS1 d.srcS2 d.srcS3 r
    dstOff := if d.kind = 2 then k * d.dstS1 else rowOffset d d.dstS1 d.dstS2 d.dstS3 r
    srcRow := if d.kind = 1 then k else r, dstRow := if d.kind = 2 then k else r }

/-- A reach address moved by strides; beyond its space it fails as R186 states. -/
def reachAt (a : Word) (off : Int) (n : Nat) : Except Fail Word :=
  match reachOf a with
  | .error e => .error e
  | .ok r =>
    let go (o lim : Nat) (st : BitVec 16) : Except Fail Word :=
      let x : Int := o + off
      if x < 0 ∨ x + n > lim then .error { status := st, addr := a + BitVec.ofInt 64 off }
      else .ok (a + BitVec.ofInt 64 off)
    match r with
    | .scratch o => go o scratchSize 0x2003
    | .peer _ o => go o scratchSize 0x2003
    | .device va => go va (2 ^ 48) 0x2001
    | .remote _ va => go va (2 ^ 46) 0x2001
    | .host h => go h (2 ^ 57) 0x200A

/-- What one segment moves: its elements, the source bytes and scales read, the destination bytes. -/
structure Seg where
  row : Nat
  e0 : Nat
  e1 : Nat
  srcA : Word
  srcN : Nat
  srcScale : Option (Word × Nat)
  cut : Nat
  dstA : Word
  dstN : Nat
  dstScale : Option Word
deriving DecidableEq, Repr

/-- Segment i of a descriptor (R193). Elements are taken from a multiple of 32, so that groups and blocks
of both sides start whole. -/
def segOf (x : Tile) (d : DmaDesc) (i : Nat) : Except Fail Seg :=
  let r := i / d.rowSegs
  let b0 := 4096 * (i % d.rowSegs)
  let b1 := min (d.df.rowBytes d.n0) (b0 + 4096)
  let g := d.df
  let e0 := b0 / g.unitBytes * g.unitElems / 32 * 32
  let e1 := min d.n0 (((b1 + g.unitBytes - 1) / g.unitBytes * g.unitElems + 31) / 32 * 32)
  match dmaIndex x d r with
  | .error e => .error e
  | .ok k =>
    let p := rowPlace d r k
    let srcN := d.sf.rowBytes (e1 - e0)
    let readScale := d.sf.blk = .b32 && (!d.same || (d.tdescDst ≠ 0 && d.scale ≠ 0))
    let writeScale := d.df.blk = .b32 && !d.same
    let scaleAt (row : Nat) : Except Fail Word := reachAt d.scale ((row * (d.n0 / 32) + e0 / 32 : Nat) : Int) ((e1 - e0) / 32)
    match reachAt d.src (p.srcOff + (d.sf.rowBytes e0 : Nat)) srcN, reachAt d.dst (p.dstOff + (b0 : Nat)) (b1 - b0),
        (if readScale then (scaleAt p.srcRow).map fun a => some (a, (e1 - e0) / 32) else .ok none),
        (if writeScale then (scaleAt p.dstRow).map some else .ok none) with
    | .ok a, .ok b, .ok sc, .ok dsc =>
      .ok { row := r, e0 := e0, e1 := e1, srcA := a, srcN := srcN, srcScale := sc, cut := b0 - g.rowBytes e0, dstA := b
            dstN := b1 - b0, dstScale := dsc }
    | .error e, _, _, _ => .error e
    | _, .error e, _, _ => .error e
    | _, _, .error e, _ => .error e
    | _, _, _, .error e => .error e

/-- The destination extents of a segment in device memory: its elements and its scales (R203). -/
def Seg.extents (g : Seg) : List (Word × Nat) :=
  let dev (a : Word) (n : Nat) : List (Word × Nat) :=
    if spaceOf a = 2 then [(BitVec.ofNat 64 (a.toNat % 2 ^ 48), n)] else []
  dev g.dstA g.dstN ++ g.dstScale.elim [] fun a => dev a ((g.e1 - g.e0) / 32)

/-- What a segment writes: destination bytes, scale bytes, flags, ceiling. -/
structure SegOut where
  bytes : Bytes
  scales : Bytes
  flags : BitVec 16
  ceiling : Byte
deriving DecidableEq, Repr

/-- The segment's output from its source bytes and scales (R181, R183). -/
def DmaOp.segOut (o : DmaOp) (g : Seg) (src scales : Bytes) : SegOut :=
  let d := o.desc
  let n := g.e1 - g.e0
  if d.same then
    let c := if d.tdescDst = 0 then 0 else if d.df.blk = .b32 ∧ d.scale = 0 then 0xFF else d.df.ceiling o.dstBase src scales n
    ⟨slice src g.cut g.dstN, [], 0, c⟩
  else
    let vs := d.sf.values o.srcBase src scales n
    let e := d.df.encode (d.sf.elem = d.df.elem) d.rc o.dstBase
      (vs.mapIdx fun j v => (v, drawFor d.rc d.seed o.id (d.origin + g.row * d.n0 + g.e0 + j)))
    ⟨slice e.row g.cut g.dstN, e.scales, e.flags, if d.tdescDst = 0 then 0 else d.df.ceiling o.dstBase e.row e.scales n⟩

/-! ## Overlaps (R182) -/

/-- A reach address with the tile's own scratchpad named as space 0. -/
def ownSpace (t : TileId) (a : Word) : Nat :=
  match reachOf a with
  | .ok (.peer u o) => if u = t then o else a.toNat
  | _ => a.toNat

/-- Whether a byte lies in `n` bytes at a place. -/
def inSpan (a n x : Nat) : Bool := a ≤ x && x < a + n

/-- Whether a destination byte is one of the descriptor's source bytes. -/
def DmaOp.readsByte (o : DmaOp) (x : Tile) (t : TileId) (a : Nat) : Bool :=
  let d := o.desc
  let n := d.sf.rowBytes d.n0
  (upTo d.rows).any fun r =>
    match dmaIndex x d r with
    | .error _ => false
    | .ok k =>
      match reachAt d.src (rowPlace d r k).srcOff n with
      | .error _ => false
      | .ok b => inSpan (ownSpace t b) n a

/-- Whether an earlier row of a scatter wrote a destination byte. -/
def DmaOp.wroteByte (o : DmaOp) (x : Tile) (t : TileId) (row a : Nat) : Bool :=
  let d := o.desc
  let n := d.df.rowBytes d.n0
  d.kind = 2 && (upTo row).any fun r =>
    match dmaIndex x d r with
    | .error _ => false
    | .ok k =>
      match reachAt d.dst (rowPlace d r k).dstOff n with
      | .error _ => false
      | .ok b => inSpan (ownSpace t b) n a

/-- The bytes a segment stores: free where they overlap the source, and either row's where rows of a
scatter overlap (R182). -/
def State.mixBytes (s : State) (t : TileId) (o : DmaOp) (g : Seg) (old b : Bytes) : Bytes :=
  let x := s.tile t
  let a := ownSpace t g.dstA
  b.mapIdx fun k v =>
    if o.readsByte x t (a + k) then Config.freeByte (s.fresh + k)
    else if o.wroteByte x t g.row (a + k) ∧ Config.freeBit (s.fresh + k) then old.getD k v
    else v

/-! ## Failure and completion (R184, R186) -/

def policyNum (n : BitVec 2) : Policy := (policyOf n.toNat).getD .allocate

/-- The command that an operation's work is for. -/
def State.dmaCmd (s : State) (t : TileId) (o : DmaOp) : Option CmdId := o.cmd <|> s.tileCmd t

def State.dmaKernel (s : State) (t : TileId) (o : DmaOp) : Bool := (s.dmaCmd t o).any fun c => s.queueKernel c.queue

/-- Store bytes at a reach address for a descriptor. -/
def State.dmaWrite (s : State) (t : TileId) (o : DmaOp) (a : Word) (b : Bytes) : State × Option Fail :=
  match reachOf a with
  | .ok (.device va) =>
    s.dmaWriteVa t ((s.tilePart t).getD 0) (s.dmaKernel t o) (policyNum o.desc.dstCache) (s.dmaCmd t o) (linePieces va b)
  | _ => s.reachWrite t (policyNum o.desc.dstCache) a b

def State.updOp (s : State) (t : TileId) (serial : Nat) (f : DmaOp → DmaOp) : State :=
  s.updTile t fun x => { x with dma := { x.dma with ops := x.dma.ops.map fun o => if o.serial = serial then f o else o } }

def Tile.op? (x : Tile) (serial : Nat) : Option DmaOp := x.dma.ops.find? fun o => o.serial = serial

/-- Every byte that a failed descriptor would have written is unspecified (R186). -/
def State.scribbleDma (s : State) (t : TileId) (o : DmaOp) : State :=
  (upTo o.segs).foldl (fun a i =>
    match segOf (a.tile t) o.desc i with
    | .error _ => a
    | .ok g =>
      if spaceOf g.dstA = 3 then a
      else
        let (b, a1) := a.drawBytes g.dstN
        match reachOf g.dstA with
        | .ok (.device va) => (a1.dieWrite (dieOf t) ((a.tilePart t).getD 0) false (policyNum o.desc.dstCache) va b).1
        | _ => (a1.reachWrite t .allocate g.dstA b).1) s

/-- A descriptor or the reading of one fails: its command completes with the status (R186). -/
def State.failDesc (s : State) (t : TileId) (c : Option CmdId) (e : Fail) : State :=
  match c with
  | some k => s.failCmd k { e with die := e.die <|> some (logicOfDie (dieOf t)) } engDma (some t)
  | none => s.failTile t { e with die := e.die <|> some (logicOfDie (dieOf t)) } engDma

def State.failOp (s : State) (t : TileId) (o : DmaOp) (e : Fail) : State :=
  let s1 := (s.scribbleDma t o).updTile t fun x => { x with dma := { x.dma with ops := x.dma.ops.filter fun p => p.serial ≠ o.serial } }
  s1.failDesc t o.cmd e

/-- A descriptor of a dma command is complete; the last one ends the command's work (R252). -/
def State.descDone (s : State) (c : CmdId) : State :=
  let s1 := s.updCmd c fun x => { x with descs := x.descs - 1 }
  match s1.cmd? c with
  | none => s1
  | some x => if x.descs = 0 then s1.endWork c 0 else s1

/-- The ceiling of a descriptor's values waits for the end of its command (R183); a resident program
without an entry folds it at once. -/
def State.keepCeiling (s : State) (t : TileId) (o : DmaOp) : State × Option Fail :=
  if o.desc.tdescDst = 0 ∨ o.ceiling = 0 then (s, none)
  else
    match s.dmaCmd t o with
    | some c => (s.updCmd c fun x => { x with ceilings := (o.desc.tdescDst, o.ceiling) :: x.ceilings }, none)
    | none => s.foldCeiling (some (dieOf t)) ((s.tilePart t).getD 0) o.desc.tdescDst o.ceiling

/-- A descriptor whose last segment has completed is complete (R184). -/
def State.opFinish (s : State) (t : TileId) (serial : Nat) : State :=
  match (s.tile t).op? serial with
  | none => s
  | some o =>
    if o.next < o.segs ∨ !o.sent.isEmpty then s
    else
      let s1 := s.updTile t fun x => { x with dma := { x.dma with ops := x.dma.ops.filter fun p => p.serial ≠ serial } }
      match s1.keepCeiling t o with
      | (s2, some e) => s2.failDesc t o.cmd e
      | (s2, none) =>
        match o.cmd with
        | some c => s2.descDone c
        | none => s2.opWritten t .dma o.word o.pc []

/-- What a segment's writes leave with its command: flags, ceiling, count, hash and output range (R183, R203,
R374). -/
def State.segCharge (s : State) (t : TileId) (o : DmaOp) (i : Nat) (g : Seg) (r : SegOut) : State :=
  let s1 := s.updOp t o.serial fun p => { p with ceiling := ceilMax p.ceiling r.ceiling }
  let s2 := match o.cmd with
    | some c => s1.updCmd c fun x =>
        { x with flags := x.flags ||| r.flags
                 ranges := g.extents ++ x.ranges }
    | none => s1.updTile t fun x => x.raise r.flags
  (s2.perfAdd (srcTile t) 0x08 g.dstN).hashFor (s2.dmaCmd t o) t 2 (packBits [(32, o.ordinal), (32, i)]) (r.bytes ++ r.scales)

/-- A segment has completed (R184). -/
def State.segDone (s : State) (t : TileId) (serial i : Nat) : State :=
  (s.updOp t serial fun p => { p with sent := p.sent.filter (· ≠ i), due := mapErase p.due i }).opFinish t serial

/-! ## Local segments -/

/-- Read a segment's scale bytes. -/
def State.segScales (s : State) (t : TileId) (o : DmaOp) (g : Seg) : State × Except Fail Bytes :=
  match g.srcScale with
  | none => (s, .ok [])
  | some (a, n) => s.reachRead t (policyNum o.desc.srcCache) a n

/-- Write a segment's bytes and scales. -/
def State.segStore (s : State) (t : TileId) (o : DmaOp) (g : Seg) (r : SegOut) : State × Option Fail :=
  let old := if o.desc.kind = 2 then
      match (s.reachRead t .noAllocate g.dstA g.dstN).2 with | .ok b => b | .error _ => r.bytes
    else []
  let b := s.mixBytes t o g old r.bytes
  match { s with fresh := s.fresh + g.dstN }.dmaWrite t o g.dstA b with
  | (s1, some e) => (s1, some e)
  | (s1, none) =>
    match g.dstScale with
    | none => (s1, none)
    | some a => s1.dmaWrite t o a r.scales

/-- Move a segment whose two sides lie in this module or its host. -/
def State.localSeg (s : State) (t : TileId) (o : DmaOp) (i : Nat) (g : Seg) : State :=
  match s.reachRead t (policyNum o.desc.srcCache) g.srcA g.srcN with
  | (s1, .error e) => s1.failOp t o e
  | (s1, .ok src) =>
    match s1.segScales t o g with
    | (s2, .error e) => s2.failOp t o e
    | (s2, .ok sc) =>
      let r := o.segOut g src sc
      match s2.segStore t o g r with
      | (s3, some e) => s3.failOp t o e
      | (s3, none) => ((s3.updOp t o.serial fun p => { p with next := i + 1 }).segCharge t o i g r).segDone t o.serial i

/-! ## Remote segments (R323, R324) -/

/-- Whether an operation has a side on another module. -/
def DmaOp.remote (o : DmaOp) : Bool := spaceOf o.desc.src = 3 || spaceOf o.desc.dst = 3 || (spaceOf o.desc.scale = 3 && o.desc.scale ≠ 0)

/-- A remote address's module and device virtual address. -/
def remoteOf (a : Word) : BitVec 14 × BitVec 46 := (a.extractLsb' 46 14, a.extractLsb' 0 46)

/-- Remote reads of at most 4,096 bytes each: address, length, offset in the gathered bytes. -/
def readPieces : Nat → Word → Nat → Nat → List (Word × Nat × Nat)
  | 0, _, _, _ => []
  | fuel + 1, a, n, off =>
    if n = 0 then []
    else (a, min n 4096, off) :: readPieces fuel (a + 4096) (n - 4096) (off + 4096)

/-- The remote reads that a segment needs: its source bytes from offset 0, its scales after them. -/
def Seg.reads (g : Seg) : List (Word × Nat × Nat) :=
  (if spaceOf g.srcA = 3 then readPieces (g.srcN / 4096 + 1) g.srcA g.srcN 0 else []) ++
  (match g.srcScale with
   | some (a, n) => if spaceOf a = 3 then readPieces (n / 4096 + 1) a n g.srcN else []
   | none => [])

/-- Send packets; the first link status is answered. -/
def State.sendAll (s : State) : List (Packet × SegRef) → State × Option (BitVec 16)
  | [] => (s, none)
  | (k, r) :: ks =>
    match s.sendReliable k (some r) with
    | (s1, some st) => (s1, some st)
    | (s1, none) => s1.sendAll ks

/-- A read request (R324). -/
def State.readPacket (s : State) (t : TileId) (a : Word) (n : Nat) : Packet :=
  { s.newPacket (remoteOf a).1 0 ptReadReq ((s.tilePart t).getD 0) [] with len := BitVec.ofNat 13 n, addr := (remoteOf a).2 }

/-- A write packet with the descriptor's counter (R323). -/
def State.writePacket (s : State) (t : TileId) (o : DmaOp) (a : Word) (b : Bytes) : Packet :=
  { s.newPacket (remoteOf a).1 0 ptWrite ((s.tilePart t).getD 0) b with
    addr := (remoteOf a).2, ctr := o.desc.ctr, ctrValid := true }

/-- The key of a gathered byte. -/
def gotKey (i off : Nat) : Nat := 2 ^ 25 * i + off

/-- A remote segment's data is at hand: its remote parts are sent, its local parts stored; what it leaves with
its command is charged as it is sent. -/
def State.segSend (s : State) (t : TileId) (o : DmaOp) (i : Nat) (g : Seg) : State :=
  let src := if spaceOf g.srcA = 3 then (s, Except.ok (bytesAt o.got (gotKey i 0) g.srcN)) else
    s.reachRead t (policyNum o.desc.srcCache) g.srcA g.srcN
  match src with
  | (s1, .error e) => s1.failOp t o e
  | (s1, .ok b) =>
    let sc := match g.srcScale with
      | some (a, n) => if spaceOf a = 3 then (s1, Except.ok (bytesAt o.got (gotKey i g.srcN) n)) else s1.segScales t o g
      | none => (s1, .ok [])
    match sc with
    | (s2, .error e) => s2.failOp t o e
    | (s2, .ok scales) =>
      let r := o.segOut g b scales
      let far (a : Word) : Bool := spaceOf a = 3
      let ref : SegRef := ⟨t, o.serial, i, 0⟩
      let pkts := (if far g.dstA then [(s2.writePacket t o g.dstA r.bytes, ref)] else []) ++
        (match g.dstScale with
         | some a => if far a then [(s2.writePacket t o a r.scales, ref)] else []
         | none => [])
      let near := if far g.dstA then (s2, none)
        else s2.segStore t o { g with dstScale := g.dstScale.filter fun a => !far a } r
      match near with
      | (s3, some e) => s3.failOp t o e
      | (s3, none) =>
        let s4 := (s3.updOp t o.serial fun p => { p with due := mapPut 0 p.due i pkts.length }).segCharge t o i g r
        match s4.sendAll pkts with
        | (s5, some st) => s5.failOp t o { status := st, addr := g.dstA }
        | (s5, none) => if pkts.isEmpty then s5.segDone t o.serial i else s5

/-- Begin a remote segment: its reads are requested, or its writes sent (R193). -/
def State.segBegin (s : State) (t : TileId) (o : DmaOp) (i : Nat) : State :=
  match segOf (s.tile t) o.desc i with
  | .error e => s.failOp t o e
  | .ok g =>
    let o1 := { o with next := i + 1, sent := o.sent ++ [i], due := mapPut 0 o.due i g.reads.length }
    let s1 := s.updOp t o.serial fun _ => o1
    if g.reads.isEmpty then s1.segSend t o1 i g
    else
      match s1.sendAll (g.reads.map fun r => (s1.readPacket t r.1 r.2.1, ⟨t, o.serial, i, r.2.2⟩)) with
      | (s2, some st) => s2.failOp t o1 { status := st, addr := g.srcA }
      | (s2, none) => s2

/-- Remote segments begin in order, at most 16 in flight per engine (R193). -/
def State.pumpDma (s : State) (t : TileId) : Nat → State
  | 0 => s
  | n + 1 =>
    let x := s.tile t
    let flying := x.dma.ops.foldl (fun a o => a + if o.remote then o.sent.length else 0) 0
    if 16 ≤ flying || x.inReset then s
    else
      match x.dma.ops.find? fun o => o.remote && o.next < o.segs && !s.opStopping t o with
      | none => s
      | some o => (s.segBegin t o o.next).pumpDma t n

end Sys2Proof.Machine
end

