-- ==== Sys2Proof/Machine/PhaseOps.lean ====
section
/-! DEFINITION. The capo's phases of work: their keys, and the table that learns their power (R429;
notes/assumptions/60.md). -/

namespace Sys2Proof.Machine

/-- A key's further items for a matmul: the four format bytes and ceil(log2) of M, N and K. -/
def State.matmulKey (s : State) (p : PartId) (x : Cmd) : List Nat :=
  let t (hi lo : Nat) : Bytes := ((s.vread p (x.field hi lo) 64).toOption).getD (natLe 0 64)
  let fmt (b : Bytes) : Nat := bits (leNat b) 199 192
  let ext (b : Bytes) (i : Nat) : Nat := match tensorOf b with
    | .ok u => clog2 (if i = 0 then u.n0 else u.n1)
    | .error _ => 0
  let (a, b, d) := (t 127 64, t 191 128, t 319 256)
  let c := if x.field 255 192 = 0 then natLe 0 64 else t 255 192
  [fmt a, fmt b, fmt c, fmt d, ext a 1, ext b 1, ext a 0]

/-- The key of a command's phase; none where its opcode belongs to no phase (R429). -/
def State.phaseKey (s : State) (q : QueueId) (x : Cmd) : Option (List Nat) :=
  let p := s.queuePart q
  let tag := x.field 31 16
  if tag ≠ 0 then some [0, tag]
  else
    match x.opcode with
    | 1 => some ([1, 1] ++ s.matmulKey p x)
    | 2 => some [1, 2, match s.readLaunch q (x.field 127 64) false with | .ok l => l.imgSrc | .error _ => 0]
    | 4 =>
      let d := leNat (((s.vread p (x.field 127 64) 64).toOption).getD (natLe 0 64))
      some [1, 4, bits d 3 0, bits d 10 8]
    | _ => none

/-- A power measured at a die's clock, scaled to 1.6 GHz by the die's curve. -/
def State.scaledPower (s : State) (d : DieId) : Nat :=
  (s.die d).power * Config.activityPower d.val 64 / max 1 (Config.activityPower d.val (s.die d).clk.toNat)

/-- One execution on a die: the entry moves a quarter of the way; a full table drops its least recently used entry. -/
def Capo.execution (c : Capo) (p : PartId) (key : List Nat) (power : Nat) : Capo :=
  let n := c.uses + 1
  match c.phases.find? fun e => e.part = p && e.key = key with
  | some e =>
    let e1 : Phase := { e with power := (3 * e.power + power) / 4, runs := e.runs + 1, used := n }
    { c with uses := n, phases := c.phases.map fun f => if f.part = p && f.key = key then e1 else f }
  | none =>
    let old := c.phases.foldl (fun m f => min m f.used) n
    let keep := if 4096 ≤ c.phases.length then c.phases.filter fun f => f.used ≠ old else c.phases
    { c with uses := n, phases := keep ++ [({ part := p, key := key, power := power, runs := 1, used := n } : Phase)] }

/-- What a command's execution teaches, on each die where it ran for 100 us or longer. -/
def State.learnPhase (s : State) (q : QueueId) (x : Cmd) : State :=
  if (x.doneAt - x.begunAt).toNat < 100000 then s
  else
    match s.phaseKey q x with
    | none => s
    | some k => ((x.holds.map dieOf).eraseDups).foldl (fun a d =>
        { a with capo := a.capo.execution (a.queuePart q) k (a.scaledPower d) }) s

end Sys2Proof.Machine
end

