-- ==== Sys2Proof/Machine/FrontOps.lean ====
section
/-! DEFINITION. The front end's shared operations: doorbells, record checks, ordering, indirect buffers, and the
publication of completions (R242 to R275, R519). -/

namespace Sys2Proof.Machine

/-! ## Registers of BAR0 (R13, R281, R413) -/

/-- Whether BAR0 takes writes and answers reads beyond the identity block: the module is powered and ready or in
open-string mode, the link has trained and PERST_N is high (R280, R413, R465, R472). -/
def State.bar0Open (s : State) : Bool :=
  s.pow.mode = .powered && (s.boot.state = 1 || s.boot.state = 2) && s.pow.perstN && s.boot.pcieRate ≠ 0

/-- Whether a function's doorbell block holds a queue's page (R281). -/
def State.ownsPage (s : State) (f : FnId) (q : QueueId) : Bool :=
  match partOfFn f, (s.queue q).cfg with
  | none, some _ => true
  | some p, some c => c.partition = p
  | _, none => false

/-- Whether every die of a partition is in Active (R445, R453). -/
def State.partAwake (s : State) (p : PartId) : Bool := (s.partDies p).all fun d => (s.die d).pstate = 0

/-- Whether a partition has dies out on loan, or a lend of its dies under way (R385). -/
def State.lending (s : State) (p : PartId) : Bool :=
  (s.loans.any fun l => l.lender = p) || s.jobs.any fun j =>
    match j.kind with
    | .lend b => bits (leNat b) 10 8 = p.val
    | _ => false

/-- The state of a queue that enters running: pre-empted at once while its partition lends (R275, R385). -/
def State.enterRunning (s : State) (q : QueueId) : BitVec 3 := if s.lending (s.queuePart q) then qPreempted else qRunning

/-- A new tail for a queue, from a doorbell or a signal (R244, R245). -/
def State.ringTail (s : State) (q : QueueId) (v : BitVec 32) : State :=
  let x := s.queue q
  match x.cfg with
  | none => s
  | some c =>
    let d := (v - x.tail).toNat
    if x.state = qDestroying ∨ d = 0 ∨ 2 ^ 31 ≤ d then s
    else if (v - x.head).toNat > 2 ^ c.ringLog2 then s.haltQueue q 0x02
    else
      let s1 := s.setQueue q { x with tail := v, acquirePending := true, state := if x.state = qIdle then s.enterRunning q else x.state }
      let s2 := if s.partAwake c.partition then s1
        else s1.event (srcHub (2 + q.val % 8)) 0x07 q.val (some c.partition)
      s2.launchResident q

/-! ## Record checks (R246 to R261, R266) -/

/-- Whether an opcode is one of R247, and whether only kernel queues may use it. -/
def opcodeKnown (op : Nat) : Bool := op ≤ 0x0A || (0x10 ≤ op && op ≤ 0x14)
def opcodeKernel (op : Nat) : Bool := 0x10 ≤ op && op ≤ 0x14

/-- First tile and tiles of a record that names a run of tiles. -/
def recordTiles (v : Nat) : Option (Nat × Nat) :=
  match bits v 7 0 with
  | 0x01 => some (bits v 350 344, bits v 358 352)
  | 0x02 => some (bits v 134 128, bits v 142 136)
  | 0x03 => some (bits v 150 144, 1)
  | 0x04 => some (bits v 134 128, bits v 142 136)
  | _ => none

/-- Whether a run of tiles lies in a partition. -/
def State.ownsTiles (s : State) (p : PartId) (first n : Nat) : Bool :=
  (upTo n).all fun i => (TileId.ofNat? (first + i)).any fun t => s.tilePart t = some p

/-- Check 3 of R266: privilege. -/
def State.privilegeCheck (s : State) (p : PartId) (kernel persist : Bool) (v : Nat) : BitVec 16 :=
  let op := bits v 7 0
  if !kernel && (opcodeKernel op || (op = 0x07 && bit v 65)) then 0x1101
  else if op = 0x02 && persist then 0
  else if (recordTiles v).any fun r => !s.ownsTiles p r.1 r.2 then 0x1102
  else if op = 0x05 && bits v 65 64 ≤ 1 && !((semDie' (bits v 93 80)).any fun d => (s.die d).owner = some p) then 0x1102
  else if op = 0x05 && bits v 65 64 = 2 && !((StackId.ofNat? (bits v 112 108)).any fun k => s.stackPart k = some p) then 0x1102
  else if op = 0x06 && bits v 66 64 ≤ 1 && !((semDie' (bits v 93 80)).any fun d => (s.die d).owner = some p) then 0x1102
  else if op = 0x06 && bits v 66 64 = 2 && ((s.queue (QueueId.ofNat (bits v 107 96))).cfg.any fun c => c.partition ≠ p) then 0x1102
  else 0
where
  /-- The die of a semaphore identifier (R138). -/
  semDie' (n : Nat) : Option DieId := DieId.ofNat? (n / 1024)

/-- The reserved bit ranges of a payload by opcode, high and low bit (R246 to R261). -/
def reservedRanges (v : Nat) : List (Nat × Nat) :=
  match bits v 7 0 with
  | 0x00 => [(511, 64)]
  | 0x01 => [(383, 359), (511, 448), (335, 335), (343, 340)]
  | 0x02 => [(135, 135), (511, 143)]
  | 0x03 => [(511, 151)]
  | 0x04 => [(135, 135), (511, 143)]
  | 0x05 => [(79, 67), (95, 94), (127, 113), (191, 176), (511, 320)]
  | 0x06 => [(79, 67), (95, 94), (127, 108), (511, 256)]
  | 0x07 => [(127, 68), (511, 256)]
  | 0x08 => [(79, 68), (127, 96), (511, 256)]
  | 0x09 => [(159, 144), (255, 197), (511, 384)]
  | 0x0A => [(159, 144), (255, 197), (511, 384)]
  | 0x10 => [(511, 192)]
  | _ => [(511, 128)]

/-- A range's length field (R254, R256, R261): 1 to 2^48 where the range is used, else zero. -/
def rangeLenOk (used : Bool) (n : Nat) : Bool := if used then 1 ≤ n && n ≤ 2 ^ 48 else n = 0

/-- Check 5 of R266: limits and alignments of the payload by opcode; true where they hold. -/
def limitsOk (v : Nat) : Bool :=
  match bits v 7 0 with
  | 0x01 =>
    bits v 127 64 % 64 = 0 && bits v 191 128 % 64 = 0 && bits v 255 192 % 64 = 0 && bits v 319 256 % 64 = 0
      && bits v 127 64 ≠ 0 && bits v 191 128 ≠ 0 && bits v 319 256 ≠ 0 && 1 ≤ bits v 358 352
      && (accCtlOf (BitVec.ofNat 16 (bits v 335 320))).any (fun c => !c.cont && c.last) && bits v 338 336 ≤ 4
  | 0x02 => bits v 127 64 % 64 = 0 && 1 ≤ bits v 142 136
  | 0x03 => bits v 127 64 % 128 = 0 && 1 ≤ bits v 143 128 && bits v 143 128 ≤ 1024
  | 0x04 => bits v 127 64 % 128 = 0 && 1 ≤ bits v 142 136
  | 0x05 =>
    let kind := bits v 65 64
    kind ≠ 3 && (kind = 2 || (bits v 112 96 = 0 && bits v 175 160 = 0)) && (kind ≠ 2 || bits v 93 80 = 0)
      && rangeLenOk (bit v 66) (bits v 319 256)
  | 0x06 =>
    let kind := bits v 66 64
    kind ≤ 3 && (kind ≤ 1 || bits v 93 80 = 0) && (kind = 2 || bits v 107 96 = 0) && (kind = 3 || bits v 255 192 = 0)
      && (kind = 3 || bits v 191 160 = 0)
      && (kind ≠ 3 || (bits v 255 192 % 8 = 0 && (bits v 255 252 = 2 || bits v 255 252 = 4)))
  | 0x07 => (bit v 65 || !bit v 66) && rangeLenOk (bit v 67) (bits v 255 192)
  | 0x08 => bits v 66 64 ≠ 7 && 1 ≤ bits v 95 80 && bits v 191 128 % (if bit v 67 then 8 else 4) = 0
  | 0x09 =>
    bits v 127 64 % 64 = 0 && 1 ≤ bits v 143 128 && 1 ≤ bits v 191 160
      && (!bit v 196 || (bits v 194 192 ≠ 7 && bits v 319 256 % (if bit v 195 then 8 else 4) = 0))
  | 0x0A => bits v 127 64 % 64 = 0 && 1 ≤ bits v 143 128 && bits v 191 160 = 0
  | 0x10 => rangeLenOk true (bits v 191 128)
  | 0x14 => bits v 127 64 % 64 = 0
  | _ => true

/-- The checks of R266 in their order, for a record at a depth with the sequence number its place demands. -/
def State.recordCheck (s : State) (q : QueueId) (depth : Nat) (seq : BitVec 32) (b : Bytes) : BitVec 16 :=
  let v := leNat b
  let cfg := (s.queue q).cfg
  let persist := cfg.any fun c => c.persist
  let p := s.queuePart q
  let bare := bits v 7 0 = 0x02 && persist
  if bits v 63 32 ≠ (if depth = 0 then seq.toNat else 0) then 0x1004
  else if !opcodeKnown (bits v 7 0) then 0x1001
  else
    let pr := s.privilegeCheck p (s.queueKernel q) persist v
    if pr ≠ 0 then pr
    else if bits v 15 10 ≠ 0 || (!bare && (reservedRanges v).any fun r => bits v r.1 r.2 ≠ 0) then 0x1002
    else if !bare && !limitsOk v then 0x1003
    else 0

/-! ## Order of execution (R262, R263) -/

/-- A command that may begin next: the first of its queue that has not begun. -/
def Queue.nextBegin (x : Queue) : Option Cmd := x.cmds.find? fun c => c.stage = .fetched

/-- Whether a command has completed (R203, R262). -/
def Cmd.completed (c : Cmd) : Bool := c.stage = .released

/-- The commands before one, those whose buffer it stands in left out. -/
def Queue.before (x : Queue) (c : Cmd) : List Cmd :=
  (x.cmds.takeWhile fun d => d.id ≠ c.id).filter fun d => !((d.opcode = 9 || d.opcode = 10) && d.depth < c.depth)

/-- The ordering conditions of R262. -/
def Queue.ordered (x : Queue) (c : Cmd) : Bool :=
  let bs := x.before c
  let after := bit (leNat c.record) 8 || [6, 7, 8, 9].contains c.opcode
  (!after || bs.all Cmd.completed) &&
  bs.all fun d => d.completed || !([5, 7, 8].contains d.opcode)

/-- Whether a queue's front end may begin commands (R275, R445). -/
def State.mayBegin (s : State) (q : QueueId) : Bool :=
  let x := s.queue q
  (x.state = qRunning || x.state = qStalled) && !x.preempting && s.partAwake (s.queuePart q) && s.boot.state = 1

/-- The next command of a queue, where its opcode is this one and its order allows it. -/
def State.readyCmd (s : State) (q : QueueId) (op : Nat) : Option Cmd :=
  let x := s.queue q
  if !s.mayBegin q then none
  else x.nextBegin.filter fun c => c.opcode = op && x.ordered c

/-- Whether a queue of higher priority waits to begin a command on one of these tiles (R263). -/
def State.outranked (s : State) (q : QueueId) (ts : List TileId) : Bool :=
  let pri (c : Option QueueCfg) : Nat := (c.map fun c => c.priority.toNat).getD 0
  s.queues.any fun e =>
    let r := QueueId.ofNat e.1
    r ≠ q && pri (s.queue q).cfg < pri e.2.cfg && s.mayBegin r &&
    e.2.nextBegin.any fun c => e.2.ordered c &&
      (recordTiles (leNat c.record)).any fun w => ts.any fun t => w.1 ≤ t.val && t.val < w.1 + w.2

/-- A command begins. -/
def State.beginCmd (s : State) (c : CmdId) : State :=
  let q := c.queue
  let seq := (s.cmd? c).elim 0 fun x => x.seq
  (s.updCmd c fun x => { x with stage := .begun, begunAt := s.stamp }).trace (srcQueue q) 0x00
    (packBits [(12, q.val), (20, 0), (32, seq.toNat)])

/-- A front-end command begins and does its work, where the next command of the queue is one of its kind. -/
def State.frontRow (s : State) (q : QueueId) (op : Nat) (kind : Cmd → Bool) (f : State → CmdId → Cmd → State) : State :=
  match s.readyCmd q op with
  | none => s
  | some c => if kind c then f (s.beginCmd ⟨q, c.id⟩) ⟨q, c.id⟩ c else s

/-- A command fails at the front end. -/
def State.frontFail (s : State) (c : CmdId) (e : Fail) : State := s.failCmd c e engFront none

/-- Whether a named run of tiles is in service, and the status where one is fenced (R414). -/
def State.tileFenced (s : State) (t : TileId) : Bool := (s.tile t).fenced || (s.die (dieOf t)).fenced

/-! ## Ranges (R203, R209, R254, R256) -/

/-- The physical pieces of a range; 0x2009 where it does not lie wholly inside translated pages. -/
def State.wholeRange (s : State) (p : PartId) (base len : Nat) : Except Fail (List (Nat × Nat)) :=
  match s.rangeOf p base len with
  | .ok ps => .ok ps
  | .error _ => .error { status := 0x2009, addr := BitVec.ofNat 64 base }

/-! ## Indirect buffers (R257 to R260) -/

/-- A predicate of R257. -/
def testHolds (pred : BitVec 3) (w64 : Bool) (v imm : Nat) : Bool :=
  let w := if w64 then 64 else 32
  let i := imm % 2 ^ w
  match pred with
  | 0 => v = i
  | 1 => v ≠ i
  | 2 => v < i
  | 3 => i ≤ v
  | 4 => signed w v < signed w i
  | 5 => signed w i ≤ signed w v
  | 6 => v &&& i = i
  | _ => false

/-- Read the value that a cond or loop tests, at the stack agent. -/
def State.testValue (s : State) (q : QueueId) (a : Nat) (w64 : Bool) : Except Fail Nat :=
  (s.vread (s.queuePart q) a (if w64 then 8 else 4)).map leNat

/-- A sum of two spill count words' fields, saturating (R192, R260). -/
def spillSum (a b : BitVec 32) : BitVec 32 :=
  let v := b.toNat
  let f (hi lo : Nat) : Nat := bits a.toNat hi lo + bits v hi lo
  let sat := bit a.toNat 31 || bit v 31 || f 9 0 ≥ 1023 || f 19 10 ≥ 1023 || f 29 20 ≥ 1023
  BitVec.ofNat 32 (packBits [(10, min (f 9 0) 1023), (10, min (f 19 10) 1023), (10, min (f 29 20) 1023), (1, 0), (1, bnat sat)])

/-- What a completed buffer record adds to its loop or call (R260). -/
def Cmd.absorb (p c : Cmd) : Cmd :=
  { p with
    flags := p.flags ||| c.flags, fast := p.fast || c.fast, est := p.est || c.est, spill := spillSum p.spill c.spill
    energy := p.energy + c.energy, hashes := c.hashes ++ p.hashes
    bad := if c.status = 0 then p.bad
      else match p.bad with
        | some b => if c.id < b.1 then some (c.id, c.status) else some b
        | none => some (c.id, c.status)
    engine := if p.bad.all fun b => c.status ≠ 0 && c.id < b.1 then (if c.status = 0 then p.engine else c.engine) else p.engine
    faultRef := if p.bad.all fun b => c.status ≠ 0 && c.id < b.1 then (if c.status = 0 then p.faultRef else c.faultRef) else p.faultRef }

/-- The loop or call that a buffer record stands in: the last one before it, one level up. -/
def Queue.parentOf (x : Queue) (c : Cmd) : Option Cmd :=
  ((x.cmds.takeWhile fun d => d.id ≠ c.id).filter fun d => (d.opcode = 9 || d.opcode = 10) && d.depth + 1 = c.depth).getLast?

/-- A completed buffer record leaves its queue into its loop or call. -/
def State.absorbChild (s : State) (c : CmdId) : State :=
  match s.cmd? c with
  | none => s
  | some x =>
    if x.depth = 0 ∨ x.stage ≠ .released then s
    else
      match (s.queue c.queue).parentOf x with
      | none => s
      | some p =>
        (s.updCmd ⟨c.queue, p.id⟩ fun y => y.absorb x).updQueue c.queue fun q =>
          { q with cmds := q.cmds.filter fun y => y.id ≠ c.id }

/-- Whether a begun loop or call has no more records to run: its buffer has ended and every record of it has left the
queue (R260). -/
def Queue.loopOver (x : Queue) (c : Cmd) : Bool :=
  let after := (x.cmds.dropWhile fun d => d.id ≠ c.id).drop 1
  let superseded := after.any fun d => (d.opcode = 9 || d.opcode = 10) && d.stage = .begun && d.depth = c.depth
  let open_ := c.depth < x.frames.length && !superseded
  (c.opcode = 9 || c.opcode = 10) && c.stage = .begun && !open_ && after.head?.all fun d => d.depth ≤ c.depth

/-- Loops and calls whose buffers have run end with the first non-success status of their records (R260). -/
def State.settleLoops (s : State) (q : QueueId) : State :=
  (s.queue q).cmds.foldl (fun a c =>
    match a.cmd? ⟨q, c.id⟩ with
    | none => a
    | some y => if (a.queue q).loopOver y then a.endWork ⟨q, y.id⟩ (y.bad.elim 0 Prod.snd) else a) s

/-- Children that completed without beginning are absorbed, and loops settle (R267). -/
def State.settleBuffers (s : State) (q : QueueId) : State :=
  (((s.queue q).cmds.filter fun c => c.depth ≠ 0 && c.stage = .released).foldl (fun a c => a.absorbChild ⟨q, c.id⟩) s).settleLoops q

/-! ## Publication (R270 to R274, R519) -/

/-- The 32 bytes of a completion record (R270); `i` is its index, `log` the ring's size. -/
def completionRecord (q : QueueId) (seq : BitVec 32) (log : Nat) (x : Cmd) : Bytes :=
  natLe (packBits [
    (64, x.doneAt.toNat), (32, seq.toNat), (12, q.val), (1, bnat (seq.toNat / 2 ^ log % 2 = 0)), (1, bnat x.fast), (1, bnat x.est),
    (1, 0), (16, x.status.toNat), (16, x.flags.toNat), (32, x.spill.toNat), (40, min (x.energy / 2 ^ 16) (2 ^ 40 - 1)),
    (8, x.engine.toNat), (24, x.faultRef.toNat), (8, 0)]) 32

/-- Write a record into its slot of the completion ring (R272). -/
def State.writeCompletion (s : State) (q : QueueId) (c : QueueCfg) (seq : BitVec 32) (b : Bytes) : State × Option Fail :=
  let off := 32 * (seq.toNat % 2 ^ c.cplLog2)
  match c.cpl.toNat / 2 ^ 60 with
  | 2 => s.vwrite c.partition (s.queueKernel q) (c.cpl.toNat % 2 ^ 48 + off) b
  | _ => s.hostWrite (c.cpl.toNat % 2 ^ 57 + off) b

/-- The fault record of a completion record that was not written (R273, R519). -/
def State.recordLost (s : State) (q : QueueId) (seq : BitVec 32) (e : Fail) : State :=
  (s.recordFault
    { kind := 0x07, status := e.status, engine := engFront, context := s.contextId q, seq := seq
      src := srcHub (2 + q.val % 8), stack := e.stack, addr := e.addr, part := some (s.queuePart q) }).2

/-- Whether a write failed for the ATS translation of a host address (R273). -/
def atsFailure (c : QueueCfg) (e : Fail) : Bool := c.cpl.toNat / 2 ^ 60 = 4 && e.status = 0x200A

/-- Whether the driver has consumed the slot of a record (R272). -/
def slotFree (x : Queue) (c : QueueCfg) (seq : BitVec 32) : Bool := (seq - x.cplHead).toNat < 2 ^ c.cplLog2

/-- The hash record of a published completion of a paired queue (R375). -/
def hashRecord (q : QueueId) (seq : BitVec 32) (x : Cmd) : HashRec :=
  { queue := q, seq := seq, status := x.status, flags := x.flags, fast := x.fast
    hash := x.hashes.foldl (fun a h => a + h.hash) 0, blocks := BitVec.ofNat 32 (min x.hashes.length (2 ^ 32 - 1)) }

/-- A published completion: next_pub advances, the vector is raised, a paired queue's hash record is sent
(R272, R375). -/
def State.published (s : State) (q : QueueId) (c : QueueCfg) (seq : BitVec 32) (x : Cmd) : State :=
  let s1 := (s.learnPhase q x).updQueue q fun y => { y with nextPub := y.nextPub + 1 }
  let s2 := if bit (leNat x.record) 9 then
      match vectorEntry c.msix.toNat with
      | some (f, e) => s1.raiseVector f e
      | none => s1
    else s1
  if s2.paired q then
    let r := hashRecord q seq x
    let p := s2.part c.partition
    ((s2.setPart c.partition { p with
        lastPeer := if p.local_.isEmpty then s2.time else p.lastPeer
        local_ := p.local_ ++ [r], localBlocks := keepBlocks q ((q, seq, x.hashes) :: p.localBlocks) }).emit
      (.hash c.partition p.ls.peer r x.hashes)).compareRecords c.partition
  else s2

/-- Write one record and publish it; an ATS failure stalls the queue with the record held, any other failure
drops it and halts the queue (R273, R519). -/
def State.publishOne (s : State) (q : QueueId) (c : QueueCfg) (seq : BitVec 32) (x : Cmd) : State :=
  let b := completionRecord q seq c.cplLog2 x
  match s.writeCompletion q c seq b with
  | (s1, none) => s1.published q c seq x
  | (s1, some e) =>
    if atsFailure c e then
      ((s1.recordLost q seq e).updQueue q fun y =>
        { y with state := qStalled, reason := 0x04, held := x :: y.held }).causeBoth (some c.partition) 3
    else
      (s1.recordLost q seq e).updQueue q fun y =>
        { y with nextPub := y.nextPub + 1, halting := y.halting <|> some 0x04, frames := [], skip := 0 }

end Sys2Proof.Machine
end

