-- ==== Sys2Proof/Machine/MatMul.lean ====
section
/-! DEFINITION. The matmul command: a whole accumulation chain that firmware's own tile program runs on its tiles, its
output taken as one effect at the last tile's end (R72, R84 to R95, R248; notes/assumptions/11.md). -/

namespace Sys2Proof.Machine

/-- A matmul's descriptors and controls. -/
structure MatJob where
  tile : TileId
  a : Tensor
  b : Tensor
  c : Option Tensor
  d : Tensor
  dAt : Word
  ctl : AccCtl
  instr : MatInstr
deriving DecidableEq, Repr

/-- The format byte of a format (R43). -/
def Format.code (f : Format) : Byte := BitVec.ofNat 8 (((upTo 256).find? fun n => formatOf (BitVec.ofNat 8 n) = some f).getD 0)

/-- The array fields that a matmul stands for: its formats, controls and seed. -/
def jobInstr (v : Nat) (a b d : Tensor) (dAt : Word) : MatInstr :=
  { pc := 0, word := 0, acc := BitVec.ofNat 16 (bits v 335 320), rctl := BitVec.ofNat 8 (bits v 343 336), act := false
    aAddr := 0, bAddr := 0, cAddr := 0, dAddr := 0, aPitch := 0, bPitch := 0, cPitch := 0, dPitch := 0
    m := a.n1, n := b.n1, k := a.n0, aFmt := a.fmt.code, bFmt := b.fmt.code, cFmt := 0, dFmt := d.fmt.code
    image := 0, seed := BitVec.ofNat 64 (bits v 447 384), aT := none, bT := none, cT := none, dT := some (d.ref dAt)
    bCeiling := b.ceiling, cursor := {}, phase := .pass, serial := 0, ordinal := 0 }

/-- The shape, format and chain checks of R248; a block-scaled row counts its padding (R50, R177). -/
def MatJob.check (j : MatJob) : Option (BitVec 16) :=
  let batch (x : Tensor) : Bool := x.n2 = j.d.n2 && x.n3 = j.d.n3
  firstFail [
    ((j.c.toList ++ [j.a, j.b, j.d]).all fun x => x.fmt.elem ≠ .fret128, 0x1006),
    ((pathOf j.a.fmt j.b.fmt).isSome, 0x1006),
    (j.b.n0 = j.a.n0 && j.d.n1 = j.a.n1 && j.d.n0 = j.d.fmt.padded j.b.n1 && batch j.a && batch j.b, 0x1003),
    (j.c.all fun x => x.n1 = j.a.n1 && x.n0 = x.fmt.padded j.b.n1 && batch x, 0x1003),
    (1 ≤ j.a.n0 && j.a.n0 ≤ 2 ^ 24, 0x1003),
    (j.instr.rc.rnd ≠ .stochastic || !j.ctl.fast || stochasticOk .fp32 j.d.fmt.elem, 0x1003)]

/-! ## Operands -/

/-- The elements of row (i3, i2, i1) of a tensor, read for a tile. -/
def State.tensorRow (s : State) (t : TileId) (x : Tensor) (i3 i2 i1 : Nat) : State × Except Fail (List (Nat × Nat)) :=
  let n := x.fmt.rowBytes x.n0
  match reachAt x.base (x.rowAddr i3 i2 i1 - x.base.toNat) n with
  | .error e => (s, .error e)
  | .ok a =>
    match s.reachRead t .allocate a n with
    | (s1, .error e) => (s1, .error e)
    | (s1, .ok row) =>
      let (s2, sc) := if x.fmt.blk = .b32 then s1.reachRead t .allocate (BitVec.ofInt 64 (x.scaleAddr i3 i2 i1)) (x.n0 / 32)
        else (s1, .ok [])
      match sc with
      | .error e => (s2, .error e)
      | .ok scales => (s2, .ok ((upTo x.n0).map fun k => x.fmt.rawAt row scales k))

/-- Every row of one batch element of a tensor. -/
def State.tensorRows (s : State) (t : TileId) (x : Tensor) (i3 i2 : Nat) : List Nat → State × Except Fail (List (List (Nat × Nat)))
  | [] => (s, .ok [])
  | r :: rs =>
    match s.tensorRow t x i3 i2 r with
    | (s1, .error e) => (s1, .error e)
    | (s1, .ok x0) =>
      match s1.tensorRows t x i3 i2 rs with
      | (s2, .error e) => (s2, .error e)
      | (s2, .ok xs) => (s2, .ok (x0 :: xs))

/-! ## Elements -/

/-- One column of B as a set of one column. -/
def columnSet (path : Path) (col : List (Nat × Nat)) : StatSet :=
  let g := path.group
  { fmt := 0, addr := 0, pitch := 0, kSlice := 0, nBlock := 0, term := 0, half := false, kLen := col.length, cols := 1
    ceiling := 0, serial := 0
    elems := (col.mapIdx fun k e => (512 * k, e.1)).foldl (fun m e => mapPut 0 m e.1 (BitVec.ofNat 32 e.2)) []
    scales := ((col.mapIdx fun k e => (k, 512 * (k / g), e.2)).filter fun e => e.1 % g = 0).foldl
      (fun m e => mapPut 0 m e.2.1 (BitVec.ofNat 8 e.2.2)) [] }

/-- Terms and groups of a chain in the order of a pane 256 high: slice by slice, term by term, ascending k (R105). -/
def chainOrder (path : Path) (k : Nat) : List (Nat × Nat) :=
  let n := ceilDiv k path.group
  let per := 256 / path.group
  ((upTo (ceilDiv n per)).map fun sl => ((upTo path.terms).map fun tm =>
    ((upTo per).filterMap fun g => if sl * per + g < n then some (tm, sl * per + g) else none)).flatten).flatten

/-- The accumulator of one output element: fretted sums in any order, fast partials cut and combined in ascending
order (R89, R94). -/
def MatJob.element (j : MatJob) (base : Int) (cuts : List Nat) (row col : List (Nat × Nat)) (c : Option Val) : Acc × BitVec 16 :=
  let path := (pathOf j.a.fmt j.b.fmt).getD .bf16
  let x := columnSet path col
  let sums (l : List (Nat × Nat)) : List GroupSum := l.map fun e => groupSum path j.a.fmt j.b.fmt e.1 row x e.2 0
  let start : Acc × BitVec 16 := match c with
    | none => ({}, 0)
    | some v => addendAcc j.ctl.fast base v
  let order := chainOrder path row.length
  if !j.ctl.fast then
    let (a, f) := addGroups false base (sums order) start.1
    (a, f ||| start.2)
  else
    let part (g : Nat) : Nat := (cuts.filter fun q => q ≤ g * path.group).length
    (upTo (cuts.length + 1)).foldl (fun (z : Acc × BitVec 16) i =>
      let gs := sums (order.filter fun e => part e.2 = i)
      if i = 0 then
        let (a, f) := addGroups true base gs z.1
        (a, z.2 ||| f)
      else
        let (p, f1) := addGroups true base gs {}
        let (a, f2) := z.1.fastAdd p.fastValue
        (a, z.2 ||| f1 ||| f2)) start

/-! ## The output -/

/-- Where row (i3, i2, r) of a tensor lies: its element row and its scales. -/
def Tensor.outAt (d : Tensor) (i3 i2 r : Nat) : Except Fail (Word × Option Word) :=
  match reachAt d.base (d.rowAddr i3 i2 r - d.base.toNat) (d.fmt.rowBytes d.n0) with
  | .error e => .error e
  | .ok a => .ok (a, if d.fmt.blk = .b32 then some (BitVec.ofInt 64 (d.scaleAddr i3 i2 r)) else none)

/-- Write one row of a tensor for a tile's engine. -/
def State.outRow (s : State) (t : TileId) (d : Tensor) (i3 i2 r : Nat) (row scales : Bytes) : State × Option Fail :=
  match d.outAt i3 i2 r with
  | .error e => (s, some e)
  | .ok (a, sc) =>
    match s.reachWrite t .noAllocate a row with
    | (s1, some e) => (s1, some e)
    | (s1, none) =>
      match sc with
      | none => (s1, none)
      | some b => s1.reachWrite t .noAllocate b scales

/-- The rows of a tensor in logical order. -/
def Tensor.rowsOf (d : Tensor) : List (Nat × Nat × Nat) :=
  ((upTo d.n3).map fun i3 => ((upTo d.n2).map fun i2 => (upTo d.n1).map fun r => (i3, i2, r)).flatten).flatten

/-- Every element of a tensor becomes unspecified (R116, R352). -/
def State.scribbleTensor (s : State) (t : TileId) (d : Tensor) : State :=
  d.rowsOf.foldl (fun a e =>
    let (b, a1) := a.drawBytes (d.fmt.rowBytes d.n0)
    let (sc, a2) := a1.drawBytes (d.n0 / 32)
    (a2.outRow t d e.1 e.2.1 e.2.2 b sc).1) s

/-- The device ranges of a tensor's rows (R248, R253). -/
def Tensor.ranges (d : Tensor) : List (Word × Nat) :=
  (d.rowsOf.map fun e =>
    match d.outAt e.1 e.2.1 e.2.2 with
    | .error _ => []
    | .ok (a, sc) =>
      let dev (x : Word) (n : Nat) : List (Word × Nat) :=
        if x.toNat / 2 ^ 60 = 2 then [(BitVec.ofNat 64 (x.toNat % 2 ^ 48), n)] else []
      dev a (d.fmt.rowBytes d.n0) ++ (sc.elim [] fun b => dev b (d.n0 / 32))).flatten

/-- One batch element's product: its rows as they are written, each element's flags. -/
def State.product (s : State) (j : MatJob) (base : Int) (tiles i3 i2 : Nat) : State × Except Fail (List (Nat × ReadRow)) :=
  match s.tensorRows j.tile j.a i3 i2 (upTo j.a.n1) with
  | (s1, .error e) => (s1, .error e)
  | (s1, .ok as) =>
    match s1.tensorRows j.tile j.b i3 i2 (upTo j.b.n1) with
    | (s2, .error e) => (s2, .error e)
    | (s2, .ok bs) =>
      let addend := match j.c with
        | none => (s2, Except.ok ([] : List (List (Nat × Nat))))
        | some c => s2.tensorRows j.tile c i3 i2 (upTo c.n1)
      match addend with
      | (s3, .error e) => (s3, .error e)
      | (s3, .ok cs) =>
        let cv (r c : Nat) : Option Val := j.c.map fun x => x.fmt.value x.fretBase ((cs.getD r []).getD c (0, 0))
        (s3, .ok (as.mapIdx fun r row =>
          let es := bs.mapIdx fun c col =>
            let cuts := if j.ctl.fast then Config.matmulCuts s.boot.fwVersion j.a.n1 j.b.n1 j.a.n0 tiles r c else []
            (j.element base cuts row col (cv r c), drawFor j.instr.rc j.instr.seed j.d.id (j.d.index i3 i2 r c))
          let out := readRow j.instr base (es.map fun e => (e.1.1, e.2))
          (r, { out with flags := out.flags.mapIdx fun i f => f ||| (es[i]?.elim 0 fun e => e.1.2) })))

/-- The firmware's spill count for a matmul: free, in the fields a matmul may use (R192, R248). -/
def State.jobSpill (s : State) (hostOk : Bool) : BitVec 32 × State :=
  let (v, s1) := s.draw64
  (v.setWidth 32 &&& (if hostOk then 0xBFFFFC00 else 0x800FFC00), s1)

/-- Run every batch element; the first failure. Answers the flags and the ceiling written. -/
def State.runJob (s : State) (c : CmdId) (j : MatJob) (base : Int) (tiles : Nat) :
    List (Nat × Nat) → BitVec 16 × Byte → State × Except Fail (BitVec 16 × Byte)
  | [], acc => (s, .ok acc)
  | (i3, i2) :: rest, acc =>
    match s.product j base tiles i3 i2 with
    | (s1, .error e) => (s1, .error e)
    | (s1, .ok rows) =>
      let (s2, err) := rows.foldl (fun (a : State × Option Fail) (e : Nat × ReadRow) =>
        let (b, f) := a.1.outRow j.tile j.d i3 i2 e.1 e.2.row e.2.scales
        (b, a.2 <|> f)) (s1, none)
      match err with
      | some e => (s2, .error e)
      | none =>
        let fl := rows.foldl (fun (a : BitVec 16) (e : Nat × ReadRow) => e.2.flags.foldl (· ||| ·) a) acc.1
        let ce := rows.foldl (fun (a : Byte) (e : Nat × ReadRow) =>
          ceilMax a (j.d.fmt.ceiling j.d.fretBase e.2.row e.2.scales j.d.n0)) acc.2
        let s3 := s2.hashFor (some c) j.tile 0 (packBits [(32, 0), (16, i3), (16, i2)])
          (rows.map fun e => e.2.row ++ e.2.scales).flatten
        s3.runJob c j base tiles rest (fl, ce)

/-- The bytes of the descriptors that a matmul names, A, B, C and D, read by the first tile's die; an absent addend's
are empty (R178, R197). -/
def State.matBytes (s : State) (t : TileId) (v : Nat) : Except Fail (List Bytes) :=
  let p := (s.tilePart t).getD 0
  let at_ (lo : Nat) : Except Fail Bytes := s.tensorBytes (dieOf t) p (BitVec.ofNat 64 (bits v (lo + 63) lo))
  match at_ 64, at_ 128, if bits v 255 192 = 0 then .ok [] else at_ 192, at_ 256 with
  | .ok a, .ok b, .ok c, .ok d => .ok [a, b, c, d]
  | .error e, _, _, _ => .error e
  | _, .error e, _, _ => .error e
  | _, _, .error e, _ => .error e
  | _, _, _, .error e => .error e

/-- The job of a record and its descriptors' bytes. -/
def matJob (t : TileId) (v : Nat) : List Bytes → Except Fail MatJob
  | [a, b, c, d] =>
    match tensorOf a, tensorOf b, (if c.isEmpty then .ok none else (tensorOf c).map some), tensorOf d with
    | .ok a, .ok b, .ok c, .ok d =>
      let dAt : Word := BitVec.ofNat 64 (bits v 319 256)
      let i := jobInstr v a b d dAt
      .ok { tile := t, a := a, b := b, c := c, d := d, dAt := dAt, ctl := i.ctl, instr := i }
    | .error e, _, _, _ => .error e
    | _, .error e, _, _ => .error e
    | _, _, .error e, _ => .error e
    | _, _, _, .error e => .error e
  | _ => .error { status := 0x1003 }

/-- Reach addresses and lengths of a tensor's rows and scales. -/
def Tensor.outs (d : Tensor) : List (Word × Nat) :=
  (d.rowsOf.map fun e =>
    match d.outAt e.1 e.2.1 e.2.2 with
    | .error _ => []
    | .ok (a, sc) => (a, d.fmt.rowBytes d.n0) :: (sc.elim [] fun b => [(b, d.n0 / 32)])).flatten

/-- A tile that firmware's tile program occupies: the program itself is not state (notes/assumptions/11.md). -/
def Tile.startMatmul (x : Tile) (c : CmdId) (seq : BitVec 32) (rank count : Nat) : Tile :=
  { x with
    seq := { x.seq with run := .ended, rank := BitVec.ofNat 64 rank, count := BitVec.ofNat 64 count
                        queue := BitVec.ofNat 12 c.queue.val, seq := seq, resident := false, issued := 0, workRing := 0 }
    flags := 0, fret := 0, aq := [], vq := [], dq := [], finished := [], cmd := some c
    arr := { x.arr with stopped := false }, vec := { x.vec with stopped := false }, dma := { x.dma with stopped := false } }

/-- R248: a matmul begins on its tiles. -/
def State.matmul (s : State) (c : CmdId) (x : Cmd) (ts : List TileId) : State :=
  let v := leNat x.record
  match ts with
  | [] => s
  | t :: _ =>
    let fail (a : State) (e : Fail) : State := a.failCmd c { e with die := e.die <|> some (logicOfDie (dieOf t)) } engArray (some t)
    match s.matBytes t v with
    | .error e => fail s e
    | .ok l =>
      match matJob t v l with
      | .error e => fail s e
      | .ok j =>
        let s1 := s.updCmd c fun y => { y with dests := [j.dAt] }
        match j.check with
        | some st => fail s1 { status := st, addr := j.dAt }
        | none =>
          let s2 := s1.updCmd c fun y =>
            { y with fast := y.fast || j.ctl.fast, ranges := j.d.ranges, outs := j.d.outs, job := l, tiles := ts, holds := ts }
          (ts.mapIdx fun i u => (i, u)).foldl (fun a u => a.updTile u.2 fun z => z.startMatmul c x.seq u.1 ts.length) s2

/-- Every tile of a matmul has ended: its output is written and its work ends. -/
def State.matmulEnds (s : State) (c : CmdId) (x : Cmd) : State :=
  match x.holds with
  | [] => s.endWork c 0
  | t :: _ =>
    let v := leNat x.record
    match matJob t v x.job with
    | .error _ => (s.scribbleOuts x).endWork c 0
    | .ok j =>
      let base := chainBase j.instr ⟨some j.a, some j.b, j.c, some j.d⟩ j.a.n0
      let batches := ((upTo j.d.n3).map fun i3 => (upTo j.d.n2).map fun i2 => (i3, i2)).flatten
      match s.runJob c j base x.holds.length batches (0, 0) with
      | (s1, .error e) => s1.failCmd c { e with die := e.die <|> some (logicOfDie (dieOf t)) } engArray (some t)
      | (s1, .ok (fl, ce)) =>
        let (spill, s2) := s1.jobSpill (bit v 351)
        (s2.updCmd c fun y =>
          { y with flags := y.flags ||| fl, spill := spill, ceilings := if ce = 0 then [] else [(j.dAt, ce)] }).endWork c 0

/-- A tile has done its part of a matmul. -/
def State.matmulTileDone (s : State) (t : TileId) (c : CmdId) : State :=
  if s.tileStopping t || (s.tile t).seq.run ≠ .ended then s
  else
    let s1 := (s.updSeq t fun q => { q with run := .done }).updCmd c fun x => { x with tiles := x.tiles.filter (· ≠ t) }
    match s1.cmd? c with
    | none => s1
    | some x => if x.tiles.isEmpty then s1.matmulEnds c x else s1

/-- R142, R248. -/
def execTileDone (t : TileId) (s : State) : Out :=
  .next (match s.matmulOn t with
    | some c => s.matmulTileDone t c
    | none => s.tileDone t)

/-- What a check of a matmul's tile finds: the command fails; with the checks disabled a mismatch is not seen and makes
the product unspecified (R116, R118, R120). -/
def State.matmulCheck (s : State) (t : TileId) (c : CmdId) (seen : Bool) (e : Option Fail) : State :=
  match e with
  | none => s
  | some e => if seen then s.failTile t { e with die := e.die <|> some (logicOfDie (dieOf t)) } engArray
    else s.updCmd c fun y => { y with job := [] }

/-- R109, R118. -/
def execPassEnd (t : TileId) (p : PaneId) (c : ArrayCheck) (s : State) : Out :=
  .next (match s.matmulOn t with
    | some m => s.matmulCheck t m (!arrayUnseen c || s.checkedTile t) (arrayCheckFail t c)
    | none => s.passEnd t p c)

/-- R111, R118. -/
def execReadout (t : TileId) (p : PaneId) (c : UnitCheck) (s : State) : Out :=
  .next (match s.matmulOn t with
    | some m => s.matmulCheck t m (c = .doubleBit || s.checkedTile t) (checkFail t c 0)
    | none => s.readout t p c)

end Sys2Proof.Machine
end

