-- ==== Sys2Proof/Machine/TileSem.lean ====
section
/-! DEFINITION. Semaphores: the dies' operations on them, and the sem instruction (R138 to R141, R207,
R209, R211). -/

namespace Sys2Proof.Machine

/-! ## The die's operations (R140, R141) -/

/-- Test the pending waits on a semaphore in order of arrival against a value; each satisfied take lowers
it before the next is tested (R141). -/
def testWaits (n : BitVec 14) : BitVec 32 → List SemWait → BitVec 32 × List SemWait
  | v, [] => (v, [])
  | v, w :: ws =>
    if w.sem = n ∧ !w.met ∧ w.count.toNat ≤ v.toNat then
      let (v1, r) := testWaits n (if w.take then v - w.count else v) ws
      (v1, { w with met := true } :: r)
    else
      let (v1, r) := testWaits n v ws
      (v1, w :: r)

/-- Give a semaphore a value and test its waiters. -/
def State.semStore (s : State) (n : BitVec 14) (v : BitVec 32) : State :=
  let (v1, ws) := testWaits n v s.semWaits
  { s.setSem n v1 with semWaits := ws }

/-- A signal: the sum, or 0xFFFF_FFFF with an overflow (R140). -/
def State.semAdd (s : State) (n : BitVec 14) (k : BitVec 32) : State × Bool :=
  if (s.sem n).toNat + k.toNat ≥ 2 ^ 32 then (s.semStore n 0xFFFFFFFF, true)
  else (s.semStore n (s.sem n + k), false)

/-- A wait or take arrives: it stands last among the pending ones, met at once where its condition holds
(R141). -/
def State.semArrive (s : State) (w : SemWait) : State :=
  { s with semWaits := s.semWaits ++ [w] }.semStore w.sem (s.sem w.sem)

/-- The die of a semaphore, and whether a partition may use it (R138). -/
def semDie (n : BitVec 14) : Option DieId := DieId.ofNat? (bits n.toNat 13 10)
def State.semOwned (s : State) (p : PartId) (n : BitVec 14) : Bool :=
  match semDie n with
  | none => false
  | some d => (s.die d).owner = some p

/-! ## The sem instruction (R139) -/

def semId (x : BitVec 64) : BitVec 14 := x.extractLsb' 32 14
def semKind (x : BitVec 64) : Nat := bits x.toNat 15 13

/-- The encoding of R139. -/
def semLegal (x : BitVec 64) : Bool := bits x.toNat 47 46 = 0 && bits x.toNat 12 0 = 0 && semKind x ≤ 4

/-- The count: the low 32 bits of register b. -/
def State.semCount (s : State) (t : TileId) (x : BitVec 64) : BitVec 32 := (s.reg t (fA (lowWord x))).setWidth 32

/-- A sem instruction of one kind; a kind of no meaning is illegal whichever command it comes by (R128, R139). A semaphore
outside the partition faults (R138). -/
def State.semOp (s : State) (t : TileId) (x : BitVec 64) (kind : Nat) (f : State → State) : State :=
  s.issue64 t x (opOf (lowWord x) = 0x3C && (semKind x = kind || 4 < semKind x)) (semLegal x) fun s =>
    if (s.tilePart t).any fun p => s.semOwned p (semId x) then
      f (s.trace (srcTile t) 5 (packBits [(14, (semId x).toNat), (3, kind), (15, 0), (32, (s.semCount t x).toNat)]))
    else s.tileFault t 0x06 0x1102 0 (s.tile t).seq.pc engSeq

/-- R140: signal adds the count; d receives the value before. -/
def execSemSignal (t : TileId) (x : BitVec 64) (s : State) : Out :=
  .next (s.semOp t x 0 fun s =>
    let old := s.sem (semId x)
    match s.semAdd (semId x) (s.semCount t x) with
    | (s1, true) => s1.tileFault t 0x07 0x2007 0 (s.tile t).seq.pc engSeq
    | (s1, false) => s1.writeReg t (fD (lowWord x)) (old.setWidth 64) 8)

/-- R139: read gives d the value. -/
def execSemRead (t : TileId) (x : BitVec 64) (s : State) : Out :=
  .next (s.semOp t x 3 fun s => s.writeReg t (fD (lowWord x)) ((s.sem (semId x)).setWidth 64) 8)

/-- R139: set gives the semaphore the count; d receives the value before. -/
def execSemSet (t : TileId) (x : BitVec 64) (s : State) : Out :=
  .next (s.semOp t x 4 fun s =>
    (s.semStore (semId x) (s.semCount t x)).writeReg t (fD (lowWord x)) ((s.sem (semId x)).setWidth 64) 8)

/-- A wait or take: the sequencer waits until the die answers. -/
def State.semPend (s : State) (t : TileId) (x : BitVec 64) (take : Bool) : State :=
  (s.semArrive ⟨semId x, take, s.semCount t x, .tile t (fD (lowWord x)) (bits x.toNat 63 48) s.time, false⟩).updSeq t
    fun q => { q with run := .waitSem }

/-- R139: wait until the value reaches the count. -/
def execSemWait (t : TileId) (x : BitVec 64) (s : State) : Out :=
  .next (s.semOp t x 1 fun s => s.semPend t x false)

/-- R139: take waits as wait does, then subtracts the count. -/
def execSemTake (t : TileId) (x : BitVec 64) (s : State) : Out :=
  .next (s.semOp t x 2 fun s => s.semPend t x true)

/-- The result register of a tile's wait. -/
def SemWait.dest (w : SemWait) : BitVec 5 :=
  match w.who with
  | .tile _ d _ _ => d
  | .cmd _ => 0

/-- End a tile's wait with a result (R139). -/
def State.semEnd (s : State) (t : TileId) (w : SemWait) (v : Word) : State :=
  { s with semWaits := s.semWaits.filter fun y => !y.ofTile t }.updSeq t
    fun q => { q.setReg w.dest v with pc := q.pc + 8, run := .running }

/-- R141: a wait or take that is met takes its acquire and returns 0. -/
def State.semWaitRelease (s : State) (t : TileId) : State :=
  match s.semWaits.find? fun w => w.ofTile t && w.met with
  | none => s
  | some w => if (s.tile t).inReset then s else (s.acquireWhole (dieOf t)).semEnd t w 0

def execSemWaitRelease (t : TileId) (s : State) : Out := .next (s.semWaitRelease t)

/-- Whether a tile's wait has a budget that has run out. -/
def SemWait.expired (w : SemWait) (now : Nat) : Bool :=
  match w.who with
  | .tile _ _ b since => b ≠ 0 && since + 1000 * b ≤ now
  | .cmd _ => false

/-- R139: the budget of an unmet wait runs out; it returns 1 and a take subtracts nothing. -/
def State.semBudgetExpiry (s : State) (t : TileId) : State :=
  match s.semWaits.find? fun w => w.ofTile t && !w.met && w.expired s.time with
  | none => s
  | some w => if (s.tile t).inReset then s else s.semEnd t w 1

def execSemBudgetExpiry (t : TileId) (s : State) : Out := .next (s.semBudgetExpiry t)

end Sys2Proof.Machine
end

