-- ==== Sys2Proof/Machine/FrontEnd.lean ====
section
/-! DEFINITION. The front end's commands: doorbells, fetching, the commands it runs itself, the end-of-command
release, publication and timeouts (R203, R242 to R277, R519). -/

namespace Sys2Proof.Machine

/-! ## Doorbells (R244, R272) -/

/-- R244. -/
def execDoorbellTailWrite (f : FnId) (q : QueueId) (v : BitVec 32) (s : State) : Out :=
  .next (if s.bar0Open && s.ownsPage f q then s.ringTail q v else s)

/-- R272: the driver frees completion slots. -/
def execCplHeadWrite (f : FnId) (q : QueueId) (v : BitVec 32) (s : State) : Out :=
  .next (if s.bar0Open && s.ownsPage f q then s.updQueue q fun x => { x with cplHead := v } else s)

/-! ## Fetching (R241, R242, R258 to R260, R266) -/

/-- Records of a queue that are in flight (R241). -/
def Queue.inFlight (x : Queue) : Nat := (x.cmds.filter fun c => c.depth = 0).length + x.held.length

def State.moduleInFlight (s : State) : Nat := s.queues.foldl (fun n e => n + e.2.inFlight) 0

/-- Whether a queue fetches now (R241, R267, R275, R376). -/
def State.mayFetch (s : State) (q : QueueId) : Bool :=
  let x := s.queue q
  match x.cfg with
  | none => false
  | some c =>
    x.state = qRunning && x.halting.isNone && !x.preempting && s.partAwake c.partition && s.boot.state = 1
      && ((s.part c.partition).local_.filter fun h => h.queue = q).length < 4096
      && !(x.cmds.any fun d => [8, 9, 10].contains d.opcode && d.stage = .fetched)

/-- The first fetch after a doorbell is an acquire (R209, R244). -/
def State.fetchAcquire (s : State) (q : QueueId) : State :=
  if (s.queue q).acquirePending then
    (s.acquirePart (s.queuePart q) none).updQueue q fun x => { x with acquirePending := false }
  else s

/-- A fetched record enters its queue; one that a check or a skip completes never begins. -/
def State.enter (s : State) (q : QueueId) (seq : BitVec 32) (depth : Nat) (b : Bytes) (st : Option (BitVec 16)) : State :=
  let x := s.queue q
  let c : Cmd := { id := x.nextId, seq := seq, record := b, depth := depth }
  let c1 : Cmd := match st with
    | none => c
    | some v => { c with status := v, stage := .released, doneAt := s.stamp, engine := if v = 1 then 0 else engFront }
  let s1 := s.setQueue q { x with nextId := x.nextId + 1, cmds := x.cmds ++ [c1] }
  match st with
  | none => s1.stagePreload q c
  | some v => if v = 1 then s1 else (s1.haltFor ⟨q, c.id⟩).settleBuffers q

/-- A ring record (R242, R258, R266). -/
def State.fetchRing (s : State) (q : QueueId) (c : QueueCfg) : State :=
  let x := s.queue q
  if x.head = x.tail || c.maxInflight ≤ x.inFlight || 16384 ≤ s.moduleInFlight then s
  else
    let s0 := s.fetchAcquire q
    match s0.vread c.partition (c.ring.toNat + 64 * (x.head.toNat % 2 ^ c.ringLog2)) 64 with
    | .error e =>
      (s0.recordFault
        { kind := 0x01, status := e.status, engine := engFront, context := s.contextId q, seq := x.head
          src := srcHub (2 + q.val % 8), stack := e.stack, die := e.die, mech := e.mech, addr := e.addr
          part := some c.partition }).2.haltQueue q 0x03
    | .ok b =>
      let s1 := s0.updQueue q fun y => { y with head := y.head + 1, skip := y.skip - 1 }
      if x.skip ≠ 0 then s1.enter q x.head 0 b (some (if bits (leNat b) 63 32 = x.head.toNat then 1 else 0x1004))
      else
        let st := s1.recordCheck q 0 x.head b
        s1.enter q x.head 0 b (if st = 0 then none else some st)

/-- Whether a loop's next iteration runs (R257, R259). -/
def State.iterates (s : State) (q : QueueId) (f : Frame) : Except Fail Bool :=
  if !f.condEn then .ok true
  else (s.testValue q f.addr.toNat f.w64).map fun v => testHolds f.pred f.w64 v f.imm.toNat

/-- The sequence number of the ring record whose buffer runs. -/
def Queue.ringSeq (x : Queue) : BitVec 32 := ((x.cmds.filter fun c => c.depth = 0).getLast?.map fun c => c.seq).getD 0

/-- The loop or call of the innermost frame. -/
def Queue.topLoop (x : Queue) : Option Cmd :=
  (x.cmds.filter fun c => (c.opcode = 9 || c.opcode = 10) && c.stage = .begun && c.depth + 1 = x.frames.length).getLast?

/-- A record of the innermost buffer, or the end of an iteration (R259, R260). -/
def State.fetchBuffer (s : State) (q : QueueId) (c : QueueCfg) (f : Frame) (fs : List Frame) : State :=
  let x := s.queue q
  if f.index < f.len then
    match s.vread c.partition (f.buf.toNat + 64 * f.index) 64 with
    | .error e =>
      match x.topLoop with
      | none => s
      | some l => (s.frontFail ⟨q, l.id⟩ e).settleBuffers q
    | .ok b =>
      let s1 := s.setQueue q { x with frames := { f with index := f.index + 1 } :: fs }
      let st := s1.recordCheck q x.frames.length 0 b
      s1.enter q x.ringSeq x.frames.length b (if st = 0 then none else some st)
  else if f.left = 0 then (s.setQueue q { x with frames := fs }).settleBuffers q
  else if f.condEn && !(x.topLoop.any fun l => x.cmds.getLast?.any fun d => d.id = l.id) then s
  else
    match s.iterates q f with
    | .ok true => s.setQueue q { x with frames := { f with index := 0, left := f.left - 1 } :: fs }
    | .ok false => (s.setQueue q { x with frames := fs }).settleBuffers q
    | .error e =>
      match x.topLoop with
      | none => s
      | some l => (s.frontFail ⟨q, l.id⟩ e).settleBuffers q

/-- R266: one record is fetched and checked. -/
def execCommandFetch (q : QueueId) (s : State) : Out :=
  let s0 := s.settleBuffers q
  let x := s0.queue q
  match x.cfg with
  | none => .next s
  | some c =>
    if !s0.mayFetch q then .next s0
    else .next ((match x.frames with
      | [] => s0.fetchRing q c
      | f :: fs => s0.fetchBuffer q c f fs).launchResident q)

/-! ## nop, kernel, matmul, dma -/

/-- R247. -/
def execNop (q : QueueId) (s : State) : Out := .next (s.frontRow q 0 (fun _ => true) fun s c _ => s.endWork c 0)

/-- A command that needs a run of tiles begins: at once with a failure where one is fenced (R414), else once
they are free and no queue of higher priority claims them (R262, R263). -/
def State.tileRow (s : State) (q : QueueId) (op : Nat) (ts : Cmd → Option (List TileId)) (free : State → Cmd → List TileId → Bool)
    (f : State → CmdId → Cmd → List TileId → State) : State :=
  match s.readyCmd q op with
  | none => s
  | some c =>
    match ts c with
    | none => (s.beginCmd ⟨q, c.id⟩).frontFail ⟨q, c.id⟩ { status := 0x1003 }
    | some l =>
      if l.any s.tileFenced then (s.beginCmd ⟨q, c.id⟩).frontFail ⟨q, c.id⟩ { status := 0x900C }
      else if !free s c l || s.outranked q l then s
      else f (s.beginCmd ⟨q, c.id⟩) ⟨q, c.id⟩ c l

/-- The tiles of a record that names a run of them (R248, R249, R253). -/
def Cmd.span (c : Cmd) : Option (List TileId) := (recordTiles (leNat c.record)).bind fun r => tileSpan r.1 r.2

/-- R248. -/
def execMatmul (q : QueueId) (s : State) : Out :=
  .next (s.tileRow q 1 Cmd.span (fun s _ l => l.all s.tileReady) fun s c x l => s.matmul c x l)

/-- Whether an earlier kernel of the queue, not yet published, names a tile of this one (R264). -/
def Queue.kernelAhead (x : Queue) (c : Cmd) (l : List TileId) : Bool :=
  (x.cmds.takeWhile fun d => d.id ≠ c.id).any fun d => d.opcode = 2 && (d.span.getD []).any l.contains

/-- R251, R264: a kernel is launched. -/
def State.kernel (s : State) (c : CmdId) (x : Cmd) (l : List TileId) : State :=
  let halved := (s.queue c.queue).cfg.any fun g => !g.nopre
  match s.readLaunch c.queue (x.field 127 64) false with
  | .error e => s.frontFail c e
  | .ok b =>
    match s.readImage c.queue b with
    | .error e => s.frontFail c e
    | .ok (img, args) =>
      (s.updCmd c fun y => { y with tiles := l, holds := l, ranges := b.ranges }).startTiles b img args c x.seq l.length false halved 0 l

/-- R265: a kernel record of a persistent queue is delivered to its resident tiles. -/
def State.deliverAll (s : State) (c : CmdId) (g : QueueCfg) (x : Cmd) : State :=
  match s.readLaunch c.queue g.pLaunch.toNat true with
  | .error e => s.frontFail c e
  | .ok b =>
    let s1 := s.updCmd c fun y => { y with tiles := g.residents, ranges := b.ranges }
    g.residents.foldl (fun a t => a.deliver x t) s1

/-- R251, R265. -/
def execKernel (q : QueueId) (s : State) : Out :=
  match (s.queue q).cfg with
  | none => .next s
  | some g =>
    if g.persist then
      if s.residentUp q then
        .next (s.frontRow q 2 (fun c => !((s.queue q).cmds.any fun d => d.opcode = 2 && d.stage = .begun
            && d.seq.toNat % 64 = c.seq.toNat % 64)) fun s c x => s.deliverAll c g x)
      else .next s
    else .next (s.tileRow q 2 Cmd.span
      (fun s c l => l.all s.tileReady && (g.nopre || !(s.queue q).kernelAhead c l)) fun s c x l => s.kernel c x l)

/-- R252: the descriptors are handed to the tile's engine. -/
def execDmaCommand (q : QueueId) (s : State) : Out :=
  .next (s.tileRow q 3 Cmd.span (fun s _ l => l.all fun t => !(s.tile t).inReset) fun s c x l =>
    match l with
    | [] => s
    | t :: _ =>
      let n := x.field 143 128
      (s.updCmd c fun y => { y with descs := n }).updTile t fun y =>
        { y with dma := { y.dma with
            handed := y.dma.handed ++ (upTo n).map fun i => (c, BitVec.ofNat 64 (x.field 127 64 + 128 * i), i) } })

/-! ## Waits (R235, R236, R254) -/

/-- Whether a wait's acquire range is translated (R254). -/
def State.waitRange (s : State) (c : CmdId) (x : Cmd) : Except Fail (Option (List (Nat × Nat))) :=
  if x.field 66 66 = 1 then (s.wholeRange (s.queuePart c.queue) (x.field 255 192) (x.field 319 256)).map some else .ok none

/-- A wait begins: its range first, then its registration. -/
def State.waitRow (s : State) (q : QueueId) (kind : Nat) (f : State → CmdId → Cmd → State) : State :=
  s.frontRow q 5 (fun c => c.field 65 64 = kind) fun s c x =>
    match s.waitRange c x with
    | .error e => s.frontFail c e
    | .ok _ => f s c x

/-- R254, R139: a semaphore wait or take arrives at its die. -/
def State.semWaitCmd (s : State) (c : CmdId) (x : Cmd) (take : Bool) : State :=
  s.semArrive ⟨BitVec.ofNat 14 (x.field 93 80), take, BitVec.ofNat 32 (x.field 159 128), .cmd c, false⟩

def execWaitSemaphore (q : QueueId) (s : State) : Out := .next (s.waitRow q 0 fun s c x => s.semWaitCmd c x false)
def execTakeSemaphore (q : QueueId) (s : State) : Out := .next (s.waitRow q 1 fun s c x => s.semWaitCmd c x true)

/-- R235, R236: a counter wait registers with its agent while fewer than 512 are registered there. -/
def State.ctrWaitCmd (s : State) (c : CmdId) (x : Cmd) : State :=
  match StackId.ofNat? (x.field 112 108) with
  | none => s.frontFail c { status := 0x1003 }
  | some k =>
    let n := BitVec.ofNat 12 (x.field 107 96)
    let t := BitVec.ofNat 48 (x.field 175 128)
    let v := s.ctr k n
    if (t - v).toNat = 2 ^ 47 then s.frontFail c { status := 0x2006 }
    else
      let reg := (s.ctrWaits.filter fun w => w.stack = k && w.registered).length < 512
      { s with ctrWaits := s.ctrWaits ++ [⟨k, n, t, c, reg, reg && ctrReached v t⟩] }

def execCounterWait (q : QueueId) (s : State) : Out := .next (s.waitRow q 2 fun s c x => s.ctrWaitCmd c x)

/-- Whether a begun wait's condition has been met. -/
def State.waitMet (s : State) (c : CmdId) : Bool :=
  (s.semWaits.any fun w => w.who = .cmd c && w.met) || (s.ctrWaits.any fun w => w.cmd = c && w.met)

/-- R254: the satisfied wait acquires and completes (R209, R211). -/
def execWaitSatisfied (q : QueueId) (s : State) : Out :=
  match (s.queue q).cmds.find? fun x => x.opcode = 5 && x.stage = .begun && s.waitMet ⟨q, x.id⟩ with
  | none => .next s
  | some x =>
    let c : CmdId := ⟨q, x.id⟩
    let s1 := s.dropWaits c
    match s1.waitRange c x with
    | .error e => .next (s1.frontFail c e)
    | .ok ps => .next ((s1.acquirePart (s.queuePart q) ps).endWork c 0)

/-! ## Signals (R245, R255) -/

/-- A signal of one kind. -/
def State.signalRow (s : State) (q : QueueId) (kind : Nat) (f : State → CmdId → Cmd → State) : State :=
  s.frontRow q 6 (fun c => c.field 66 64 = kind) f

/-- R140, R255. -/
def execSignalSemaphoreAdd (q : QueueId) (s : State) : Out :=
  .next (s.signalRow q 0 fun s c x =>
    match s.semAdd (BitVec.ofNat 14 (x.field 93 80)) (BitVec.ofNat 32 (x.field 159 128)) with
    | (s1, true) => s1.frontFail c { status := 0x2007 }
    | (s1, false) => s1.endWork c 0)

def execSignalSemaphoreSet (q : QueueId) (s : State) : Out :=
  .next (s.signalRow q 1 fun s c x =>
    (s.semStore (BitVec.ofNat 14 (x.field 93 80)) (BitVec.ofNat 32 (x.field 159 128))).endWork c 0)

/-- R245: the tail of a queue of the same partition. -/
def execSignalDoorbell (q : QueueId) (s : State) : Out :=
  .next (s.signalRow q 2 fun s c x =>
    let r := QueueId.ofNat (x.field 107 96)
    match (s.queue r).cfg with
    | none => s.frontFail c { status := 0x1009 }
    | some g =>
      if g.partition ≠ s.queuePart q then s.frontFail c { status := 0x1102 }
      else (s.ringTail r (BitVec.ofNat 32 (x.field 159 128))).endWork c 0)

/-- R255: a value written at the stack agent, or to the host after ATS translation. -/
def execSignalWriteValue (q : QueueId) (s : State) : Out :=
  .next (s.signalRow q 3 fun s c x =>
    let a := x.field 255 192
    let b := natLe (x.field 191 128) 8
    let r := match reachOf (BitVec.ofNat 64 a) with
      | .error e => (s, some e)
      | .ok (.device va) => s.vwrite (s.queuePart q) (s.queueKernel q) va b
      | .ok (.host h) => s.hostWrite h b
      | .ok _ => (s, some { status := 0x1003, addr := BitVec.ofNat 64 a })
    match r with
    | (s1, some e) => s1.frontFail c e
    | (s1, none) => s1.endWork c 0)

/-! ## Fences (R206, R256) -/

/-- The range of a fence; none is the whole cache. -/
def State.fenceRange (s : State) (c : CmdId) (x : Cmd) : Except Fail (Option (List (Nat × Nat))) :=
  if x.field 67 67 = 1 then (s.wholeRange (s.queuePart c.queue) (x.field 191 128) (x.field 255 192)).map some else .ok none

/-- R206: a flush on every die of the partition; the first failure. -/
def State.flushPart (s : State) (p : PartId) (ps : Option (List (Nat × Nat))) (inval : Bool) : State × Option Fail :=
  (s.partDies p).foldl (fun (a : State × Option Fail) (d : DieId) =>
    let (s1, f) := match ps with
      | none => a.1.writeBackAll d
      | some l => a.1.writeBackIn d l
    let s2 := if inval then s1.dropCleanIn d (ps.getD [(0, 2 ^ 42)]) else s1
    (s2, a.2 <|> f)) (s, none)

/-- A fence whose acquire and flush bits are these. -/
def State.fenceRow (s : State) (q : QueueId) (mine : Bool → Bool → Bool) : State :=
  s.frontRow q 7 (fun c => mine (c.field 64 64 = 1) (c.field 65 65 = 1)) fun s c x =>
    match s.fenceRange c x with
    | .error e => s.frontFail c e
    | .ok ps =>
      let p := s.queuePart q
      let (s1, err) := if x.field 65 65 = 1 then s.flushPart p ps (x.field 66 66 = 1) else (s, none)
      match err with
      | some e => s1.frontFail c { e with status := 0x900B }
      | none => (if x.field 64 64 = 1 then s1.acquirePart p ps else s1).endWork c 0

def execFence (q : QueueId) (s : State) : Out := .next (s.fenceRow q fun a f => !a && !f)
def execFenceAcquire (q : QueueId) (s : State) : Out := .next (s.fenceRow q fun a f => a && !f)
def execFenceFlush (q : QueueId) (s : State) : Out := .next (s.fenceRow q fun _ f => f)

/-! ## cond, loop, call, ptinval (R201, R257 to R261) -/

/-- The condition fields of a cond: predicate, width, address, immediate. -/
def Cmd.condFrame (x : Cmd) : Frame :=
  { buf := 0, len := 0, index := 0, left := 0, condEn := true, pred := BitVec.ofNat 3 (x.field 66 64), w64 := x.field 67 67 = 1
    addr := BitVec.ofNat 64 (x.field 191 128), imm := BitVec.ofNat 64 (x.field 255 192) }

/-- Skip records: in the ring beyond its tail, in a buffer not past its end (R258). -/
def State.skipRecords (s : State) (c : CmdId) (x : Cmd) (n : Nat) : State :=
  let y := s.queue c.queue
  if x.depth = 0 then (s.setQueue c.queue { y with skip := n }).endWork c 0
  else
    match y.frames with
    | [] => s.endWork c 0
    | f :: fs =>
      if f.len < f.index + n then s.frontFail c { status := 0x1003 }
      else (s.setQueue c.queue { y with frames := { f with index := f.index + n } :: fs }).endWork c 0

/-- R257, R258. -/
def execCond (q : QueueId) (s : State) : Out :=
  .next (s.frontRow q 8 (fun _ => true) fun s c x =>
    match s.iterates q x.condFrame with
    | .error e => s.frontFail c e
    | .ok true => s.skipRecords c x (x.field 95 80)
    | .ok false => s.endWork c 0)

/-- The frame of a loop or call (R259). -/
def Cmd.bufferFrame (x : Cmd) : Frame :=
  { buf := BitVec.ofNat 64 (x.field 127 64), len := x.field 143 128, index := 0, left := x.field 191 160 - 1
    condEn := x.opcode = 9 && x.field 196 196 = 1, pred := BitVec.ofNat 3 (x.field 194 192), w64 := x.field 195 195 = 1
    addr := BitVec.ofNat 64 (x.field 319 256), imm := BitVec.ofNat 64 (x.field 383 320) }

/-- A loop or call starts its buffer one level deeper; at depth 8 it fails (R260). -/
def State.startBuffer (s : State) (c : CmdId) (x : Cmd) : State :=
  if 8 ≤ x.depth then s.frontFail c { status := 0x100A }
  else
    match s.iterates c.queue x.bufferFrame with
    | .error e => s.frontFail c e
    | .ok false => s.endWork c 0
    | .ok true => s.updQueue c.queue fun y => { y with frames := x.bufferFrame :: y.frames }

/-- R259. -/
def execLoop (q : QueueId) (s : State) : Out := .next (s.frontRow q 9 (fun _ => true) fun s c x => s.startBuffer c x)
/-- R259. -/
def execCallBuffer (q : QueueId) (s : State) : Out := .next (s.frontRow q 10 (fun _ => true) fun s c x => s.startBuffer c x)

/-- R201: every access uses the tables as they stand, so nothing is held to discard (notes/assumptions/17.md). -/
def execPtinval (q : QueueId) (s : State) : Out := .next (s.frontRow q 0x10 (fun _ => true) fun s c _ => s.endWork c 0)

/-! ## End of command (R85, R203, R352) -/

/-- Write back a command's output ranges on the dies of its partition; the status of the first failure. -/
def State.releaseRanges (s : State) (p : PartId) : List (Word × Nat) → State × Option Fail
  | [] => (s, none)
  | (b, n) :: rs =>
    match s.wholeRange p b.toNat n with
    | .error e => (s, some e)
    | .ok ps =>
      match (s.partDies p).foldl (fun (a : State × Option Fail) (d : DieId) =>
          let (s1, f) := a.1.writeBackIn d ps
          (s1, a.2 <|> f)) (s, none) with
      | (s1, some e) => (s1, some { e with status := 0x900B })
      | (s1, none) => s1.releaseRanges p rs

/-- Fold the ceilings that wait for the release (R183, R203); the first failure. -/
def State.releaseCeilings (s : State) (p : PartId) (cs : List (Word × Byte)) : State × Option Fail :=
  cs.foldl (fun (a : State × Option Fail) (e : Word × Byte) =>
    let (s1, f) := a.1.foldCeiling none p e.1 e.2
    (s1, a.2 <|> f)) (s, none)

/-- The ceilings of named destinations go to 0xFF (R85). -/
def State.spoilCeilings (s : State) (p : PartId) (ds : List Word) : State :=
  ds.foldl (fun a d => (a.foldCeiling none p d 0xFF).1) s

/-- A failure at the release gives a command its status, where it had none, and halts its queue. -/
def State.releaseFail (s : State) (c : CmdId) (e : Fail) : State :=
  let (no, s1) := if writesRecord e.status then s.recordCmdFault c e engFront none else (0, s)
  match s1.cmd? c with
  | none => s1
  | some x =>
    if haltsQueue x.status false then s1
    else (s1.updCmd c fun y => { y with status := e.status, engine := engFront, faultRef := no }).haltFor c

/-- The release of a command whose work is done. -/
def State.release (s : State) (c : CmdId) (x : Cmd) : State :=
  let p := s.queuePart c.queue
  let (s1, e1) := s.releaseRanges p x.ranges
  let (s2, e2) := s1.releaseCeilings p x.ceilings
  let s3 := match e1 <|> e2 with
    | none => s2
    | some e => s2.releaseFail c e
  let st := (s3.cmd? c).elim 0 fun y => y.status
  let s4 := if spoilsCeilings st then s3.spoilCeilings p x.dests else s3
  s4.updCmd c fun y => { y with stage := .released, ceilings := [], doneAt := s.stamp }

/-- R203. -/
def execEndOfCommandRelease (q : QueueId) (seq : BitVec 32) (s : State) : Out :=
  match s.findSeq q seq .worked with
  | none => .next s
  | some x => .next ((s.release ⟨q, x.id⟩ x).settleBuffers q)

/-! ## Publication (R268, R272, R273) -/

/-- A record that a resume passed over: never fetched (R268). -/
def skippedByResume (seq : BitVec 32) (now : Word) : Cmd := { id := 0, seq := seq, record := [], status := 0x8003, doneAt := now }

/-- Publish, or hold, the next record of a queue (R272, R273). -/
def State.publish (s : State) (q : QueueId) (c : QueueCfg) : State :=
  let x := s.queue q
  match x.resumeTo with
  | some r =>
    if x.nextPub = r then s.updQueue q fun y => { y with resumeTo := none }
    else if slotFree x c x.nextPub && x.state ≠ qStalled then s.publishOne q c x.nextPub (skippedByResume x.nextPub s.stamp)
    else s
  | none =>
    if x.state = qStalled then
      match x.cmds with
      | [] => s
      | d :: ds =>
        if d.stage = .released && x.held.length < 64 then s.setQueue q { x with cmds := ds, held := x.held ++ [d] } else s
    else
      match x.held, x.cmds with
      | d :: ds, _ => if slotFree x c d.seq then (s.setQueue q { x with held := ds }).publishOne q c d.seq d else s
      | [], [] => s
      | [], d :: ds =>
        if d.stage = .released && slotFree x c d.seq then (s.setQueue q { x with cmds := ds }).publishOne q c d.seq d else s

/-- Whether a queue's completion ring stands in a die that a reset has fenced: its records wait (R413). -/
def State.cplFenced (s : State) (c : QueueCfg) : Bool :=
  match reachOf c.cpl with
  | .ok (.device va) => match s.translate c.partition va with
    | .ok x => (s.agentFenced x.pa).isSome
    | .error e => e.status = 0x9009
  | _ => false

/-- R272: the next completion record is written in sequence order. -/
def execCompletionPublish (q : QueueId) (s : State) : Out :=
  let s0 := s.settleBuffers q
  match (s0.queue q).cfg with
  | none => .next s
  | some c => .next <| if s.cplFenced c then s else (((s0.publish q c).settle q).launchResident q)

/-! ## Timeouts (R269) -/

/-- The oldest incomplete command of a queue: the first ring record that has not been released. -/
def Queue.oldest (x : Queue) : Option Cmd := x.cmds.find? fun c => c.depth = 0 && c.stage ≠ .released

/-- Whether a queue's timer runs (R269, R277). -/
def Queue.timed (x : Queue) : Bool := x.state ≠ qPreempted && !x.preempting && x.cfg.any fun c => c.timeout ≠ 0

/-- Time passes on a queue's timer; it starts from zero for each new oldest command (R269). -/
def Queue.age (x : Queue) (ns : Nat) : Queue :=
  if !x.timed then x
  else
    match x.oldest with
    | none => { x with timer := 0, timerOf := 0 }
    | some c => if x.timerOf = c.id then { x with timer := x.timer + ns } else { x with timer := ns, timerOf := c.id }

/-- A command times out: a collective aborts with cause 0x04, any other is abandoned (R269, R354). -/
def State.timeOut (s : State) (q : QueueId) (x : Cmd) : State :=
  let c : CmdId := ⟨q, x.id⟩
  if x.opcode = 4 ∧ s.colls.any (fun k => k.cmd = c) then s.raiseAbort c 0x04 0x7001 0x7001 none
  else ((s.abandonWork c).updCmd c fun y => y.finish 0x7001 s.stamp).haltFor c |>.settleBuffers q

/-- R269. -/
def execQueueTimeout (q : QueueId) (s : State) : Out :=
  let x := s.queue q
  match x.cfg, x.oldest with
  | some g, some c =>
    .next (if x.timed && x.timerOf = c.id && g.timeout.toNat * 1000000 ≤ x.timer && c.live then s.timeOut q c else s)
  | _, _ => .next s

end Sys2Proof.Machine
end

