-- ==== Sys2Proof/Machine/VecMem.lean ====
section
/-! DEFINITION. The memory and scalar operations of the vector engine and its ceiling slots (R159 to R161,
R167, R168). -/

namespace Sys2Proof.Machine

/-! ## Elements between lanes and formats (R160) -/

/-- An element of a format, with its block's scale, as a lane. -/
def loadElem (l : Lane) (g : Format) (c : RCtl) (base : Int) (raw : Nat × Nat) : Nat × BitVec 16 :=
  match l with
  | .int32 => if g.elem = .fp32 then (raw.1, 0) else laneEnc l c (g.value 0 raw)
  | .fret64 => (raw.1, 0)
  | _ => laneEnc l c (g.value base raw)

/-- A lane's element converted to an unscaled format. -/
def storeElem (l : Lane) (g : Format) (c : RCtl) (base : Int) (b : Nat) : Nat × BitVec 16 :=
  match l with
  | .int32 => if g.elem = .fp32 then (b, 0) else convert g.elem false c 0 0 (laneVal l b)
  | .fret64 => (b, 0)
  | _ => convert g.elem (l.elem = some g.elem) c 0 base (laneVal l b)

/-! ## Addresses (R159, R160) -/

/-- Alignment of s[va]: element size, or a byte for packed and block forms (R160, R178). -/
def Format.align (g : Format) : Nat :=
  match g.blk with
  | .none => if g.elem.width % 8 = 0 then g.elem.width / 8 else 1
  | _ => 1

/-- Whether `[a, a + n)` lies in a scratchpad. -/
def inScratch (a : Int) (n : Nat) : Bool := 0 ≤ a && a + n ≤ (scratchSize : Int)

/-- The fault of a vector address (R145 cause 0x02). -/
def State.vecAddrFault (s : State) (t : TileId) (i : Issue) : State × Option (List (Nat × Nat)) :=
  (s.tileFault t 0x02 0x2003 0 i.pc engVector, none)

/-- A read or a descriptor that fails for the vector engine. -/
def State.vecFail (s : State) (t : TileId) (e : Fail) : State × Option (List (Nat × Nat)) :=
  (s.failTile t { e with die := e.die <|> some (logicOfDie (dieOf t)) } engVector, none)

/-- Read several spans of the scratchpad; the first failure is the answer. -/
def Tile.readSpans (x : Tile) : List (Nat × Nat) → Except Fail (List Bytes)
  | [] => .ok []
  | (a, n) :: r =>
    match x.scratchRead a n, x.readSpans r with
    | .ok b, .ok bs => .ok (b :: bs)
    | .error e, _ => .error e
    | _, .error e => .error e

/-! ## Loads -/

/-- A fret base that the manual does not name for a load or store of the fret64 format by another lane
type (notes/assumptions/32.md). -/
def State.freeBase (s : State) : Int := baseInt ((Config.free64 s.fresh).setWidth 10)

/-- Load the elements `es` of a register, element e lying at index `k e` of the unit at address `at_ e`. -/
def State.vecLoad (s : State) (t : TileId) (i : Issue) (g : Format) (ok : Bool) (at_ : Nat → Int) (k : Nat → Nat) :
    State × Option (List (Nat × Nat)) :=
  let f := vecFields i.word
  let l := f.lane
  let v := (s.tile t).vec
  let es := v.lanesOn l f.mreg
  if !ok || !(es.all fun e => inScratch (at_ e) g.unitBytes) then s.vecAddrFault t i
  else
    match (s.tile t).readSpans (es.map fun e => ((at_ e).toNat, g.unitBytes)) with
    | .error e => s.vecFail t e
    | .ok bs =>
      let scales := (upTo (l.count / 32)).map fun j => Config.freeByte (s.fresh + 1 + j)
      let rs : List (Nat × Nat × BitVec 16) := (es.zip bs).map fun p =>
        let sc := if g.blk = .b32 then [((scales.drop (p.1 / 32)).headD 0)] else []
        (p.1, loadElem l g f.rctl s.freeBase (g.rawAt p.2 sc (k p.1)))
      let v1 := rs.foldl (fun a r => a.setElem l f.vd r.1 r.2.1) v
      let fl : BitVec 16 := rs.foldl (fun a r => a ||| r.2.2) 0
      ({ s with fresh := s.fresh + 1 + l.count / 32 }.updTile t fun x => { x with vec := v1 }.raise fl, some [])

/-- The format byte of a memory operation. -/
def VF.format (f : VF) : Format := (formatOf (BitVec.ofNat 8 f.aux)).getD ⟨.fp32, .none⟩

/-- R159 vld. -/
def execVld (t : TileId) (s : State) : Out :=
  .next (s.vecRun t 2 0x00 fun s i =>
    let g := (vecFields i.word).format
    s.vecLoad t i g (i.arg.toNat % g.align = 0)
      (fun e => (i.arg.toNat + e / g.unitElems * g.unitBytes : Nat)) fun e => e % g.unitElems)

/-- The index of a gather or scatter lane: the signed INT32 word i of vb (R159; words past 127 are free,
notes/assumptions/34.md). -/
def State.laneIndex (s : State) (t : TileId) (f : VF) (e : Nat) : Int :=
  if e < 128 then signed 32 ((s.tile t).vec.word f.vb e) else signed 32 (Config.free64 (s.fresh + 64 + e)).toNat

/-- R159 gather. -/
def execGather (t : TileId) (s : State) : Out :=
  .next (s.vecRun t 2 0x02 fun s i =>
    let f := vecFields i.word
    let g := f.format
    let r := s.vecLoad t i g (i.arg.toNat % g.align = 0)
      (fun e => (i.arg.toNat : Int) + s.laneIndex t f e * g.unitBytes) fun _ => 0
    ({ r.1 with fresh := max r.1.fresh (s.fresh + 320) }, r.2))

/-- R159 bcast: every element of vd takes the low bits of s[va]. -/
def execBcast (t : TileId) (s : State) : Out :=
  .next (s.vecRun t 2 0x04 fun s i =>
    let f := vecFields i.word
    let l := f.lane
    (s.updTile t fun x =>
      { x with vec := (x.vec.lanesOn l f.mreg).foldl (fun a e => a.setElem l f.vd e (i.arg.toNat % 2 ^ l.width)) x.vec }, some []))

/-- R159 ext: s[vd] takes element aux of va, zero-extended. -/
def execExt (t : TileId) (s : State) : Out :=
  .next (s.vecRun t 2 0x05 fun s i =>
    let f := vecFields i.word
    (s.updTile t fun x =>
      { x with seq := x.seq.setReg (BitVec.ofNat 5 f.vd) (BitVec.ofNat 64 (x.vec.elem f.lane f.va f.aux)) }, some []))

/-- R159 kld: k[vd[2:0]] takes 32 bytes at s[va]. -/
def execKld (t : TileId) (s : State) : Out :=
  .next (s.vecRun t 2 0x06 fun s i =>
    if i.arg.toNat % 32 ≠ 0 ∨ !inScratch i.arg.toNat 32 then s.vecAddrFault t i
    else
      match (s.tile t).scratchRead i.arg.toNat 32 with
      | .error e => s.vecFail t e
      | .ok b =>
        (s.updTile t fun x =>
          { x with vec := x.vec.setMask (bits (vecFields i.word).vd 2 0) (BitVec.ofNat 256 (leNat b)) }, some []))

/-- A mask register's value. -/
def Vec.maskValue (v : Vec) (k : Nat) : BitVec 256 := if k = 0 then BitVec.allOnes 256 else mapGet 0 v.masks k

/-- R159 kst: 32 bytes at s[va] take k[vd[2:0]]. -/
def execKst (t : TileId) (s : State) : Out :=
  .next (s.vecRun t 2 0x07 fun s i =>
    if i.arg.toNat % 32 ≠ 0 ∨ !inScratch i.arg.toNat 32 then s.vecAddrFault t i
    else
      (s.updTile t fun x =>
        x.scratchWrite i.arg.toNat (natLe (x.vec.maskValue (bits (vecFields i.word).vd 2 0)).toNat 32),
        some [(i.arg.toNat, 32)]))

/-! ## Ceiling slots (R167) -/

/-- Fold a ceiling byte into a slot and note its use. -/
def Vec.foldSlot (v : Vec) (n : Nat) (c : Byte) : Vec :=
  match mapGet none v.slots n with
  | none => v
  | some sl =>
    { v with uses := v.uses + 1, slots := mapPut none v.slots n (some { sl with ceiling := ceilMax sl.ceiling c, used := v.uses + 1 }) }

/-- Bind a slot to a tensor descriptor, flushing what it held (R167). -/
def State.bindSlot (s : State) (t : TileId) (n : Nat) (a : Word) : State × Option Fail :=
  let r := match mapGet none (s.tile t).vec.slots n with
    | none => (s, none)
    | some sl => s.flushSlot t n sl
  match r with
  | (s1, some e) => (s1, some e)
  | (s1, none) =>
    match s1.readTensor (dieOf t) ((s1.tilePart t).getD 0) a with
    | .error e => (s1, some e)
    | .ok d =>
      ((s1.nameDest t a).updTile t fun x =>
        { x with vec := { x.vec with
            uses := x.vec.uses + 1
            slots := mapPut none x.vec.slots n (some ⟨a, 0, BitVec.ofInt 10 d.fretBase, x.vec.uses + 1⟩) } }, none)

/-- R159 cbind. -/
def execCbind (t : TileId) (s : State) : Out :=
  .next (s.vecRun t 2 0x08 fun s i =>
    match s.bindSlot t ((vecFields i.word).aux % 8) i.arg with
    | (s1, some e) => s1.vecFail t e
    | (s1, none) => (s1, some []))

/-! ## Stores -/

/-- Whether a store's slot is usable: 0, or bound (R167). -/
def Vec.slotOk (v : Vec) (n : Nat) : Bool := n = 0 || (mapGet none v.slots n).isSome

/-- The fret base of a store: its slot's; else free where the format needs one. -/
def State.storeBase (s : State) (t : TileId) (n : Nat) : Int :=
  match if n = 0 then none else mapGet none (s.tile t).vec.slots n with
  | some sl => baseInt sl.fretBase
  | none => s.freeBase

/-- Put an element of a width at an index of packed bytes. -/
def putPacked (w i x : Nat) (b : Bytes) : Bytes :=
  let v := leNat b
  let old := v / 2 ^ (i * w) % 2 ^ w
  natLe (v - old * 2 ^ (i * w) + x % 2 ^ w * 2 ^ (i * w)) b.length

/-- One stored element: the address of its unit, its index there, its bits and scale, its flags. -/
structure Stored where
  at_ : Nat
  k : Nat
  raw : Nat
  scale : Nat
  flags : BitVec 16
deriving DecidableEq, Repr

/-- Write a stored element into its unit; a 16-element record takes its scale byte too. -/
def Tile.putStored (x : Tile) (g : Format) (e : Stored) : Tile :=
  let w := g.elem.width
  match g.blk with
  | .none =>
    if w % 8 = 0 then x.scratchWrite e.at_ (natLe e.raw (w / 8))
    else x.scratchWrite e.at_ (putPacked w e.k e.raw (bytesAt x.scratch e.at_ g.unitBytes))
  | .b16 =>
    (x.scratchWrite (e.at_ + 1) (putPacked w e.k e.raw (bytesAt x.scratch (e.at_ + 1) (2 * w)))).scratchWrite e.at_
      [BitVec.ofNat 8 e.scale]
  | .b32 => x.scratchWrite e.at_ (putPacked w e.k e.raw (bytesAt x.scratch e.at_ g.unitBytes))

/-- The elements of a block store: masked-off elements count as zero for the scale and are not written. -/
def storeBlock (l : Lane) (g : Format) (c : RCtl) (v : Vec) (r mreg first : Nat) (at_ : Nat) : List Stored :=
  let es := (upTo g.unitElems).map (· + first)
  if !(es.any (v.on mreg)) then []
  else
    let (sc, raws, _) := toBlock g.elem c (es.map fun e => (if v.on mreg e then laneVal l (v.elem l r e) else .zero, 0))
    let fl : BitVec 16 := (es.foldl (fun a e => if v.on mreg e then a ||| blockFlag g c sc (laneVal l (v.elem l r e)) else a) 0)
    ((es.zip raws).filter fun p => v.on mreg p.1).map fun p => ⟨at_, p.1 - first, p.2, sc, fl⟩
where
  /-- The flags one element of a block raises (R64). -/
  blockFlag (g : Format) (c : RCtl) (sc : Nat) (x : Val) : BitVec 16 :=
    if sc = 0xFF then flInvalid else (blockElem g.elem c 0 (x.scaleBy (127 - sc))).2

/-- Store elements, fold their ceiling into the slot, raise their flags (R159, R161, R167). -/
def State.vecStore (s : State) (t : TileId) (i : Issue) (g : Format) (ok : Bool) (spans : List Int) (es : Int → List Stored) :
    State × Option (List (Nat × Nat)) :=
  let f := vecFields i.word
  let v := (s.tile t).vec
  if !v.slotOk f.cslot then (s.tileFault t 0x01 0x1005 0 i.pc engVector, none)
  else if !ok || !(spans.all fun a => inScratch a g.unitBytes) then s.vecAddrFault t i
  else
    let base := s.storeBase t f.cslot
    let xs := es base
    let fl : BitVec 16 := xs.foldl (fun a e => a ||| e.flags) 0
    let c := xs.foldl (fun a e => ceilMax a (ceilingOf (g.value base (e.raw, e.scale)))) 0
    let s1 := { s with fresh := s.fresh + 1 }.updTile t fun x =>
      let y := (xs.foldl (fun (a : Tile) e => a.putStored g e) x).raise fl
      if f.cslot = 0 then y else { y with vec := y.vec.foldSlot f.cslot c }
    (s1.hashStore t (packElems g.elem.width (xs.map fun e => e.raw)), some (xs.map fun e => (e.at_, g.unitBytes)))

/-- R159 vst. -/
def execVst (t : TileId) (s : State) : Out :=
  .next (s.vecRun t 2 0x01 fun s i =>
    let f := vecFields i.word
    let g := f.format
    let l := f.lane
    let v := (s.tile t).vec
    let n := g.unitElems
    let units := (upTo (l.count / n)).filter fun u => (upTo n).any fun j => v.on f.mreg (u * n + j)
    s.vecStore t i g (i.arg.toNat % g.align = 0) (units.map fun u => ((i.arg.toNat + u * g.unitBytes : Nat) : Int)) fun base =>
      (units.map fun u =>
        let a := i.arg.toNat + u * g.unitBytes
        match g.blk with
        | .none => ((upTo n).filter fun j => v.on f.mreg (u * n + j)).map fun j =>
            let r := storeElem l g f.rctl base (v.elem l f.vd (u * n + j))
            ⟨a, j, r.1, 0, r.2⟩
        | _ => storeBlock l g f.rctl v f.vd f.mreg (u * n) a).flatten)

/-- R161 scatter: lanes write in ascending order, so that the higher lane's value remains. -/
def execScatter (t : TileId) (s : State) : Out :=
  .next (s.vecRun t 2 0x03 fun s i =>
    let f := vecFields i.word
    let g := f.format
    let l := f.lane
    let v := (s.tile t).vec
    let es := v.lanesOn l f.mreg
    let at_ : Nat → Int := fun e => (i.arg.toNat : Int) + s.laneIndex t f e * g.unitBytes
    let r := s.vecStore t i g (i.arg.toNat % g.align = 0) (es.map at_) fun base =>
      es.map fun e =>
        let r := storeElem l g f.rctl base (v.elem l f.vd e)
        ⟨(at_ e).toNat, 0, r.1, 0, r.2⟩
    ({ r.1 with fresh := max r.1.fresh (s.fresh + 320) }, r.2))

end Sys2Proof.Machine
end

