-- ==== Sys2Proof/Machine/VecTile.lean ====
section
/-! DEFINITION. The tile operations of the vector engine: tmap, treduce and ttopk (R162 to R167). -/

namespace Sys2Proof.Machine

/-! ## The vector descriptor (R162) -/

structure VDesc where
  src : Nat
  dst : Nat
  srcPitch : Nat
  dstPitch : Nat
  rows : Nat
  cols : Nat
  srcFmt : Format
  dstFmt : Format
  acc : BitVec 16
  preg : Nat
  psel : Nat
  qreg : Nat
  qsel : Nat
  axis : Bool
  k : Nat
  lstride : Nat
  origin : Nat
  seed : BitVec 64
  posAddr : Nat
  tsrc : Word
  tdst : Word
deriving DecidableEq, Repr

/-- What each tile operation asks of its descriptor beyond the common fields (R162 to R165). -/
def vdescOpOk (f : VF) (d : VDesc) : Bool :=
  match f.vop with
  | 0x00 =>
    (d.psel ≠ 2 || d.rows ≤ f.lane.count) && (d.qsel ≠ 2 || d.rows ≤ f.lane.count) && (f.lane ≠ .fret64 || d.psel = 0)
  | 0x02 =>
    if bits f.aux 1 0 = 0 then
      (accCtlOf d.acc).any fun a => !a.cont && a.last && (!a.auto || a.fast || d.tsrc ≠ 0)
    else true
  | _ => 1 ≤ d.k && d.k ≤ 256 && d.k ≤ d.cols && d.origin + d.cols ≤ 2 ^ 32 && d.dstFmt.countOk (d.dstFmt.padded d.k)
      && (d.dstFmt.blk ≠ .none || d.dstFmt.countOk d.k)

/-- The descriptor's 64 bytes, checked: reserved bits 0x1002, formats 0x1006, ranges 0x1003. -/
def vdescOf (f : VF) (b : Bytes) : Except Fail VDesc :=
  let v := leNat b
  let topk := f.vop = 0x03
  if bits v 199 199 ≠ 0 ∨ bits v 207 207 ≠ 0 ∨ bits v 223 218 ≠ 0 ∨ bits v 319 304 ≠ 0 ∨ (topk ∧ bits v 383 352 ≠ 0)
      ∨ (f.vop = 0x02 ∧ bits f.aux 1 0 = 0 ∧ bits v 191 191 ≠ 0) then
    .error { status := 0x1002 }
  else
    match formatOf (BitVec.ofNat 8 (bits v 167 160)), formatOf (BitVec.ofNat 8 (bits v 175 168)) with
    | some g, some h =>
      if !laneFormatOk f.lane g || !laneFormatOk f.lane h || (topk && g ≠ h) then .error { status := 0x1006 }
      else
        let d : VDesc :=
          { src := bits v 31 0, dst := bits v 63 32, srcPitch := bits v 95 64, dstPitch := bits v 127 96
            rows := bits v 143 128, cols := bits v 159 144, srcFmt := g, dstFmt := h
            acc := BitVec.ofNat 16 (bits v 191 176), preg := bits v 196 192, psel := bits v 198 197
            qreg := bits v 204 200, qsel := bits v 206 205, axis := bit v 208, k := bits v 217 209
            lstride := bits v 255 224, origin := bits v 303 256, seed := BitVec.ofNat 64 (bits v 383 320)
            posAddr := bits v 351 320, tsrc := BitVec.ofNat 64 (bits v 447 384), tdst := BitVec.ofNat 64 (bits v 511 448) }
        if d.rows = 0 ∨ d.rows > 4096 ∨ d.cols = 0 ∨ d.cols > f.lane.count ∨ (g.blk = .none ∧ !g.countOk d.cols)
            ∨ (g.needsTensor ∧ d.tsrc = 0) ∨ (h.needsTensor ∧ d.tdst = 0) ∨ !vdescOpOk f d then
          .error { status := 0x1003 }
        else .ok d
    | _, _ => .error { status := 0x1006 }

/-- An operation ready to run: its descriptor and the tensors it names. -/
structure VOp where
  f : VF
  d : VDesc
  src : Option Tensor
  dst : Option Tensor
  /-- The tensor identifier that draws take; free where no output tensor is named (notes/assumptions/37.md). -/
  tensor : BitVec 32
deriving DecidableEq, Repr

def VOp.lane (o : VOp) : Lane := o.f.lane
def VOp.srcBase (o : VOp) : Int := o.src.elim 0 fun t => t.fretBase
def VOp.dstBase (o : VOp) : Int := o.dst.elim 0 fun t => t.fretBase

/-- Read the tensor descriptor at an address, none for address 0. -/
def State.tensorAt (s : State) (t : TileId) (a : Word) : Except Fail (Option Tensor) :=
  if a = 0 then .ok none
  else (s.readTensor (dieOf t) ((s.tilePart t).getD 0) a).map some

/-- Read and check an operation's descriptors. -/
def State.vopOf (s : State) (t : TileId) (i : Issue) : Except Fail VOp :=
  match (s.tile t).scratchRead i.arg.toNat 64 with
  | .error e => .error e
  | .ok b =>
    match vdescOf (vecFields i.word) b with
    | .error e => .error e
    | .ok d =>
      match s.tensorAt t d.tsrc, s.tensorAt t d.tdst with
      | .ok a, .ok c => .ok ⟨vecFields i.word, d, a, c, c.elim ((Config.free64 s.fresh).setWidth 32) fun x => x.id⟩
      | .error e, _ => .error e
      | _, .error e => .error e

/-! ## Source rows -/

/-- A source row: its element plane, and its scale bytes (R52, R177). -/
def State.sourceRow (s : State) (t : TileId) (o : VOp) (i : Nat) : State × Except Fail (List (Nat × Nat)) :=
  let g := o.d.srcFmt
  match (s.tile t).scratchRead (o.d.src + i * o.d.srcPitch) (g.rowBytes (g.padded o.d.cols)) with
  | .error e => (s, .error e)
  | .ok row =>
    let (s1, sc) := match g.blk, o.src with
      | .b32, some x => s.reachRead t .bypass (BitVec.ofInt 64 (x.scaleAddr 0 0 i)) (g.padded o.d.cols / 32)
      | _, _ => (s, .ok [])
    match sc with
    | .error e => (s1, .error e)
    | .ok scales => (s1, .ok ((upTo o.d.cols).map fun j => g.rawAt row scales j))

/-- All source rows in order. -/
def State.sourceRows (s : State) (t : TileId) (o : VOp) : List Nat → State × Except Fail (List (List (Nat × Nat)))
  | [] => (s, .ok [])
  | i :: is =>
    match s.sourceRow t o i with
    | (s1, .error e) => (s1, .error e)
    | (s1, .ok r) =>
      match s1.sourceRows t o is with
      | (s2, .error e) => (s2, .error e)
      | (s2, .ok rs) => (s2, .ok (r :: rs))

/-! ## Output rows -/

/-- A row of output: its number, its elements' count, and what is stored. -/
structure OutRow where
  row : Nat
  n : Nat
  enc : EncodedRow
deriving DecidableEq, Repr

/-- The draw of output element (i, j) (R67, R162). -/
def VOp.draw (o : VOp) (c : RCtl) (i j : Nat) : Nat :=
  drawFor c o.d.seed o.tensor ((o.d.origin + i * o.d.lstride + j) % 2 ^ 48)

/-- A row of lane elements converted to the output format. -/
def VOp.encodeLanes (o : VOp) (c : RCtl) (i : Nat) (ys : List Nat) : OutRow :=
  let g := o.d.dstFmt
  let l := o.lane
  if l.floating then
    ⟨i, ys.length, g.encode (l.elem = some g.elem) c o.dstBase (ys.mapIdx fun j y => (laneVal l y, o.draw c i j))⟩
  else
    let es := ys.map fun y => storeElem l g c 0 y
    ⟨i, ys.length, ⟨packElems g.elem.width (es.map Prod.fst), [], es.foldl (fun a e => a ||| e.2) 0⟩⟩

/-- A row of exact values converted to the output format. -/
def VOp.encodeVals (o : VOp) (c : RCtl) (i : Nat) (vs : List Val) : OutRow :=
  ⟨i, vs.length, o.d.dstFmt.encode false c o.dstBase (vs.mapIdx fun j v => (v, o.draw c i j))⟩

/-- A row of accumulators read out by R81. -/
def VOp.encodeAccs (o : VOp) (c : RCtl) (base : Int) (i : Nat) (as : List Acc) : OutRow :=
  let g := o.d.dstFmt
  let xs := as.mapIdx fun j a => (a, o.draw c i j)
  match g.blk with
  | .none =>
    let es := xs.map fun p => readoutElem g.elem c p.2 o.dstBase base p.1
    ⟨i, as.length, ⟨packElems g.elem.width (es.map Prod.fst), [], es.foldl (fun a e => a ||| e.2) 0⟩⟩
  | _ =>
    let pad := g.padded as.length - as.length
    let bs := (runsOf g.unitElems (as.length + 1) (xs ++ List.replicate pad ({}, 0))).map fun r =>
      let (sc, es) := readoutBlock g.elem c base r
      (sc, es.map Prod.fst, es.foldl (fun a e => a ||| e.2) (0 : BitVec 16))
    ⟨i, as.length, g.layBlocks bs⟩

/-- Store a row's element plane; bits of a packed byte past its last element are kept. -/
def Tile.putRow (x : Tile) (g : Format) (a n : Nat) (row : Bytes) : Tile :=
  if g.blk = .none ∧ g.elem.width % 8 ≠ 0 then
    let w := n * g.elem.width
    let old := leNat (bytesAt x.scratch a row.length)
    x.scratchWrite a (natLe (leNat row % 2 ^ w + old / 2 ^ w * 2 ^ w) row.length)
  else x.scratchWrite a row

/-- Write output rows and their scale bytes; the first failure of a scale plane is answered. -/
def State.putRows (s : State) (t : TileId) (o : VOp) (rs : List OutRow) : State × Option Fail :=
  rs.foldl (fun (a : State × Option Fail) r =>
    let s1 := a.1.updTile t fun x => x.putRow o.d.dstFmt (o.d.dst + r.row * o.d.dstPitch) r.n r.enc.row
    match o.d.dstFmt.blk, o.dst with
    | .b32, some d =>
      let (s2, e) := s1.reachWrite t .noAllocate (BitVec.ofInt 64 (d.scaleAddr 0 0 r.row)) r.enc.scales
      (s2, a.2 <|> e)
    | _, _ => (s1, a.2)) (s, none)

/-- The slot that a tile operation folds into (R167): the one bound to the address, else a free one, else
the least recently used. -/
def Vec.slotFor (v : Vec) (a : Word) : Nat × Bool :=
  match v.slots.find? fun p => p.2.any fun sl => sl.tdesc = a with
  | some p => (p.1, true)
  | none =>
    match (upTo 8).find? fun n => (mapGet none v.slots n).isNone with
    | some n => (n, false)
    | none =>
      ((v.slots.foldl (fun (b : Nat × Nat) p => match p.2 with
        | some sl => if sl.used < b.2 then (p.1, sl.used) else b
        | none => b) (0, v.uses + 1)).1, false)

/-- Fold a tile operation's ceiling into the slot of its output tensor. -/
def State.foldOut (s : State) (t : TileId) (a : Word) (c : Byte) : State × Option Fail :=
  if a = 0 then (s, none)
  else
    let (n, bound) := (s.tile t).vec.slotFor a
    match if bound then (s, none) else s.bindSlot t n a with
    | (s1, some e) => (s1, some e)
    | (s1, none) => ((s1.nameDest t a).updTile t fun x => { x with vec := x.vec.foldSlot n c }, none)

/-- Whether rows of `n` bytes at a pitch lie in the scratchpad. -/
def rowsIn (a pitch n rows : Nat) : Bool := (upTo rows).all fun i => inScratch ((a + i * pitch : Nat) : Int) n

/-- A tile operation: its source, what it computes from the rows, its output (R162). `out` is the number of
rows and the elements in each; `ok` whether its rounding may be stochastic (R57). -/
def State.tileOp (s : State) (t : TileId) (vop : Nat) (out : VOp → Nat × Nat) (ok : VOp → Bool)
    (run : State → VOp → RCtl → List (List (Nat × Nat)) → List OutRow × BitVec 16 × State) : State :=
  s.vecRun t 1 vop fun s i =>
    if i.arg.toNat % 64 ≠ 0 ∨ !inScratch i.arg.toNat 64 then s.vecAddrFault t i
    else
      match s.vopOf t i with
      | .error e => s.vecFail t e
      | .ok o =>
        let s := { s with fresh := s.fresh + 1 }
        let c := o.f.rctl
        let g := o.d.srcFmt
        let h := o.d.dstFmt
        if c.rnd = .stochastic ∧ !ok o then s.vecFail t { status := 0x1003 }
        else if !rowsIn o.d.src o.d.srcPitch (g.rowBytes (g.padded o.d.cols)) o.d.rows
            || !rowsIn o.d.dst o.d.dstPitch (h.rowBytes (h.padded (out o).2)) (out o).1 then s.vecAddrFault t i
        else
          match (s.nameDest t o.d.tdst).sourceRows t o (upTo o.d.rows) with
          | (s1, .error e) => s1.vecFail t e
          | (s1, .ok rows) =>
            let (rs, fl, s2) := run s1 o c rows
            let fl := rs.foldl (fun a r => a ||| r.enc.flags) fl
            let ceil := rs.foldl (fun a r => ceilMax a (h.ceiling o.dstBase r.enc.row r.enc.scales r.n)) 0
            match ((s2.updTile t fun x => x.raise fl).hashRows t (rs.map fun r => (r.row, r.enc.row ++ r.enc.scales))).putRows t o rs with
            | (s3, some e) => s3.vecFail t e
            | (s3, none) =>
              match s3.foldOut t o.d.tdst ceil with
              | (s4, some e) => s4.vecFail t e
              | (s4, none) => (s4, some (rs.map fun r => (o.d.dst + r.row * o.d.dstPitch, r.enc.row.length)))

/-- The source a lane offers a stochastic conversion (R57). -/
def laneStochOk (l : Lane) (g : Format) : Bool :=
  match l.elem with
  | some e => stochasticOk e g.elem
  | none => g.elem ≠ .fp32

/-! ## tmap (R163) -/

/-- P or Q of element (i, j): row vector reg[j], column vector reg[i], scalar reg[0]. -/
def Vec.pick (v : Vec) (l : Lane) (sel reg i j : Nat) : Option Nat :=
  match sel with
  | 0 => none
  | 1 => some (v.elem l reg j)
  | 2 => some (v.elem l reg i)
  | _ => some (v.elem l reg 0)

/-- Sources of a lane operation inside tmap, with the free value of element (i, j). -/
def mapArgs (fresh n : Nat) (a b d : Nat) : VArgs := ⟨a, b, d, 0, Config.free64 (fresh + n), Config.freeBit (fresh + n), 0⟩

/-- One element of tmap before its final conversion: lane bits and flags. -/
def tmapElem (tables : BitVec 32) (o : VOp) (v : Vec) (c : RCtl) (fresh i j : Nat) (raw : Nat × Nat) : Nat × BitVec 16 :=
  let l := o.lane
  let c0 : RCtl := if c.rnd = .stochastic then { c with rnd := .nearest } else c
  let n := 2 * (i * o.d.cols + j)
  let (x, f1) := loadElem l o.d.srcFmt c0 o.srcBase raw
  let side (sel reg : Nat) (neg : Bool) (k : Nat) : Option (Nat × BitVec 16) :=
    (v.pick l sel reg i j).map fun b => if neg then negE l c0 (mapArgs fresh (n + k) b 0 0) else (b, 0)
  let p := side o.d.psel o.d.preg (bit o.f.aux 6) 0
  let q := side o.d.qsel o.d.qreg (bit o.f.aux 7) 1
  let (y, f2) : Nat × BitVec 16 :=
    match p, q with
    | none, none => (x, 0)
    | some a, none => let r := mulE l c0 (mapArgs fresh n x a.1 0); (r.1, r.2 ||| a.2)
    | none, some b => let r := addE false l c0 (mapArgs fresh n x b.1 0); (r.1, r.2 ||| b.2)
    | some a, some b =>
      if l.floating then let r := fmaE false l c0 (mapArgs fresh n x a.1 b.1); (r.1, r.2 ||| a.2 ||| b.2)
      else
        let m := mulE l c0 (mapArgs fresh n x a.1 0)
        let r := addE false l c0 (mapArgs fresh n m.1 b.1 0)
        (r.1, m.2 ||| r.2 ||| a.2 ||| b.2)
  let (z, f3) := if bits o.f.aux 5 0 = 0 then (y, 0) else funE tables (bits o.f.aux 5 0) l c0 y
  (z, f1 ||| f2 ||| f3)

/-- R163. -/
def execTmap (t : TileId) (s : State) : Out :=
  .next (s.tileOp t 0x00 (fun o => (o.d.rows, o.d.cols)) (fun o => laneStochOk o.lane o.d.dstFmt) fun s o c rows =>
    let v := (s.tile t).vec
    let rs : List (OutRow × BitVec 16) := rows.mapIdx fun i r =>
      let es := r.mapIdx fun j raw => tmapElem s.boot.fnTables o v c s.fresh i j raw
      (o.encodeLanes c i (es.map Prod.fst), es.foldl (fun a e => a ||| e.2) 0)
    (rs.map Prod.fst, rs.foldl (fun a r => a ||| r.2) 0, { s with fresh := s.fresh + 2 * o.d.rows * o.d.cols }))

/-! ## treduce (R164) -/

/-- The reduced lists: rows, or columns down the rows. -/
def VOp.lists (o : VOp) (rows : List (List (Nat × Nat))) : List (List (Nat × Nat)) :=
  if o.d.axis then (upTo o.d.cols).map fun j => rows.map fun r => r.getD j (0, 0) else rows

/-- Results laid out: axis 0 one element in column 0 of each row, axis 1 one row. -/
def VOp.spread {α : Type} (o : VOp) (enc : Nat → List α → OutRow) (xs : List α) : List OutRow :=
  if o.d.axis then [enc 0 xs] else xs.mapIdx fun i x => enc i [x]

/-- The exact value of a source element; INT32 lanes read raw words. -/
def VOp.exact (o : VOp) (raw : Nat × Nat) : Val :=
  if o.lane = .int32 ∧ o.d.srcFmt.elem = .fp32 then .ofInt (signed 32 raw.1) 0 else o.d.srcFmt.value o.srcBase raw

/-- The base of a fretted sum; none where the source ceiling is 0x00 (R164). -/
def VOp.sumBase (o : VOp) (a : AccCtl) : Option Int :=
  if a.auto then
    let c := o.src.elim 0 fun x => x.ceiling
    if c = 0 then none
    else
      let top := ceilExp c + 1 + clog2 (if o.d.axis then o.d.rows else o.d.cols) + 2
      some (if a.carry then top - 49 else top - 126)
  else some (baseInt a.base)

/-- A fretted sum of exact values (R76, R77, R79). -/
def frettedSum (base : Int) (vs : List Val) : Acc × BitVec 16 :=
  vs.foldl (fun a v => let (k, f) := addendContribution base v; (a.1.add k, a.2 ||| f)) ({}, 0)

/-- One rounded addition of a fast sum, in FP64 or FP32. -/
def fastPlus (e : Elem) (a b : Nat) : Nat × BitVec 16 :=
  let (v, f1) := addVal false (decodeElem e 0 a) (decodeElem e 0 b)
  let (r, f2) := convert e false .rne 0 0 v
  (r, f1 ||| f2)

/-- One level of the pairwise tree: an odd last element goes up unchanged. -/
def pairUp (e : Elem) : List Nat → List Nat × BitVec 16
  | a :: b :: r =>
    let (x, f) := fastPlus e a b
    let (xs, g) := pairUp e r
    (x :: xs, f ||| g)
  | l => (l, 0)

/-- The pairwise tree; `fuel` bounds its levels. -/
def pairTree (e : Elem) : Nat → List Nat → Nat × BitVec 16
  | 0, l => (l.headD 0, 0)
  | n + 1, l =>
    match l with
    | [] => (0, 0)
    | [a] => (a, 0)
    | _ =>
      let (l1, f) := pairUp e l
      let (r, g) := pairTree e n l1
      (r, f ||| g)

/-- A fast sum: pairwise along a row, in ascending row order down a column (R164). -/
def fastSum (e : Elem) (axis : Bool) (xs : List Nat) : Nat × BitVec 16 :=
  if axis then
    match xs with
    | [] => (0, 0)
    | x :: r => r.foldl (fun a y => let p := fastPlus e a.1 y; (p.1, a.2 ||| p.2)) (x, 0)
  else pairTree e 16 xs

/-- Whether a reduction is a fast sum. -/
def VOp.fast (o : VOp) : Bool := bits o.f.aux 1 0 = 0 && (accCtlOf o.d.acc).any fun a => a.fast

/-- The results of a reduction. -/
def VOp.reduce (o : VOp) (c : RCtl) (rows : List (List (Nat × Nat))) : List OutRow × BitVec 16 :=
  let l := o.lane
  let c0 : RCtl := if c.rnd = .stochastic then { c with rnd := .nearest } else c
  let ls := o.lists rows
  let load (raw : Nat × Nat) : Nat × BitVec 16 := loadElem l o.d.srcFmt c0 o.srcBase raw
  if bits o.f.aux 1 0 ≠ 0 then
    let rs : List (Nat × BitVec 16) := ls.map fun xs =>
      match xs.map load with
      | [] => (0, 0)
      | x :: r => r.foldl (fun a y =>
          let (m, f) := minMaxE (bits o.f.aux 1 0 = 1) false l c0 ⟨a.1, y.1, 0, 0, 0, false, 0⟩
          (m, a.2 ||| y.2 ||| f)) x
    (o.spread (o.encodeLanes c) (rs.map Prod.fst), rs.foldl (fun a r => a ||| r.2) 0)
  else if o.fast then
    let e : Elem := if l = .fp64 then .fp64 else .fp32
    let rs : List (Nat × BitVec 16) := ls.map fun xs =>
      let ys : List (Nat × BitVec 16) := xs.map fun raw =>
        let (b, f) := load raw
        if l.elem = some e then (b, f)
        else
          let v := if l = .fret64 then Val.scaleBy o.srcBase (laneVal l b) else laneVal l b
          let (b1, f1) := convert e false .rne 0 0 v
          (b1, f ||| f1)
      let (r, f) := fastSum e o.d.axis (ys.map Prod.fst)
      (r, ys.foldl (fun a y => a ||| y.2) f)
    (o.spread (o.encodeVals c) (rs.map fun r => decodeElem e 0 r.1), rs.foldl (fun a r => a ||| r.2) 0)
  else
    match (accCtlOf o.d.acc).bind o.sumBase with
    | none => (o.spread (o.encodeAccs c 0) (ls.map fun _ => {}), 0)
    | some base =>
      let rs := ls.map fun xs => frettedSum base (xs.map o.exact)
      (o.spread (o.encodeAccs c base) (rs.map Prod.fst), rs.foldl (fun a r => a ||| r.2) 0)

/-- Whether a reduction's conversion may be stochastic: from 152 bits, FP32 or FP64, or the lane. -/
def VOp.reduceStoch (o : VOp) : Bool :=
  if bits o.f.aux 1 0 ≠ 0 then laneStochOk o.lane o.d.dstFmt
  else if o.fast then stochasticOk (if o.lane = .fp64 then .fp64 else .fp32) o.d.dstFmt.elem
  else true

/-- R164. -/
def execTreduce (t : TileId) (s : State) : Out :=
  .next (s.tileOp t 0x02 (fun o => if o.d.axis then (1, o.d.cols) else (o.d.rows, 1)) VOp.reduceStoch fun s o c rows =>
    let (rs, f) := o.reduce c rows
    (rs, f, if o.fast then s.markFast t else s))

/-! ## ttopk (R165) -/

/-- Whether value a at column i ranks before value b at column j. -/
def ranksBefore (asc : Bool) (a : Val) (i : Nat) (b : Val) (j : Nat) : Bool :=
  if a.isNan || b.isNan then (a.isNan && !b.isNan) || (a.isNan && b.isNan && i < j)
  else
    let o := match cmpVal a b with
      | .eq => if a.isZero && b.isZero && a.negative ≠ b.negative then (if a.negative then Ordering.lt else .gt) else .eq
      | r => r
    match o with
    | .eq => i < j
    | .lt => asc
    | .gt => !asc

/-- Insert an entry at its rank. -/
def rankInsert (asc : Bool) (x : Val × Nat) : List (Val × Nat) → List (Val × Nat)
  | [] => [x]
  | y :: ys => if ranksBefore asc x.1 x.2 y.1 y.2 then x :: y :: ys else y :: rankInsert asc x ys

/-- The columns of a row in rank order. -/
def rankRow (asc : Bool) (vs : List Val) : List Nat :=
  ((vs.mapIdx fun j v => (v, j)).foldl (fun a x => rankInsert asc x a) []).map Prod.snd

/-- A row's selection: the raw elements copied, and the positions. -/
def VOp.topRow (o : VOp) (i : Nat) (r : List (Nat × Nat)) : OutRow × List Nat :=
  let g := o.d.srcFmt
  let vs := r.map o.exact
  let js := (rankRow (bit o.f.aux 0) vs).take o.d.k
  let row := match g.blk with
    | .none => ⟨i, o.d.k, ⟨packElems g.elem.width (js.map fun j => (r.getD j (0, 0)).1), [], 0⟩⟩
    | _ => o.encodeVals .rne i (js.map fun j => vs.getD j .zero)
  (row, js.map fun j => o.d.origin + j)

/-- Write the positions of every row, as 32-bit words (R165). -/
def Tile.putPositions (x : Tile) (a k : Nat) (ps : List (List Nat)) : Tile :=
  (ps.mapIdx fun i p => (i, p)).foldl (fun (y : Tile) r => y.scratchWrite (a + 4 * k * r.1) ((r.2.map fun p => natLe p 4).flatten)) x

/-- R165; positions that would pass the scratchpad's end fault as any address does. -/
def execTtopk (t : TileId) (s : State) : Out :=
  .next (match s.vecHead t 1 0x03 with
    | none => s
    | some i =>
      match s.vopOf t i with
      | .ok o =>
        if inScratch ((o.d.posAddr + 4 * o.d.k * o.d.rows : Nat) : Int) 0 then
          s.tileOp t 0x03 (fun o => (o.d.rows, o.d.k)) (fun _ => true) fun s o _ rows =>
            let rs := rows.mapIdx o.topRow
            (rs.map Prod.fst, 0, s.updTile t fun x => x.putPositions o.d.posAddr o.d.k (rs.map Prod.snd))
        else ((s.leaveQueue t .vector i).vecAddrFault t i).1
      | .error _ => s.tileOp t 0x03 (fun o => (o.d.rows, o.d.k)) (fun _ => true) fun s _ _ _ => ([], 0, s))

end Sys2Proof.Machine
end

