-- ==== Sys2Proof/Machine/CollOps.lean ====
section
/-! DEFINITION. How a collective runs on this member: its checks, the opening and closing rounds, conversion, chunks
and credits, damp, and its end (R334 to R362; choices the manual leaves, notes/assumptions/42.md to 46.md). -/

namespace Sys2Proof.Machine

/-! ## Checks (R334, R339, R340) -/

/-- The reserved fields of the collective descriptor and of the communicator descriptor. -/
def Coll.reservedOk (k : Coll) : Bool :=
  ([(31, 30), (47, 46), (51, 51), (63, 56), (127, 113), (639, 608), (683, 682), (703, 696), (1023, 736)].all fun r => k.d r.1 r.2 = 0)
    && [(63, 47), (79, 78), (95, 95), (111, 111), (127, 127), (159, 148), (511, 256)].all fun r => k.c r.1 r.2 = 0

/-- The communicator's own fields (R333, R334). -/
def Coll.commOk (k : Coll) : Bool :=
  1 ≤ k.n && k.n ≤ 16384 && k.rank < k.n && k.size 0 * k.size 1 * k.size 2 = k.n && 1 ≤ k.c 147 128 && k.c 147 128 ≤ 600000
    && k.c 255 192 % 64 = 0

/-- Whether this member gives, and receives, a tensor (R336, R339). -/
def Coll.hasSrc (k : Coll) : Bool := k.op ≠ 7 && (k.op ≠ 3 || k.rank = k.root)
def Coll.hasDst (k : Coll) : Bool := k.op ≠ 7 && (k.op ≠ 4 || k.rank = k.root)

/-- Ranges of the collective descriptor's fields (R339, R340). -/
def Coll.fieldsOk (k : Coll) : Bool :=
  k.op ≤ 7 && k.redop ≤ 2 && (k.redop = 0 || [0, 1, 4].contains k.op) && (!k.tree || [0, 3, 4].contains k.op)
    && (!k.asc || k.op = 6) && (k.d 11 11 = 0 || k.d 21 12 = 0) && (rctlOf (BitVec.ofNat 8 (k.d 29 22))).isSome
    && (if [3, 4].contains k.op then k.root < k.n else k.root = 0) && k.d 50 48 ≤ 4 && 2 ≤ k.depth && k.depth ≤ 8
    && (if k.op = 7 then k.count = 0 else 1 ≤ k.count) && (if k.op = 6 then 1 ≤ k.topK && k.topK ≤ 256 else k.topK = 0)
    && ((k.d 255 192 ≠ 0) = k.hasSrc) && ((k.d 319 256 ≠ 0) = k.hasDst)
    && (k.op = 6 || (k.d 383 320 = 0 && k.d 447 384 = 0)) && [0, 2, 4].contains (k.d 511 508) && (k.d 511 508 ≠ 0 || k.d 511 448 = 0)
    && k.d 607 576 % 4096 = 0

/-- The wire types an operation takes (R336). -/
def Coll.wireOk (k : Coll) : Bool :=
  match k.op with
  | 2 => k.wire ≤ 4
  | 6 => k.wire = 1 || k.wire = 2
  | 7 => k.wire = 0
  | _ => k.wire ≤ 2

/-- The element format of the wire (R336, R339). -/
def Coll.elem (k : Coll) : Elem :=
  match k.wire with
  | 0 => .fret64 | 1 => .fp32 | 2 => .bf16 | 3 => .e4m3 | _ => .e5m2

def Coll.rctl (k : Coll) : RCtl := (rctlOf (BitVec.ofNat 8 (k.d 29 22))).getD .rne

/-- Element counts of the two tensors (R336, R338). -/
def Coll.srcCount (k : Coll) : Nat := if k.op = 1 ∨ k.op = 5 then k.n * k.count else k.count
def Coll.dstCount (k : Coll) : Nat := if k.op = 2 ∨ k.op = 5 then k.n * k.count else k.count

/-- Whether a tensor has the extents that an operation asks for. -/
def Coll.extentOk (k : Coll) (t : Tensor) (n : Nat) : Bool :=
  if k.op = 6 then t.n0 = k.topK && t.n3 * t.n2 * t.n1 = k.count else t.count = n

/-- Bytes of staging area that each staging tile needs (R341). -/
def Coll.stagingBytes (k : Coll) : Nat := ceilOf 12 k.tiles.length * 2 * k.depth * k.chunkBytes

/-- Whether the area fits the scratchpad; a barrier stages nothing. -/
def Coll.stagingOk (k : Coll) : Bool := k.op = 7 || k.d 607 576 + k.stagingBytes ≤ scratchSize

def Coll.srcTensor (k : Coll) : Option Tensor := (tensorOf k.src).toOption
def Coll.dstTensor (k : Coll) : Option Tensor := (tensorOf k.dst).toOption

/-- Top-k takes and writes elements of the wire type (R338). -/
def Coll.topkFormatOk (k : Coll) : Bool :=
  k.op ≠ 6 || (k.srcTensor.toList ++ k.dstTensor.toList).all fun t => t.fmt = ⟨k.elem, .none⟩

/-- Stochastic rounding is named only where both conversions take it (R57, R337). -/
def Coll.stochOk (k : Coll) : Bool :=
  k.rctl.rnd ≠ .stochastic ||
    (k.op ≠ 6 && (k.srcTensor.all fun t => stochasticOk t.fmt.elem k.elem) && (k.dstTensor.all fun t => stochasticOk k.elem t.fmt.elem))

/-- Dies of a barrier (R339). -/
def Coll.bdies (k : Coll) : List DieId := allDies.filter fun d => bit (k.d 695 684) d.val

/-- The conditions of R334 on the member table. -/
def Coll.membersOk (k : Coll) (self : BitVec 14) (p : PartId) : Bool :=
  decide k.members.Nodup && k.members[k.rank]? = some (self, BitVec.ofNat 3 p.val)

/-- The checks of R340 in order; the status of the first that fails. -/
def Coll.check (k : Coll) (s : State) (p : PartId) (tableOk : Bool) : Option (BitVec 16) :=
  firstFail [
    (k.reservedOk && tableOk, 0x1002), (k.commOk && k.fieldsOk, 0x1003), (k.wireOk && k.topkFormatOk, 0x1006),
    (k.srcTensor.all (k.extentOk · k.srcCount) && k.dstTensor.all (k.extentOk · k.dstCount), 0x1003),
    (k.stochOk && k.stagingOk && k.membersOk s.fab.modId p, 0x1003),
    (k.bdies.all fun d => (s.die d).owner = some p, 0x1102)]

/-! ## The signature (R348) -/

/-- The signature block. -/
def Coll.sigBlock (k : Coll) : Bytes :=
  natLe (packBits [
    (8, k.op), (8, k.wire), (2, k.redop), (1, bnat k.tree), (1, bnat k.asc), (9, k.topK), (3, k.d 50 48), (32, k.root), (64, k.count),
    (32, k.commId.toNat), (32, k.cseq.toNat), (10, k.d 21 12), (1, k.d 11 11), (5, 0), (48, 0)]) 32

/-! ## The state of a run -/

/-- Whether the member's queue and staging tiles let the collective run: a queue being pre-empted with damp runs to
the boundary (R394). -/
def State.collActive (s : State) (k : Coll) : Bool :=
  let q := s.queue k.cmd.queue
  k.abort.isNone && !k.paused && q.state ≠ qPreempted && (!q.preempting || (s.part (s.queuePart k.cmd.queue)).damp)

/-- Whether the progress timer runs (R353). -/
def State.collTimed (s : State) (k : Coll) : Bool := !k.paused && k.stage ≠ .barrier && (s.queue k.cmd.queue).state ≠ qPreempted

/-- A packet of the collective restarts the timer (R353). -/
def Coll.heard (k : Coll) : Coll := { k with elapsed := 0 }

/-- Units of a chunk that have arrived. -/
def Coll.arrived (k : Coll) (n i peer j : Nat) : Nat := mapGet 0 k.got (streamKey n i peer * 2 ^ 40 + j)

/-- Chunks from a peer that have arrived whole. -/
def Coll.complete (k : Coll) (n i peer : Nat) : Nat :=
  (((k.chunksIn n i peer).mapIdx fun j c => (j, c)).filter fun e => k.arrived n i peer e.1 = e.2.len).length

def Coll.sentTo (k : Coll) (n i peer : Nat) : Nat := mapGet 0 k.sent (streamKey n i peer)
def Coll.creditsFrom (k : Coll) (n i peer : Nat) : Nat := mapGet 0 k.credits (streamKey n i peer)
def Coll.grantedTo (k : Coll) (n i peer : Nat) : Nat := mapGet 0 k.granted (streamKey n i peer)

/-- Whether pass number n has sent and received everything on this member. -/
def Coll.passDone (k : Coll) (n : Nat) : Bool :=
  (upTo 12).all fun i =>
    ((k.sendPeers n i).all fun p => k.sentTo n i p = (k.chunksTo n i p).length) &&
    (k.recvPeers n i).all fun p => k.complete n i p = (k.chunksIn n i p).length

/-- Passes that are done are left behind. -/
def Coll.advance (k : Coll) : Nat → Coll
  | 0 => k
  | n + 1 => if k.phase < k.passes.length && k.passDone k.phase then { k with phase := k.phase + 1 }.advance n else k

/-- Slots of the whole collective (R355). -/
def Coll.slots (k : Coll) : Nat := k.slotBase k.passes.length

/-- The chunks of a pass that this member has begun: sent, or received in part. -/
def Coll.begunSlots (k : Coll) (n : Nat) : List Nat :=
  ((upTo 12).map fun i =>
    ((k.sendPeers n i).map fun p => ((k.chunksTo n i p).take (k.sentTo n i p)).map fun c => c.slot).flatten ++
    ((k.recvPeers n i).map fun p => (((k.chunksIn n i p).mapIdx fun j c => (j, c)).filter fun e => 0 < k.arrived n i p e.1).map
      fun e => e.2.slot).flatten).flatten

/-- The slot this member proposes in a damp: the highest begun plus one (R355). -/
def Coll.ownSlot (k : Coll) : Nat :=
  match k.stage with
  | .opening => 0
  | .running =>
    if k.phase = k.passes.length then k.slots
    else (k.begunSlots k.phase).foldl (fun a x => max a (x + 1)) (k.slotBase k.phase)
  | _ => k.slots

/-- Whether boundary s is reached on this member (R355). -/
def Coll.atBoundary (k : Coll) (b : Nat) : Bool :=
  k.stage = .running && b ≤ k.slotBase (k.phase + 1) &&
  (upTo 12).all fun i =>
    ((k.sendPeers k.phase i).all fun p => ((k.chunksTo k.phase i p).drop (k.sentTo k.phase i p)).all fun c => b ≤ c.slot) &&
    (k.recvPeers k.phase i).all fun p => ((k.chunksIn k.phase i p).mapIdx fun j c => (j, c)).all fun e =>
      b ≤ e.2.slot || k.arrived k.phase i p e.1 = e.2.len

/-- The first slot that this member may not begin, if any. -/
def Coll.slotLimit (k : Coll) : Option Nat := k.agreed <|> k.proposal

/-! ## Units on the wire (R337, R338) -/

/-- The sum, maximum or minimum of two wire values, with the flags it raises (R337). -/
def Coll.merge (k : Coll) (a b : BitVec 64) : BitVec 64 × BitVec 16 :=
  let fp (e : Elem) : BitVec 64 × BitVec 16 :=
    let x := decodeElem e 0 a.toNat
    let y := decodeElem e 0 b.toNat
    let (v, f1) := if k.redop = 0 then addVal false x y else minMax (k.redop = 1) false x y
    let (r, f2) := convert e true .rne 0 0 v
    (BitVec.ofNat 64 r, f1 ||| f2)
  match k.wire with
  | 0 => (match k.redop with
    | 0 => a + b
    | 1 => if a.toInt < b.toInt then b else a
    | _ => if b.toInt < a.toInt then b else a, 0)
  | _ => fp k.elem

/-- An entry of a top-k row at its rank (R165, R338). -/
def entryInsert (asc : Bool) (x : BitVec 32 × BitVec 32) : List (BitVec 32 × BitVec 32) → List (BitVec 32 × BitVec 32)
  | [] => [x]
  | y :: ys =>
    if ranksBefore asc (decodeElem .fp32 0 x.1.toNat) x.2.toNat (decodeElem .fp32 0 y.1.toNat) y.2.toNat then x :: y :: ys
    else y :: entryInsert asc x ys

def Coll.mergeRows (k : Coll) (a b : List (BitVec 32 × BitVec 32)) : List (BitVec 32 × BitVec 32) :=
  (b.foldl (fun r x => entryInsert k.asc x r) a).take k.topK

/-- The wire bytes of a unit. -/
def Coll.unitWire (k : Coll) (u : Nat) : Bytes :=
  if k.op = 6 then ((mapGet [] k.rows u).map fun e => natLe e.1.toNat 4 ++ natLe e.2.toNat 4).flatten
  else natLe (mapGet 0 k.work u).toNat k.unitBytes

/-- A unit arrives: stored, or combined with this member's own. -/
def Coll.takeUnit (k : Coll) (combine : Bool) (u : Nat) (b : Bytes) : Coll :=
  if k.op = 6 then
    let r := (upTo k.topK).map fun j => (BitVec.ofNat 32 (leNat (slice b (8 * j) 4)), BitVec.ofNat 32 (leNat (slice b (8 * j + 4) 4)))
    { k with rows := mapPut [] k.rows u (if combine then k.mergeRows (mapGet [] k.rows u) r else r) }
  else
    let v := BitVec.ofNat 64 (leNat b)
    if combine then
      let (w, f) := k.merge v (mapGet 0 k.work u)
      { k with work := mapPut 0 k.work u w, clFlags := k.clFlags ||| f }
    else { k with work := mapPut 0 k.work u v }

/-! ## Credits and chunks (R343) -/

/-- Chunks that this member may newly grant to a peer: at most depth ahead over the strand, and a right child's partial
only behind the left's (R343, R347). -/
def Coll.grantable (k : Coll) (n i peer : Nat) : Nat :=
  let ps := k.recvPeers n i
  let ahead := ps.foldl (fun a p => a + (k.grantedTo n i p - k.complete n i p)) 0
  let room := min ((k.chunksIn n i peer).length - k.grantedTo n i peer) (k.depth - ahead)
  match k.passes[n]?, ps with
  | some .treeUp, l :: _ => if l = peer then room else min room (k.complete n i l - k.grantedTo n i peer)
  | _, _ => room

/-- Grant what may be granted to one peer. -/
def State.grantTo (s : State) (c : CmdId) (n i peer : Nat) : State :=
  match s.coll? c with
  | none => s
  | some k =>
    let g := k.grantable n i peer
    if g = 0 then s
    else
      let s1 := s.updColl c fun k => { k with granted := mapPut 0 k.granted (streamKey n i peer) (k.grantedTo n i peer + g) }
      let code := (k.passes[n]?).elim (0, false) Pass.code
      s1.collOut c (fun a k => a.collCtl k peer ckCredit code.1 code.2 (natLe i 1 ++ natLe (bnat code.2) 1 ++ natLe g 2)) peer

/-- Leave finished passes behind and grant credits for the pass that runs. -/
def State.collPump (s : State) (c : CmdId) : State :=
  match s.coll? c with
  | none => s
  | some k =>
    if k.stage ≠ .running || !s.collActive k then s
    else
      let k1 := k.advance (k.passes.length + 1)
      (upTo 12).foldl (fun a i => (k1.recvPeers k1.phase i).foldl (fun b p => b.grantTo c k1.phase i p) a)
        (s.updColl c fun _ => k1)

/-- Whether every chunk that brings units of a range has arrived. -/
def Coll.rangeReady (k : Coll) (n i : Nat) (lo len : Nat) : Bool :=
  (k.recvPeers n i).all fun p => ((k.chunksIn n i p).mapIdx fun j c => (j, c)).all fun e =>
    e.2.lo + e.2.len ≤ lo || lo + len ≤ e.2.lo || k.arrived n i p e.1 = e.2.len

/-- The chunk that a strand sends next: the first of a peer that has a credit and whose units are ready. -/
def Coll.nextChunk (k : Coll) (i : Nat) : Option Chunk :=
  (k.sendPeers k.phase i).findSome? fun p =>
    ((k.chunksTo k.phase i p)[k.sentTo k.phase i p]?).filter fun c =>
      k.sentTo k.phase i p < k.creditsFrom k.phase i p && k.rangeReady k.phase i c.lo c.len && k.slotLimit.all fun l => c.slot < l

/-- The packets of a chunk: whole units, within 4,096 bytes with the prefix. -/
def Coll.chunkPackets (k : Coll) (c : Chunk) : List (Nat × Bytes) :=
  let per := max 1 (4080 / max 1 k.unitBytes)
  (upTo (ceilOf c.len per)).map fun j =>
    (c.off + j * per * k.unitBytes, ((upTo (min per (c.len - j * per))).map fun u => k.unitWire (c.lo + j * per + u)).flatten)

/-- A strand sends a chunk. -/
def State.sendChunk (s : State) (k : Coll) (i : Nat) (c : Chunk) : State :=
  let code := (k.passes[k.phase]?).elim (0, false) Pass.code
  let s1 := s.updColl k.cmd fun x => { x with sent := mapPut 0 x.sent (streamKey k.phase i c.peer) (k.sentTo k.phase i c.peer + 1) }
  ((k.chunkPackets c).foldl (fun a e =>
    a.collOut k.cmd (fun b x => b.collSend x c.peer ptCollData (collAddr i code.1 code.2 e.1) e.2) c.peer) s1).collPump k.cmd

/-- The units of a data packet enter the working vector (R343). -/
def Coll.takeData (k : Coll) (n i peer off : Nat) (b : Bytes) : Coll :=
  match ((k.chunksIn n i peer).mapIdx fun j c => (j, c)).find? fun e => e.2.off ≤ off && off < e.2.off + e.2.len * k.unitBytes with
  | none => k
  | some (j, c) =>
    let w := max 1 k.unitBytes
    let u0 := (off - c.off) / w
    let m := min (b.length / w) (c.len - u0)
    let k1 := (upTo m).foldl (fun (a : Coll) x => a.takeUnit c.combine (c.lo + u0 + x) (slice b (x * w) w)) k
    { k1 with got := mapPut 0 k1.got (streamKey n i peer * 2 ^ 40 + j) (k.arrived n i peer j + m) }

/-! ## Conversion of the input (R91 to R93, R336 to R338) -/

/-- Every row of a tensor, read for a tile, in logical order. -/
def State.tensorAll (s : State) (t : TileId) (x : Tensor) : List (Nat × Nat × Nat) → State × Except Fail (List (List (Nat × Nat)))
  | [] => (s, .ok [])
  | r :: rs =>
    match s.tensorRow t x r.1 r.2.1 r.2.2 with
    | (s1, .error e) => (s1, .error e)
    | (s1, .ok a) =>
      match s1.tensorAll t x rs with
      | (s2, .error e) => (s2, .error e)
      | (s2, .ok as) => (s2, .ok (a :: as))

/-- The part of m that holds an element of a range. -/
def partOf (r : Nat × Nat) (m e : Nat) : Nat :=
  ((upTo m).find? fun j => let p := pieceOf r m j; p.1 ≤ e && e < p.1 + p.2).getD 0

/-- The staging tile that serves an element of the working vector (R341). -/
def Coll.tileOf (k : Coll) (e : Nat) : Option TileId :=
  let i := match k.passes.head? with
    | some (.scatter d) =>
      let w := k.rangeBefore k.rank d
      partOf (pieceOf w (k.size d) (partOf w (k.size d) e)) 12 e
    | _ => partOf (0, k.total) 12 e
  k.tiles[i % max 1 k.tiles.length]?

/-- An element onto the wire: value and flags (R337, R91). -/
def Coll.toWire (k : Coll) (x : Tensor) (e : Nat) (raw : Nat × Nat) : BitVec 64 × BitVec 16 :=
  let v := x.fmt.value x.fretBase raw
  let r := drawFor k.rctl (BitVec.ofNat 64 (k.d 575 512)) x.id e
  if k.wire = 0 then fret64Contribution k.rctl r (baseInt k.base) v
  else
    let (b, f) := convert k.elem (x.fmt = ⟨k.elem, .none⟩) k.rctl r 0 v
    (BitVec.ofNat 64 b, f)

/-- The place of input element e in the working vector. -/
def Coll.inputAt (k : Coll) (e : Nat) : Nat := if k.op = 2 then k.rank * k.count + e else e

/-- The base of the collective's grid (R92, R339). -/
def Coll.gridBase (k : Coll) : BitVec 10 :=
  if k.wire ≠ 0 then 0 else if k.d 11 11 = 1 then BitVec.ofInt 10 (collectiveBase k.maxCeiling) else BitVec.ofNat 10 (k.d 21 12)

/-- The working vector from a member's input elements, and the staging tiles that clamped one (R93). -/
def Coll.loadElems (k : Coll) (x : Tensor) (raws : List (Nat × Nat)) : Coll × List TileId :=
  (raws.mapIdx fun e raw => (e, raw)).foldl (fun (a : Coll × List TileId) p =>
    let (v, f) := k.toWire x p.1 p.2
    let u := k.inputAt p.1
    let own := k.op = 5 && p.1 / max 1 k.count = k.rank
    let w := mapPut 0 a.1.work u v
    ({ a.1 with work := if own then mapPut 0 w (k.total + u) v else w, clFlags := a.1.clFlags ||| f },
      if f &&& flFretClamp = 0 then a.2 else (k.tileOf u).toList ++ a.2)) (k, [])

/-- Top-k rows from the input tensor and the positions (R338). -/
def Coll.loadRows (k : Coll) (rows : List (List (Nat × Nat))) (pos : Bytes) : Coll :=
  (rows.mapIdx fun r es => (r, es)).foldl (fun (a : Coll) p =>
    let es := p.2.mapIdx fun j raw =>
      (BitVec.ofNat 32 (if k.wire = 2 then raw.1 * 2 ^ 16 else raw.1), BitVec.ofNat 32 (leNat (slice pos (4 * (p.1 * k.topK + j)) 4)))
    { a with rows := mapPut [] a.rows p.1 (k.mergeRows [] es) }) k

/-- Read the input and begin to run: the grid is known, the input converts, credits go out (R344). -/
def State.collStart (s : State) (c : CmdId) (k0 : Coll) : State :=
  let k := { k0 with stage := .running, base := k0.gridBase }
  match k.srcTensor, k.tiles with
  | some x, t :: _ =>
    match s.tensorAll t x x.rowsOf with
    | (s1, .error e) => s1.raiseAbort c 0x05 e.status 0 none
    | (s1, .ok rows) =>
      if k.op = 6 then
        match s1.dieRead (dieOf t) k.part .allocate (k.d 383 320) (4 * k.count * k.topK) with
        | (s2, .error e) => s2.raiseAbort c 0x05 e.status 0 none
        | (s2, .ok pos) => (s2.updColl c fun _ => k.loadRows rows pos).collPump c
      else
        let (k1, clamped) := k.loadElems x rows.flatten
        (clamped.foldl (fun (a : State) u => a.updTile u Tile.fretClamped) (s1.updColl c fun _ => k1)).collPump c
  | _, _ => (s.updColl c fun _ => k).collPump c

/-! ## The opening round (R344) -/

def Coll.openBody (k : Coll) : Bytes :=
  k.sigBlock ++ natLe k.signature.toNat 8 ++ [k.maxCeiling] ++ natLe k.maxStamp.toNat 8 ++ natLe k.rank 2

/-- Packets of a round seen in a dimension. -/
def seenIn (l : List (Nat × BitVec 14)) (d : Nat) : Nat := (l.filter fun e => e.1 = d).length

/-- Go on through the dimensions of the opening round: each entered with this member's own packet. `sent` marks that
the present dimension's packet is out. -/
def State.openOn (s : State) (c : CmdId) : Nat → Bool → State
  | 0, _ => s
  | n + 1, sent =>
    match s.coll? c with
    | none => s
    | some k =>
      if 3 ≤ k.openDim then s
      else
        let d := k.openDim
        let s1 := if sent || k.size d ≤ 1 then s
          else s.collOut c (fun a k => a.collCtl k (k.next d) ckOpening d false k.openBody) (k.next d)
        if k.size d ≤ 1 + seenIn k.opened d then (s1.updColl c fun k => { k with openDim := d + 1 }).openOn c n false
        else s1

/-! ## The closing round (R345) -/

def Coll.closeBody (k : Coll) : Bytes := natLe k.clFlags.toNat 2 ++ [k.clCeiling] ++ natLe k.rank 2

def State.closeOn (s : State) (c : CmdId) : Nat → Bool → State
  | 0, _ => s
  | n + 1, sent =>
    match s.coll? c with
    | none => s
    | some k =>
      if 3 ≤ k.closeDim then s
      else
        let d := k.closeDim
        let s1 := if sent || k.size d ≤ 1 then s
          else s.collOut c (fun a k => a.collCtl k (k.next d) ckClosing d false k.closeBody) (k.next d)
        if k.size d ≤ 1 + seenIn k.closed d then (s1.updColl c fun k => { k with closeDim := d + 1 }).closeOn c n false
        else s1

/-! ## The end (R345, R360, R362) -/

/-- The result record (R362). -/
def Coll.resultRecord (k : Coll) : Bytes :=
  natLe (packBits [
    (10, k.base.toNat), (6, 0), (8, k.maxCeiling.toNat), (8, k.clCeiling.toNat), (1, bnat k.late), (1, bnat k.unaligned),
    (1, bnat (k.damps ≠ 0)), (29, 0), (64, k.release.toNat), (32, k.cseq.toNat), (16, k.damps.toNat), (80, 0)]) 32

/-- Write the result record. -/
def State.writeResult (s : State) (k : Coll) : State × Option Fail :=
  let a := k.d 511 448
  match a / 2 ^ 60 with
  | 2 => s.vwrite k.part (s.queueKernel k.cmd.queue) (a % 2 ^ 48) k.resultRecord
  | 4 => s.hostWrite (a % 2 ^ 57) k.resultRecord
  | _ => (s, none)

/-- The collective leaves the module's list; its staging tiles go free. -/
def State.dropColl (s : State) (c : CmdId) : State :=
  let s0 := (s.coll? c).elim s fun k => s.announceColl k false
  let s1 := (s0.freeTiles c).updCmd c fun y => { y with holds := [] }
  { s1 with colls := s1.colls.filter fun k => k.cmd ≠ c }

/-- A collective completes on this member: ceiling, result record, common flags (R345, R362). -/
def State.collFinish (s : State) (c : CmdId) (k : Coll) : State :=
  let (s1, e1) := if k.hasDst && k.clCeiling ≠ 0 then s.foldCeiling none k.part (BitVec.ofNat 64 (k.d 319 256)) k.clCeiling else (s, none)
  let (s2, e2) := s1.writeResult k
  let s3 := (s2.dropColl c).updCmd c fun y => { y with flags := k.clFlags, fast := y.fast || k.fast, engine := engColl }
  match e1, e2 with
  | some e, _ => s3.failCmd c e engColl none
  | none, some e => s3.failCmd c { e with status := 0x200B } engColl none
  | none, none => s3.endWork c 0

/-- What a collective does next once a round ends or its queue may run again. -/
def State.collSettle (s : State) (c : CmdId) : State :=
  match s.coll? c with
  | none => s
  | some k =>
    match k.stage with
    | .opening =>
      if k.openDim < 3 || k.abort.isSome then s
      else if k.op = 7 then
        let t := k.maxStamp + BitVec.ofNat 64 (k.d 671 640)
        s.updColl c fun x => { x with stage := .barrier, release := t, late := t.toNat < s.stamp.toNat + 100 }
      else if s.collActive k then s.collStart c k
      else s
    | .running => s.collPump c
    | .closing => if 3 ≤ k.closeDim && s.collActive k then s.collFinish c k else s
    | .barrier => s

/-! ## Damp (R355 to R357) -/

def dampBody (v init : Nat) : Bytes := natLe v 8 ++ natLe init 2

/-- A proposal of all ones only names a further holder (notes/assumptions/45.md). -/
abbrev dampNote : Nat := 2 ^ 64 - 1

/-- Send to the + neighbour on every ring. -/
def State.collFlood (s : State) (c : CmdId) (kind : Byte) (body : Bytes) : State :=
  match s.coll? c with
  | none => s
  | some k => k.dims.foldl (fun a d => a.collOut c (fun b x => b.collCtl x (x.next d) kind d false body) (k.next d)) s

/-- Go on through the dimensions of a damp round; its end agrees the boundary, or no stop (R355). -/
def State.dampOn (s : State) (c : CmdId) : Nat → Bool → State
  | 0, _ => s
  | n + 1, sent =>
    match s.coll? c with
    | none => s
    | some k =>
      if k.proposal.isNone then s
      else if 3 ≤ k.dampDim then
        let b := max k.dampMax (k.agreed.getD 0)
        let k1 := { k with proposal := none, dampMax := 0, dampSeen := [], dampDim := 0 }
        s.updColl c fun _ => if k.slots ≤ b then { k1 with agreed := none, holders := [] } else { k1 with agreed := some b }
      else
        let d := k.dampDim
        let s1 := if sent || k.size d ≤ 1 then s
          else s.collOut c (fun a k => a.collCtl k (k.next d) ckDamp d false (dampBody k.dampMax ((k.holders.head?.map BitVec.toNat).getD 0)))
            (k.next d)
        if k.size d ≤ 1 + mapGet 0 k.dampSeen d then (s1.updColl c fun k => { k with dampDim := d + 1 }).dampOn c n false
        else s1

/-- Join a damp round with this member's own slot. -/
def State.dampJoin (s : State) (c : CmdId) (k : Coll) : State :=
  if k.proposal.isSome then s
  else
    let v := match k.agreed with | some b => min b k.ownSlot | none => k.ownSlot
    (s.updColl c fun k => { k with proposal := some v, dampMax := max v k.dampMax }).dampOn c 5 false

/-- A holder is added; one that joins others is told to every member. -/
def State.dampHold (s : State) (c : CmdId) (r : BitVec 14) : State :=
  match s.coll? c with
  | none => s
  | some k =>
    if k.holders.contains r then s
    else
      let s1 := s.updColl c fun k => { k with holders := k.holders ++ [r] }
      if k.holders.isEmpty then s1 else s1.collFlood c ckDamp (dampBody dampNote r.toNat)

/-- This member's front end damps a collective for a pre-emption (R355). -/
def State.startDamp (s : State) (c : CmdId) : State :=
  match s.coll? c with
  | none => s
  | some k =>
    if k.abort.isSome then s
    else
      let s1 := s.dampHold c (BitVec.ofNat 14 k.rank)
      if k.paused || k.agreed.isSome then s1 else s1.dampJoin c k

/-- This member's front end lifts its damp (R357). -/
def State.liftDamp (s : State) (c : CmdId) : State :=
  match s.coll? c with
  | none => s
  | some k =>
    let r : BitVec 14 := BitVec.ofNat 14 k.rank
    if k.holders.contains r then
      (s.updColl c fun k => { k with holders := k.holders.filter (· ≠ r) }).collFlood c ckUndamp (natLe k.rank 2)
    else s

/-! ## Beginning (R335, R340, R344) -/

/-- The member table's entries (R334). -/
def tableEntries (b : Bytes) : Nat → List (BitVec 14 × BitVec 3)
  | 0 => []
  | n + 1 =>
    let v := leNat (slice b 0 4)
    (BitVec.ofNat 14 (bits v 13 0), BitVec.ofNat 3 (bits v 16 14)) :: tableEntries (b.drop 4) n

def tableClean (b : Bytes) (n : Nat) : Bool := (upTo n).all fun i => bits (leNat (slice b (4 * i) 4)) 31 17 = 0

/-- What the front end reads before a collective begins: both descriptors, then the member table where the
communicator's own fields hold. -/
def State.readColl (s : State) (c : CmdId) (x : Cmd) (ts : List TileId) : Except Fail (Coll × Option Fail × Bool) :=
  let p := s.queuePart c.queue
  match s.vread p (x.field 127 64) 128 with
  | .error e => .error e
  | .ok desc =>
    let ca := bits (leNat desc) 191 128
    if ca % 64 ≠ 0 then .error { status := 0x1003, addr := BitVec.ofNat 64 ca }
    else
      match s.vread p ca 64 with
      | .error e => .error e
      | .ok comm =>
        let k : Coll := { cmd := c, cseq := BitVec.ofNat 32 (bits (leNat comm) 191 160), desc := desc, comm := comm, src := [], dst := []
                          members := [], tiles := ts }
        if !k.commOk then .ok (k, none, true)
        else
          match s.vread p (k.c 255 192) (4 * k.n) with
          | .error e => .ok (k, some e, true)
          | .ok b => .ok ({ k with members := tableEntries b k.n }, none, tableClean b k.n)

/-- The tensor descriptors that a collective names. -/
def State.readCollTensors (s : State) (p : PartId) (k : Coll) : Except Fail Coll :=
  let one (used : Bool) (a : Nat) : Except Fail Bytes :=
    if !used then .ok []
    else if a % 64 ≠ 0 then .error { status := 0x1003, addr := BitVec.ofNat 64 a }
    else
      match s.vread p a 64 with
      | .error e => .error e
      | .ok b => (tensorOf b).map fun _ => b
  match one (k.hasSrc && k.fieldsOk) (k.d 255 192), one (k.hasDst && k.fieldsOk) (k.d 319 256) with
  | .error e, _ => .error e
  | _, .error e => .error e
  | .ok a, .ok b => .ok { k with src := a, dst := b }

/-- A member whose command is rejected tells the others where the table could be read (R340, R350). -/
def State.rejectColl (s : State) (c : CmdId) (k : Coll) (e : Fail) : State :=
  let s1 := if k.members.isEmpty then s else s.spreadAbort k (k.report s 0x06 0 none)
  s1.failCmd c e engColl none

/-- The staging tiles are taken and their areas overwritten (R341). -/
def State.takeStaging (s : State) (c : CmdId) (k : Coll) : State :=
  if k.op = 7 then s
  else
    k.tiles.foldl (fun a t =>
      (a.scribble t (k.d 607 576) k.stagingBytes).updTile t fun y => { y with cmd := some c, flags := 0 })
      (s.updCmd c fun y => { y with holds := k.tiles })

/-- A collective has been checked: it takes its tiles and sends its opening (R335, R344, R359). -/
def State.admitColl (s : State) (c : CmdId) (k0 : Coll) : State :=
  let ceil := k0.srcTensor.elim 0 fun t => t.ceiling
  let k := { k0 with maxCeiling := ceil, maxStamp := s.stamp, signature := crc64 k0.sigBlock }
  let s1 := (s.takeStaging c k).updCmd c fun y =>
    { y with dests := if k.hasDst then [BitVec.ofNat 64 (k.d 319 256)] else [], engine := engColl }
  (({ s1 with colls := s1.colls ++ [k] }.announceColl k true).openOn c 5 false).collSettle c

end Sys2Proof.Machine
end

