-- ==== Sys2Proof/Machine/FabricRecv.lean ====
section
/-! DEFINITION. What a destination does with every packet of reliable delivery before it acts on it (R315 to R317,
R323, R332; notes/assumptions/41.md). -/

namespace Sys2Proof.Machine

/-- Whether the module's link dies take part in the fabric: powered (R445, R332). -/
def State.fabricUp (s : State) : Bool := s.pow.mode = .powered

/-- Whether the module refuses fabric traffic: a module-warm reset or a start is under way (R332, R413). -/
def State.fabricClosed (s : State) : Bool := s.boot.state ≠ 1

/-- Acknowledge a packet (R316). -/
def State.ackPacket (s : State) (k : Packet) : State :=
  s.answer { s.newPacket k.src 1 ptAck (PartId.ofNat k.srcPart.toNat) [] with seq := k.seq, tag := k.tag }

/-- The checks of a packet that arrives for this module: reset, crc, window; a duplicate is acknowledged again, one
beyond the window dropped. True where the packet is new and is now counted as received. -/
def State.receive (s : State) (k : Packet) : State × Bool :=
  if !s.fabricUp || k.dst ≠ s.fab.modId then (s, false)
  else if s.fabricClosed then (s.refuse k 0x05, false)
  else if packetCrc k ≠ k.crc then (s.refuse k 0x06, false)
  else
    match s.seen k.src k.vc k.seq with
    | .noWindow => (s.refuse k 0x0A, false)
    | .duplicate => (s.ackPacket k, false)
    | .beyond => (s, false)
    | .fresh => (s.markSeen k.src k.vc k.seq, true)

end Sys2Proof.Machine
end

