-- ==== Sys2Proof/Machine/CollFam.lean ====
section
/-! DEFINITION. The collective commands and the happenings of a collective (R253, R333 to R363). -/

namespace Sys2Proof.Machine

/-! ## Packets that arrive -/

/-- Whether a collective packet is for this member: it names the collective and comes from the member that the round,
the pass or the credit makes its sender (notes/assumptions/42.md). -/
def Coll.hears (k : Coll) (p : Packet) : Bool :=
  k.idsMatch p &&
  match k.senderOf p with
  | none => false
  | some r =>
    if p.type = ptCollData then
      (k.passOf p).any fun n => (k.recvPeers n (bits p.addr.toNat 3 0)).contains r
    else if ctlKind p = ckCredit then
      (k.passOf p).any fun n => (k.sendPeers n (leNat (slice (ctlBody p) 0 1))).contains r
    else if ctlKind p = ckAbort then k.dims.any fun d => k.prev d = r || k.next d = r
    else r = k.prev (ctlDim p)

def State.collFor (s : State) (p : Packet) : Option Coll := s.colls.find? fun k => k.hears p

/-- Forward a round's packet to the + neighbour unless that is where it began (R344). -/
def State.forwardRound (s : State) (k : Coll) (p : Packet) (origin : Nat) : State :=
  let d := ctlDim p
  if k.next d = origin then s
  else s.collOut k.cmd (fun a x => a.collCtl x (k.next d) (ctlKind p) d false (ctlBody p)) (k.next d)

/-- An opening: another signature aborts; else it is noted and forwarded (R344, R349). -/
def State.takeOpening (s : State) (k : Coll) (p : Packet) : State :=
  let b := ctlBody p
  if BitVec.ofNat 64 (leNat (slice b 32 8)) ≠ k.signature then s.raiseAbort k.cmd 0x01 0 0 (k.senderOf p)
  else
    let origin := leNat (slice b 49 2)
    let ceil : Byte := BitVec.ofNat 8 (leNat (slice b 40 1))
    let stamp : Word := BitVec.ofNat 64 (leNat (slice b 41 8))
    let s1 := s.updColl k.cmd fun x =>
      { x.heard with
        opened := if x.opened.contains (ctlDim p, BitVec.ofNat 14 origin) then x.opened else (ctlDim p, BitVec.ofNat 14 origin) :: x.opened
        maxCeiling := if x.stage = .opening then ceilMax x.maxCeiling ceil else x.maxCeiling
        maxStamp := if x.stage = .opening && x.maxStamp.toNat < stamp.toNat then stamp else x.maxStamp }
    ((s1.forwardRound k p origin).openOn k.cmd 5 true).collSettle k.cmd

/-- A closing is noted and forwarded (R345). -/
def State.takeClosing (s : State) (k : Coll) (p : Packet) : State :=
  let b := ctlBody p
  let origin := leNat (slice b 3 2)
  let s1 := s.updColl k.cmd fun x =>
    { x.heard with
      closed := if x.closed.contains (ctlDim p, BitVec.ofNat 14 origin) then x.closed else (ctlDim p, BitVec.ofNat 14 origin) :: x.closed
      clFlags := x.clFlags ||| BitVec.ofNat 16 (leNat (slice b 0 2))
      clCeiling := ceilMax x.clCeiling (BitVec.ofNat 8 (leNat (slice b 2 1))) }
  let s2 := s1.forwardRound k p origin
  (if k.stage = .closing then s2.closeOn k.cmd 5 true else s2).collSettle k.cmd

/-- Credits enter a stream to the member that grants them (R343). -/
def State.takeCredit (s : State) (k : Coll) (p : Packet) : State :=
  let b := ctlBody p
  match k.passOf p, k.senderOf p with
  | some n, some r =>
    let key := streamKey n (leNat (slice b 0 1)) r
    s.updColl k.cmd fun x => { x.heard with credits := mapPut 0 x.credits key (mapGet 0 x.credits key + leNat (slice b 2 2)) }
  | _, _ => s

/-- A damp packet joins the round, or adds a holder (R355, R357). -/
def State.takeDamp (s : State) (k : Coll) (p : Packet) : State :=
  let b := ctlBody p
  let d := ctlDim p
  let v := leNat (slice b 0 8)
  let init : BitVec 14 := BitVec.ofNat 14 (leNat (slice b 8 2))
  let s1 := (s.updColl k.cmd Coll.heard).dampHold k.cmd init
  if v = dampNote then s1
  else
    let seen := mapGet 0 k.dampSeen d
    let s2 := s1.updColl k.cmd fun x => { x with dampMax := max v x.dampMax, dampSeen := mapPut 0 x.dampSeen d (seen + 1) }
    let s3 := if seen + 2 < k.size d then
        s2.collOut k.cmd (fun a x => a.collCtl x (k.next d) ckDamp d false b) (k.next d)
      else s2
    match s3.coll? k.cmd with
    | none => s3
    | some x => if x.proposal.isSome then s3.dampOn k.cmd 5 true else s3.dampJoin k.cmd x

/-- An undamp lowers the holders and goes on round the rings (R357). -/
def State.takeUndamp (s : State) (k : Coll) (p : Packet) : State :=
  let r : BitVec 14 := BitVec.ofNat 14 (leNat (slice (ctlBody p) 0 2))
  if k.holders.contains r then
    (s.updColl k.cmd fun x => { x.heard with holders := x.holders.filter (· ≠ r) }).collFlood k.cmd ckUndamp (ctlBody p)
  else s.updColl k.cmd Coll.heard

/-- What a control packet does to a collective that runs here. A member that holds an abort acts on abort reports
only (R351). -/
def State.control (s : State) (k : Coll) (p : Packet) : State :=
  let kind := ctlKind p
  if kind = ckAbort then (s.updColl k.cmd Coll.heard).holdAbort k.cmd (reportOf (ctlBody p))
  else if k.abort.isSome then s
  else if kind = ckOpening then s.takeOpening k p
  else if kind = ckClosing then s.takeClosing k p
  else if kind = ckCredit then s.takeCredit k p
  else if kind = ckDamp then s.takeDamp k p
  else if kind = ckUndamp then s.takeUndamp k p
  else s

/-- An opening for a collective that has not begun here, of a communicator whose later collective is in its opening
round: the members began them in different orders (R335, R349). -/
def State.outOfOrder (s : State) (p : Packet) : Option Coll :=
  if ctlKind p ≠ ckOpening then none
  else s.colls.find? fun k =>
    k.stage = .opening && leNat (slice p.data 0 4) = k.commId.toNat && (k.senderOf p).isSome &&
    let d := (k.cseq - BitVec.ofNat 32 (leNat (slice p.data 4 4))).toNat
    0 < d && d < 2 ^ 31

/-- A control packet arrives: it acts on its collective, waits for one that has not begun, or shows a mismatch. -/
def State.collControl (s : State) (p : Packet) : State :=
  match s.collFor p with
  | some k => s.control k p
  | none =>
    match s.outOfOrder p with
    | some k => s.raiseAbort k.cmd 0x01 0 0 (k.senderOf p)
    | none => { s with fab := { s.fab with early := s.fab.early ++ [p] } }

/-- One row of control packets: received by R316, acknowledged, acted on. -/
def State.ctlRow (s : State) (p : Packet) (kind : Byte) : State :=
  if p.type ≠ ptCollCtl || p.vc ≠ 2 || ctlKind p ≠ kind then s
  else
    match s.receive p with
    | (s1, true) => (s1.ackPacket p).collControl p
    | (s1, false) => s1

def execCollectiveOpening (k : Packet) (s : State) : Out := .next (s.ctlRow k ckOpening)
def execCollectiveClosing (k : Packet) (s : State) : Out := .next (s.ctlRow k ckClosing)
def execCollectiveCredit (k : Packet) (s : State) : Out := .next (s.ctlRow k ckCredit)
def execCollectiveAbort (k : Packet) (s : State) : Out := .next (s.ctlRow k ckAbort)
def execCollectiveDamp (k : Packet) (s : State) : Out := .next (s.ctlRow k ckDamp)
def execCollectiveUndamp (k : Packet) (s : State) : Out := .next (s.ctlRow k ckUndamp)

/-- A data packet's units enter the working vector (R343). -/
def State.takeDataPacket (s : State) (p : Packet) : State :=
  match s.collFor p with
  | none => s
  | some k =>
    match k.passOf p, k.senderOf p with
    | some n, some r =>
      if k.abort.isSome || k.stage ≠ .running then s
      else
        (s.updColl k.cmd fun x => x.heard.takeData n (bits p.addr.toNat 3 0) r (bits p.addr.toNat 45 8) (p.data.drop 16)).collPump k.cmd
    | _, _ => s

/-- R343. -/
def execCollectiveData (k : Packet) (s : State) : Out :=
  .next (if k.type ≠ ptCollData || k.vc ≠ 2 then s
    else
      match s.receive k with
      | (s1, true) => (s1.ackPacket k).takeDataPacket k
      | (s1, false) => s1)

/-! ## The commands (R253, R336) -/

/-- The operation that a queue's next collective names; an unreadable or illegal one is 0 (notes/assumptions/42.md). -/
def State.nextOp (s : State) (q : QueueId) : Option Nat :=
  (s.readyCmd q 4).map fun c =>
    match s.vread (s.queuePart q) (c.field 127 64) 128 with
    | .error _ => 0
    | .ok b => let o := bits (leNat b) 3 0; if 7 < o then 0 else o

/-- Control packets that came before the collective began. -/
def State.replayEarly (s : State) (c : CmdId) : State :=
  match s.coll? c with
  | none => s
  | some k =>
    let l := s.fab.early
    (l.filter k.hears).foldl (fun a p => a.collControl p) { s with fab := { s.fab with early := l.filter fun p => !k.hears p } }

/-- A collective begins: coll_seq advances, the checks of R340 run, the opening goes out (R335, R340, R344). -/
def State.beginColl (s : State) (c : CmdId) (x : Cmd) (ts : List TileId) : State :=
  match s.readColl c x ts with
  | .error e => s.failCmd c e engColl none
  | .ok (k, tableErr, clean) =>
    let p := s.queuePart c.queue
    match s.vwrite p (s.queueKernel c.queue) (k.d 191 128 + 20) (natLe (k.cseq.toNat + 1) 4) with
    | (s1, some e) => s1.failCmd c e engColl none
    | (s1, none) =>
      match tableErr, s1.readCollTensors p k with
      | some e, _ => s1.failCmd c e engColl none
      | none, .error e => s1.rejectColl c k e
      | none, .ok k1 =>
        match k1.check s1 p clean with
        | some st => s1.rejectColl c k1 { status := st, addr := BitVec.ofNat 64 (x.field 127 64) }
        | none => (s1.admitColl c k1).replayEarly c

/-- A collective command whose descriptor names one operation begins once its staging tiles are free; a barrier takes
none (R253, R262, R341). -/
def State.collRow (s : State) (q : QueueId) (op : Nat) : State :=
  if s.nextOp q = some op then
    s.tileRow q 4 Cmd.span (fun s _ l => op = 7 || l.all s.tileReady) fun s c x l => s.beginColl c x l
  else s

def execAllReduce (q : QueueId) (s : State) : Out := .next (s.collRow q 0)
def execReduceScatter (q : QueueId) (s : State) : Out := .next (s.collRow q 1)
def execAllGather (q : QueueId) (s : State) : Out := .next (s.collRow q 2)
def execBroadcast (q : QueueId) (s : State) : Out := .next (s.collRow q 3)
def execReduce (q : QueueId) (s : State) : Out := .next (s.collRow q 4)
def execAllToAll (q : QueueId) (s : State) : Out := .next (s.collRow q 5)
def execTopKMerge (q : QueueId) (s : State) : Out := .next (s.collRow q 6)
def execBarrier (q : QueueId) (s : State) : Out := .next (s.collRow q 7)

/-! ## Chunks -/

/-- The collective that a queue's command runs. -/
def State.collOf (s : State) (q : QueueId) (seq : BitVec 32) : Option Coll :=
  (s.findSeq q seq .begun).bind fun x => s.coll? ⟨q, x.id⟩

/-- R343. -/
def execChunkSend (q : QueueId) (seq : BitVec 32) (strand : StrandId) (s : State) : Out :=
  match s.collOf q seq with
  | none => .next s
  | some k =>
    .next (if k.stage ≠ .running || !s.collActive k then s
      else match k.nextChunk strand.val with
        | none => s
        | some c => s.sendChunk k strand.val c)

/-! ## Outputs and the closing round (R337, R338, R345) -/

/-- The first unit of this member's output in the working vector. -/
def Coll.outLo (k : Coll) : Nat := if k.op = 1 then k.rank * k.count else if k.op = 5 then k.total else 0

/-- The value of output element e: its wire value, exact. -/
def Coll.outVal (k : Coll) (e : Nat) : Val := decodeElem k.elem (baseInt k.base) (mapGet 0 k.work (k.outLo + e)).toNat

/-- Row r of the output, converted from the wire (R337). -/
def Coll.outRow (k : Coll) (d : Tensor) (r : Nat) : EncodedRow :=
  if k.op = 6 then
    let es := mapGet [] k.rows r
    ⟨packElems d.fmt.elem.width (es.map fun e => if k.wire = 2 then e.1.toNat / 2 ^ 16 else e.1.toNat), [], 0⟩
  else
    d.fmt.encode (d.fmt = ⟨k.elem, .none⟩) k.rctl d.fretBase ((upTo d.n0).map fun j =>
      (k.outVal (r * d.n0 + j), drawFor k.rctl (BitVec.ofNat 64 (k.d 575 512)) d.id (r * d.n0 + j)))

/-- Hash the output in its chunks, 12 strands of it (R374; notes/assumptions/44.md). -/
def State.hashOutput (s : State) (k : Coll) (d : Tensor) (rows : List EncodedRow) : State :=
  let raws := (rows.map fun r => (upTo d.n0).map fun j => (d.fmt.rawAt r.row r.scales j).1).flatten
  (upTo 12).foldl (fun a i =>
    let p := pieceOf (0, raws.length) 12 i
    let u := max 1 k.chunkUnits
    match k.tiles[i % max 1 k.tiles.length]? with
    | none => a
    | some t => (upTo (ceilOf p.2 u)).foldl (fun b j =>
        b.hashFor (some k.cmd) t 3 (packBits [(4, i), (4, 0), (40, j)])
          (packElems d.fmt.elem.width ((raws.drop (p.1 + j * u)).take (min u (p.2 - j * u))))) a) s

/-- Write this member's output; its flags and ceiling, or the first failure. -/
def State.writeOutput (s : State) (k : Coll) : State × Except Fail (BitVec 16 × Byte) :=
  match k.dstTensor, k.tiles with
  | some d, t :: _ =>
    let rows := (upTo d.rowsOf.length).map (k.outRow d)
    let (s1, err) := (d.rowsOf.zip rows).foldl (fun (a : State × Option Fail) e =>
      let (b, f) := a.1.outRow t d e.1.1 e.1.2.1 e.1.2.2 e.2.row e.2.scales
      (b, a.2 <|> f)) (s, none)
    let (s2, err2) := if k.op = 6 then
        s1.dieWrite (dieOf t) k.part false .noAllocate (k.d 447 384)
          ((upTo k.count).map fun r => ((mapGet [] k.rows r).map fun e => natLe e.2.toNat 4).flatten).flatten
      else (s1, none)
    match err <|> err2 with
    | some e => (s2, .error e)
    | none =>
      (s2.hashOutput k d rows,
        .ok (rows.foldl (fun a r => a ||| r.flags) 0,
          rows.foldl (fun a r => ceilMax a (d.fmt.ceiling d.fretBase r.row r.scales d.n0)) 0))
  | _, _ => (s, .ok (0, 0))

/-- The output ranges of a collective (R253). -/
def Coll.outRanges (k : Coll) : List (Word × Nat) :=
  (k.dstTensor.elim [] Tensor.ranges) ++ (if k.op = 6 then [(BitVec.ofNat 64 (k.d 447 384), 4 * k.count * k.topK)] else [])

/-- R345: outputs written and written back, this member enters the closing round. -/
def execClosingRound (q : QueueId) (seq : BitVec 32) (s : State) : Out :=
  match s.collOf q seq with
  | none => .next s
  | some k =>
    .next (if k.stage ≠ .running || !s.collActive k || k.phase < k.passes.length then s
      else
        match s.writeOutput k with
        | (s1, .error e) => s1.raiseAbort k.cmd 0x05 e.status 0 none
        | (s1, .ok (f, ce)) =>
          match (s1.updCmd k.cmd fun y => { y with ranges := k.outRanges }).releaseRanges k.part k.outRanges with
          | (s2, some e) => s2.raiseAbort k.cmd 0x05 e.status 0 none
          | (s2, none) =>
            ((s2.updColl k.cmd fun x =>
              { x with stage := .closing, clFlags := x.clFlags ||| f, clCeiling := ceilMax x.clCeiling ce }).closeOn k.cmd 5 false).collSettle
              k.cmd)

/-! ## Aborts and timers (R351 to R354) -/

/-- The fault record of an abort (R350, R410). -/
def State.recordAbort (s : State) (k : Coll) (seq : BitVec 32) (r : AbortReport) : BitVec 24 × State :=
  s.recordFault
    { kind := 0x06, status := 0x4000 + r.cause.setWidth 16, engine := engColl, detail := some (slice r.bytes 0 64)
      context := s.contextId k.cmd.queue, seq := seq, src := srcHub (2 + k.cmd.queue.val % 8), part := some k.part }

/-- Every output byte of an aborted collective becomes unspecified (R352). -/
def State.scribbleColl (s : State) (k : Coll) : State :=
  match k.dstTensor, k.tiles with
  | some d, t :: _ =>
    let s1 := s.scribbleTensor t d
    if k.op = 6 then
      let (b, s2) := s1.drawBytes (4 * k.count * k.topK)
      (s2.dieWrite (dieOf t) k.part false .noAllocate (k.d 447 384) b).1
    else s1
  | _, _ => s

/-- R351, R354: the member completes with the best report, 1 ms after it first held one. -/
def execAbortCompletion (q : QueueId) (seq : BitVec 32) (s : State) : Out :=
  match s.collOf q seq with
  | none => .next s
  | some k =>
    match k.abort with
    | none => .next s
    | some r =>
      let qs := s.queue q
      if s.time < k.abortAt + 1000000 || qs.state = qPreempted then .next s
      else
        let st : BitVec 16 := if k.ownStatus = 0x7001 ∨ k.ownStatus = 0x8001 then k.ownStatus else 0x4000 + r.cause.setWidth 16
        let (no, s1) := (s.scribbleColl k).recordAbort k seq r
        .next ((((s1.dropColl k.cmd).updCmd k.cmd fun y => { y with faultRef := no, engine := engColl, fast := y.fast || k.fast }).updCmd
          k.cmd fun y => y.finish st s.stamp).haltFor k.cmd |>.settleBuffers q)

/-- The neighbour that a member waits on (R353). -/
def Coll.waitsOn (k : Coll) : Option Nat :=
  let ring (d : Nat) : Option Nat := if d < 3 then some (k.prev d) else none
  match k.stage with
  | .opening => ring k.openDim
  | .closing => ring k.closeDim
  | .barrier => none
  | .running =>
    ((upTo 12).findSome? fun i => (k.recvPeers k.phase i).find? fun p => k.complete k.phase i p < (k.chunksIn k.phase i p).length) <|>
    (upTo 12).findSome? fun i => (k.sendPeers k.phase i).find? fun p => k.sentTo k.phase i p < (k.chunksTo k.phase i p).length

/-- R353. -/
def execProgressTimeout (q : QueueId) (seq : BitVec 32) (s : State) : Out :=
  match s.collOf q seq with
  | none => .next s
  | some k =>
    .next (if s.collTimed k && k.c 147 128 * 1000000 ≤ k.elapsed then s.raiseAbort k.cmd 0x02 0 0 k.waitsOn else s)

/-! ## Damp (R356, R357) -/

/-- R356: at the boundary the staging tiles go free and the timer stops. -/
def execDampBoundary (q : QueueId) (seq : BitVec 32) (s : State) : Out :=
  match s.collOf q seq with
  | none => .next s
  | some k =>
    match k.agreed with
    | none => .next s
    | some b =>
      .next (if k.paused || k.abort.isSome || !k.atBoundary b then s
        else
          ((s.freeTiles k.cmd).updCmd k.cmd fun y => { y with holds := [] }).updColl k.cmd fun x =>
            { x with paused := true, damps := if x.damps = 0xFFFF then x.damps else x.damps + 1 })

/-- R357: with no holder left and its staging tiles free, the member goes on. -/
def execStagingRestore (q : QueueId) (seq : BitVec 32) (s : State) : Out :=
  match s.collOf q seq with
  | none => .next s
  | some k =>
    let qs := s.queue q
    .next (if !k.paused || k.abort.isSome || !(k.holders.isEmpty || !(k.agreed.any k.atBoundary)) || qs.state = qPreempted || qs.preempting
        || !(k.tiles.all s.tileReady) || s.outranked q k.tiles then s
      else
        let s1 := s.updColl k.cmd fun x => { x with paused := false, agreed := if x.holders.isEmpty then none else x.agreed }
        (s1.takeStaging k.cmd k).collPump k.cmd)

/-! ## The hardware barrier (R359, R360) -/

/-- The semaphores of a barrier are signalled on every die of bdies; whether one overflowed (R140). -/
def State.signalBarrier (s : State) (k : Coll) : State × Bool :=
  k.bdies.foldl (fun (a : State × Bool) d =>
    let (s1, o) := a.1.semAdd (BitVec.ofNat 14 (d.val * 1024 + k.d 681 672)) (BitVec.ofNat 32 (k.d 735 704))
    (s1, a.2 || o)) (s, false)

/-- R359, R360: at the release instant the semaphores are signalled; a pre-empted queue's completion waits for its
restore (R363). -/
def execBarrierRelease (q : QueueId) (seq : BitVec 32) (s : State) : Out :=
  match s.collOf q seq with
  | none => .next s
  | some k =>
    if k.stage ≠ .barrier || k.abort.isSome || !(k.signalled || k.late || k.release.toNat ≤ s.stamp.toNat) then .next s
    else
      let (s1, full) := if k.signalled then (s, false) else s.signalBarrier k
      let k1 := { k with signalled := true, unaligned := if k.signalled then k.unaligned else s.tb.state ≠ 1 && s.tb.state ≠ 2 }
      let s2 := s1.updColl k.cmd fun _ => k1
      if full then .next ((s2.dropColl k.cmd).failCmd k.cmd { status := 0x2007 } engColl none)
      else if (s.queue q).state = qPreempted then .next s2
      else .next ((s2.collFinish k.cmd k1).settleBuffers q)

/-! ## Lock-step records (R375, R376) -/

/-- R375: a peer's hash record, with its command's block hashes, arrives and is compared. -/
def execHashRecord (part : PartId) (r : HashRec) (blocks : List BlockHash) (s : State) : Out :=
  let w := s.part part
  .next (if !s.partPaired part then s
    else (s.setPart part { w with peer_ := w.peer_ ++ [(r, blocks)], lastPeer := s.time }).compareRecords part)

/-- R376: no packet from the peer for 100 ms while local records await comparison. -/
def execPeerLost (part : PartId) (s : State) : Out :=
  let w := s.part part
  .next (if !s.partPaired part || w.local_.isEmpty || s.time < w.lastPeer + 100000000 then s
    else (s.setPart part { w with lsState := 5, local_ := [], peer_ := [] }).event (srcPart part) 0x09 w.ls.peer.toNat (some part))

end Sys2Proof.Machine
end

