-- ==== Sys2Proof/Machine/MemoryFam.lean ====
section
/-! DEFINITION. The memories' commands: scrubbing and zeroing of scratchpads, die caches, stack agents, atomics
and arrival counters (R174, R175, R196, R211, R225 to R236). -/

namespace Sys2Proof.Machine

/-! ## Scratchpads (R174, R175) -/

/-- Lines of a scratchpad. -/
abbrev scratchLines : Nat := 393216

/-- R174: one line is scrubbed; a single-bit error is corrected, a double-bit error poisons its word. -/
def State.scratchScrub (s : State) (t : TileId) (e : EccSeen) : State :=
  let x := s.tile t
  let line := x.scrubPos
  let s1 := s.updTile t fun y => { y with scrubPos := (line + 1) % scratchLines }
  let die := some (logicOfDie (dieOf t))
  let addr := BitVec.ofNat 64 (64 * line)
  match e with
  | .clean => s1
  | .single =>
    (s1.errAdd (srcTile t) 0x00).maskedError
      { kind := 0x02, status := 0, src := srcTile t, tile := some t, die := die, mech := 0x02, addr := addr }
  | .double w =>
    ((s1.updTile t fun y => { y with spoison := (8 * line + w.val) :: y.spoison.filter (· ≠ 8 * line + w.val) }).recordFault
      { kind := 0x09, status := 0x9002, src := srcTile t, tile := some t, die := die, mech := 0x02
        addr := BitVec.ofNat 64 (64 * line + 8 * w.val) }).2

def execScratchpadScrub (t : TileId) (e : EccSeen) (s : State) : Out := .next (s.scratchScrub t e)

/-- A tile's zeroing begins (R175): scratchpad, accumulators, extension words and poison marks. -/
def Tile.zeroed (x : Tile) : Tile :=
  { x with scratch := [], spoison := [], arr := { x.arr with panes := [] }, zeroing := true }

/-- R175: zeroing ends and programs may run again. -/
def execZeroingDone (t : TileId) (s : State) : Out := .next (s.updTile t fun x => { x with zeroing := false })

/-! ## Die caches (R196, R211) -/

/-- R196: a line leaves a die's cache, its dirty bytes written back; where they cannot be, they stay. -/
def State.evict (s : State) (d : DieId) (line : Nat) : State :=
  match s.cline d line with
  | none => s
  | some l =>
    match s.writeBackLine d line (BitVec.allOnes 64) with
    | (s1, none) => (s1.setCline d line none).perfAdd (srcDie d) 0x02 ((upTo 64).filter fun i => l.dirty.getLsbD i).length
    | (s1, some e) =>
      (s1.recordFault { kind := 0x09, status := 0x900B, src := srcDie d, die := some (logicOfDie d), stack := e.stack
                        mech := 0x01, addr := e.addr }).2

def execDieCacheEviction (d : DieId) (line : Nat) (s : State) : Out := .next (s.evict d line)

/-- A line after the background clearing: clean bytes of an earlier generation are gone. -/
def CLine.cleared (gen : Nat) (l : CLine) : Option CLine := (l.refresh gen).dropClean 0

/-- R211: the clearing that follows a whole-cache acquire ends. -/
def State.cacheCleared (s : State) (d : DieId) : State :=
  (s.die d).cache.foldl (fun (a : State) (e : Nat × Option CLine) =>
    a.setCline d e.1 (e.2.bind (CLine.cleared (s.die d).gen))) (s.updDie d fun x => { x with clearing := false })

def execCacheClearingDone (d : DieId) (s : State) : Out :=
  .next (if (s.die d).clearing then s.cacheCleared d else s)

/-! ## Stack agents (R225 to R229) -/

/-- The physical address of a stack address (R222). -/
def State.stackPa (s : State) (k : StackId) (sa : Nat) : Nat :=
  let d := stackDie k
  let o := if (s.dieInUse d).length = 1 then sa
    else sa / 2 ^ 8 * 2 ^ 9 + sa % 2 ^ 8 +
      2 ^ 8 * ((k.val + bnat (bit sa 15) + bnat (bit sa 23) + bnat (bit sa 31)) % 2)
  d.val * 2 ^ 38 + o

/-- A row of a stack: its pseudo-channel above its number there. -/
def rowOf (sa : Nat) : Nat := 2 ^ 40 * pchanOf sa + Config.memoryRow (sa / 64)

/-- Remap a row to a spare where its pseudo-channel has one left (R229). -/
def Stack.remap (x : Stack) (sa : Nat) : Stack :=
  let row := rowOf sa
  let n := mapGet 0 x.spares (pchanOf sa)
  if x.remapped.contains row ∨ 32 ≤ n then x
  else { x with remapped := row :: x.remapped, spares := mapPut 0 x.spares (pchanOf sa) (n + 1), repairs := x.repairs + 1 }

/-- A corrected line (R225, R228, R229). -/
def Stack.noteCorrected (x : Stack) (sa now : Nat) : Stack :=
  let n := x.corrected.toNat + 1
  let at_ := (sa / 64, now) :: x.correctedAt.filter fun c => now < c.2 + 86400000000000 ∧ c.1 ≠ sa / 64
  let y := { x with corrected := BitVec.ofNat 32 (min n (2 ^ 32 - 1)), cSat := x.cSat || n ≥ 2 ^ 32 - 1, correctedAt := at_ }
  if 3 ≤ (at_.filter fun c => rowOf (64 * c.1) = rowOf sa).length then y.remap sa else y

/-- A line found uncorrectable (R226, R228, R229). -/
def Stack.notePoison (x : Stack) (sa : Nat) : Stack :=
  let n := x.uncorrected.toNat + 1
  { x with uncorrected := BitVec.ofNat 32 (min n (2 ^ 32 - 1)), uSat := x.uSat || n ≥ 2 ^ 32 - 1 }.remap sa

/-- Insert a line among the poisoned ones. -/
def insertLine (n : Nat) : List Nat → List Nat
  | [] => [n]
  | m :: ms => if n < m then n :: m :: ms else if n = m then m :: ms else m :: insertLine n ms

/-- What the check of a line at a physical address does to the stack and the module's memory. The record of
a new poison is of kind 0x09 unless a command's own record reports it. -/
def State.lineChecked (s : State) (k : StackId) (pa : Nat) (e : LineSeen) (cmd : Bool) : State :=
  let sa := s.stackAddr (stackDie k) (pa % 2 ^ 38)
  match e with
  | .clean => s
  | .corrected =>
    (s.updStack k fun x => x.noteCorrected sa s.time).maskedError
      { kind := 0x02, status := 0, src := srcStack k, die := some (logicOfDie (stackDie k)), stack := some k, mech := 0x01
        addr := BitVec.ofNat 64 pa }
  | .uncorrectable =>
    if s.poison.contains (pa / 64) then s
    else
      let s1 := { s.updStack k fun x => x.notePoison sa with poison := insertLine (pa / 64) s.poison }
      if cmd then s1
      else (s1.recordFault { kind := 0x09, status := 0x9003, src := srcStack k, die := some (logicOfDie (stackDie k))
                             stack := some k, mech := 0x01, addr := BitVec.ofNat 64 pa }).2

/-- Whether an agent serves requests for an address: its own, and open (R222, R238). -/
def State.agentServes (s : State) (k : StackId) (pa : Nat) : Bool :=
  !(s.stack k).unavailable && !(s.stack k).selfRefresh &&
  match s.paKind pa with
  | .region d o => s.stackOf d o = k
  | .counter j _ => j = k
  | _ => false

/-- The command that an access is for. -/
def State.accessCmd (s : State) (c : Option CmdRef) : Option CmdId :=
  c.bind fun r => (s.findSeq r.queue r.seq .begun).map fun x => ⟨r.queue, x.id⟩

/-- The outcome of an access for its command: a failure completes it (R226). -/
def State.accessFail (s : State) (c : Option CmdId) (e : Option Fail) : State :=
  match c, e with
  | some k, some f => s.failCmd k f engAgent none
  | _, _ => s

/-- R225: a stack agent serves a read. -/
def State.stackRead (s : State) (k : StackId) (a : StackAccess) (e : LineSeen) : State :=
  let c := s.accessCmd a.cmd
  if !s.agentServes k a.pa.toNat then s
  else
    let s1 := (s.lineChecked k a.pa.toNat e c.isSome).perfAdd (srcStack k) 0x00 a.bytes
    match s1.agentRead a.pa.toNat a.bytes with
    | .ok _ => s1
    | .error f => s1.accessFail c (some f)

def execStackRead (k : StackId) (a : StackAccess) (e : LineSeen) (s : State) : Out := .next (s.stackRead k a e)

/-- The first line that a write covers only in part: the one its check reads. -/
def partLine (pa n : Nat) : Option Nat :=
  if n = 0 then none
  else if pa % 64 ≠ 0 ∨ n < 64 then some (pa / 64)
  else if (pa + n) % 64 ≠ 0 then some ((pa + n) / 64)
  else none

/-- R226: a stack agent serves a write. -/
def State.stackWrite (s : State) (k : StackId) (a : StackAccess) (data : Bytes) (e : LineSeen) : State :=
  let c := s.accessCmd a.cmd
  if !s.agentServes k a.pa.toNat then s
  else
    let s1 := match partLine a.pa.toNat data.length with
      | some l => s.lineChecked k (64 * l) e c.isSome
      | none => s
    let r := s1.agentWrite (c.any fun d => s.queueKernel d.queue) a.pa.toNat data
    (r.1.perfAdd (srcStack k) 0x01 data.length).accessFail c r.2

def execStackWrite (k : StackId) (a : StackAccess) (data : Bytes) (e : LineSeen) (s : State) : Out :=
  .next (s.stackWrite k a data e)

/-- R227: the agent scrubs one line; the position wraps after the stack's last line. -/
def State.stackScrub (s : State) (k : StackId) (e : LineSeen) : State :=
  let x := s.stack k
  if x.unavailable || x.selfRefresh then s
  else
    let s1 := (s.lineChecked k (s.stackPa k (64 * x.scrubPos)) e false).perfAdd (srcStack k) 0x04 1
    let next := (x.scrubPos + 1) % 2 ^ 31
    s1.updStack k fun y =>
      { y with scrubPos := next
               scrubPasses := if next = 0 ∧ y.scrubPasses ≠ 0xFF then y.scrubPasses + 1 else y.scrubPasses }

def execStackScrub (k : StackId) (e : LineSeen) (s : State) : Out := .next (s.stackScrub k e)

/-! ## Atomics at their agent (R212, R213, R230 to R232) -/

/-- The tile whose scratchpad space 0x0 of a request's result names: a dma command's, else the first tile of
the command on the issuing die (notes/assumptions/41.md). -/
def State.atomTile (s : State) (c : CmdId) (d : DieId) : Option TileId :=
  (s.cmd? c).bind fun x =>
    if x.opcode = 3 then TileId.ofNat? (x.field 150 144) else x.holds.find? fun t => dieOf t = d

/-- One request of a command reaches its agent. -/
def State.atomRow (s : State) (a : AtomicRequest) (op : Nat) : State :=
  match s.findSeq a.cmd.queue a.cmd.seq .begun with
  | none => s
  | some x =>
    let c : CmdId := ⟨a.cmd.queue, x.id⟩
    let r : AtomReq := ⟨a.target, a.operand, a.extra, a.result, op, a.w64, a.reserved.toNat⟩
    match s.atomic a.die (s.queuePart a.cmd.queue) (s.atomTile c a.die) r with
    | (s1, .error e) => s1.failCmd c e engAgent none
    | (s1, .ok f) => s1.atomEffects c f (op = 0xC)

/-- R231, operation 0x0. -/
def execAtomicAdd (a : AtomicRequest) (s : State) : Out := .next (s.atomRow a 0x0)
/-- R231, operation 0x1. -/
def execAtomicSmin (a : AtomicRequest) (s : State) : Out := .next (s.atomRow a 0x1)
/-- R231, operation 0x2. -/
def execAtomicSmax (a : AtomicRequest) (s : State) : Out := .next (s.atomRow a 0x2)
/-- R231, operation 0x3. -/
def execAtomicUmin (a : AtomicRequest) (s : State) : Out := .next (s.atomRow a 0x3)
/-- R231, operation 0x4. -/
def execAtomicUmax (a : AtomicRequest) (s : State) : Out := .next (s.atomRow a 0x4)
/-- R231, operation 0x5. -/
def execAtomicAnd (a : AtomicRequest) (s : State) : Out := .next (s.atomRow a 0x5)
/-- R231, operation 0x6. -/
def execAtomicOr (a : AtomicRequest) (s : State) : Out := .next (s.atomRow a 0x6)
/-- R231, operation 0x7. -/
def execAtomicXor (a : AtomicRequest) (s : State) : Out := .next (s.atomRow a 0x7)
/-- R231, operation 0x8. -/
def execAtomicSwap (a : AtomicRequest) (s : State) : Out := .next (s.atomRow a 0x8)
/-- R231, operation 0x9. -/
def execAtomicCas (a : AtomicRequest) (s : State) : Out := .next (s.atomRow a 0x9)
/-- R231, operation 0xA. -/
def execAtomicFret64Add (a : AtomicRequest) (s : State) : Out := .next (s.atomRow a 0xA)
/-- R231, operation 0xB. -/
def execAtomicFret128Add (a : AtomicRequest) (s : State) : Out := .next (s.atomRow a 0xB)
/-- R231, operation 0xC: the command takes the fast mark (R213). -/
def execAtomicFp32Add (a : AtomicRequest) (s : State) : Out := .next (s.atomRow a 0xC)

/-! ## Arrival counters (R234 to R236) -/

/-- R234: a write through the counter window; only a kernel queue's command may set a counter. -/
def State.counterWrite (s : State) (q : QueueId) (seq : BitVec 32) (k : StackId) (c : BitVec 12) (v : BitVec 64) : State :=
  match s.findSeq q seq .begun with
  | none => s
  | some x =>
    let addr : BitVec 64 := BitVec.ofNat 64 (14 * 2 ^ 38 + 8 * (4096 * k.val + c.toNat))
    if s.stackPart k ≠ some (s.queuePart q) then s.failCmd ⟨q, x.id⟩ { status := 0x1104, addr := addr } engAgent none
    else if !s.queueKernel q then s.failCmd ⟨q, x.id⟩ { status := 0x1101, addr := addr } engAgent none
    else s.writeCounter k c (v.setWidth 48)

def execCounterWindowWrite (q : QueueId) (seq : BitVec 32) (k : StackId) (c : BitVec 12) (v : BitVec 64) (s : State) : Out :=
  .next (s.counterWrite q seq k c v)

/-- Registrations an agent holds. -/
def State.registered (s : State) (k : StackId) : Nat := (s.ctrWaits.filter fun w => w.stack = k && w.registered).length

/-- R236: the front end reads the counters for the waits that the agent had no registration for; a wait
takes a registration that has become free. -/
def pollWaits (s : State) (k : StackId) : Nat → List CtrWait → List CtrWait
  | _, [] => []
  | room, w :: ws =>
    if w.stack = k ∧ !w.registered then
      { w with registered := room ≠ 0, met := w.met || ctrReached (s.ctr k w.ctr) w.target } :: pollWaits s k (room - 1) ws
    else w :: pollWaits s k room ws

def execCounterPoll (k : StackId) (s : State) : Out :=
  .next { s with ctrWaits := pollWaits s k (512 - s.registered k) s.ctrWaits }

end Sys2Proof.Machine
end

