-- ==== Sys2Proof/Machine/MailOps.lean ====
section
/-! DEFINITION. The mailbox: acceptance, firmware's checks in their order, answers, and the parts that messages
share (R286 to R292, R520). -/

namespace Sys2Proof.Machine

/-! ## Requests and answers -/

/-- What firmware answers: the state after, the status and the payload; `later` where the answer comes with a later
happening. -/
structure Ans where
  s : State
  status : BitVec 16 := 0
  payload : Bytes := []
  later : Bool := false

def ansFail (s : State) (st : BitVec 16) : Ans := { s := s, status := st }
def ansOk (s : State) (b : Bytes := []) : Ans := { s := s, payload := b }

/-- A message of R292: its opcode, who may send it, its response time in ns, its lengths, its reserved fields given
the payload, and what firmware does. -/
structure MsgSpec where
  opcode : Nat
  vf : Bool := false
  os : Bool := false
  bound : Nat
  lenOk : Nat → Bool
  reserved : Bytes → List (Nat × Nat) := fun _ => []
  run : State → Sender → Bytes → Ans

/-- The partition a sender is confined to: a virtual function's. -/
def Sender.confined (w : Sender) : Option PartId :=
  match w with
  | .mail f _ => partOfFn f
  | _ => none

/-- The function a sender speaks for. -/
def Sender.fn (w : Sender) : FnId :=
  match w with
  | .mail f _ => f
  | _ => 0

/-- Whether a sender may name a partition (R290). -/
def Sender.reaches (w : Sender) (p : PartId) : Bool := w.confined.all fun q => q = p

/-- The 16 bytes of a header (R288). -/
def msgHeader (opcode : Nat) (resp : Bool) (rsv1 len tag seq status rsv2 : Nat) : Bytes :=
  natLe (packBits [(16, opcode), (1, bnat resp), (15, rsv1), (16, len), (16, tag), (32, seq), (16, status), (16, rsv2)]) 16

/-- The header of an answer to a request whose header is given. -/
def answerHeader (req : Nat) (st : BitVec 16) (len : Nat) : Bytes :=
  msgHeader (bits req 15 0) true 0 len (bits req 63 48) (bits req 95 64) st.toNat 0

/-! ## Answering (R287, R261) -/

/-- Write a mailbox answer: the response buffer, done, busy cleared, the mailbox vector. A reset of the function
since the message discards it (R280). -/
def State.answerMail (s : State) (f : FnId) (serial : Nat) (st : BitVec 16) (b : Bytes) : State :=
  let x := s.fn f
  if !x.busy || x.serial ≠ serial then s
  else
    let h := answerHeader (leNat (bytesAt x.req 0 16)) st b.length
    (s.setFn f { x with resp := putBytes (putBytes [] 0 h) 16 b, done := true, busy := false }).raiseVector f 0

/-- Write an fwpass answer 4 KiB above its message and end the command (R261). -/
def State.answerPass (s : State) (c : CmdId) (st : BitVec 16) (b : Bytes) : State :=
  match s.cmd? c with
  | none => s
  | some x =>
    let a := x.field 127 64
    match s.vread (s.queuePart c.queue) a 16 with
    | .error e => s.frontFail c e
    | .ok h =>
      match s.vwrite (s.queuePart c.queue) (s.queueKernel c.queue) (a + 4096) (answerHeader (leNat h) st b.length ++ b) with
      | (s1, some e) => s1.frontFail c e
      | (s1, none) => s1.endWork c 0

/-- Answer whoever asked. -/
def State.respond (s : State) (w : Option Sender) (st : BitVec 16) (b : Bytes) : State :=
  match w with
  | none => s
  | some (.mail f n) => s.answerMail f n st b
  | some (.pass c) => s.answerPass c st b
  | some (.cmd c) => if st = 0 then s.endWork c 0 else s.frontFail c { status := st }

/-- Give an answer, unless it comes later. -/
def Ans.finish (a : Ans) (w : Sender) : State := if a.later then a.s else a.s.respond (some w) a.status a.payload

/-! ## Checks (R520) -/

/-- Presence: the window is open or the jumper is fitted (R483). -/
def State.presence (s : State) : Bool := s.boot.presenceOpen || !s.pow.maintJmpN

/-- Check 3: whether a sender may send a message (R290, R418). -/
def State.senderOk (s : State) (k : MsgSpec) (w : Sender) : Bool :=
  let maint := k.opcode / 256 = 0x0F
  let mode := (s.boot.state ≠ 2 || k.os) && (s.boot.debug || (k.opcode ≠ 0x0A03 && k.opcode ≠ 0x0A04))
  match w with
  | .mail f _ =>
    match partOfFn f with
    | none => mode && (!maint || s.presence)
    | some p => mode && k.vf && ((s.part p).exists_ || k.opcode / 256 = 1)
  | _ => mode && !maint && (k.opcode < 0x0A02 || 0x0A04 < k.opcode)

/-- Checks 3 to 5, then the message itself; `extra` says that the header holds a reserved field that is not zero. -/
def State.serve (s : State) (k : MsgSpec) (w : Sender) (len : Nat) (extra : Bool) (b : Bytes) : Ans :=
  if !s.senderOk k w then ansFail s 0x1103
  else if !k.lenOk len then ansFail s 0x100B
  else if extra || (k.reserved b).any (fun r => bits (leNat b) r.1 r.2 ≠ 0) then ansFail s 0x1002
  else k.run s w b

/-- The request buffer's bytes for a message. -/
def msgBytes (m : Msg) (opcode : Nat) : Bytes :=
  msgHeader opcode m.resp m.rsv1.toNat m.length.toNat m.tag.toNat m.seq.toNat m.status.toNat m.rsv2.toNat ++ m.payload.take 4080

/-- Reserved header fields, and the fields that are zero in a request. -/
def msgExtra (m : Msg) : Bool := m.resp || m.rsv1 ≠ 0 || m.status ≠ 0 || m.rsv2 ≠ 0

/-- A message arrives at a function's mailbox (R286, R287, R289): it is ignored while one executes; a repeat of the
last one gives its response again; a sequence number that is not accepted fails. `mine` says that the message is
this command's. -/
def State.mailRow (s : State) (k : MsgSpec) (m : Msg) (mine : Bool) : State :=
  let x := s.fn m.fn
  if !s.bar0Open || !mine then s
  else if x.busy then s.setFn m.fn { x with dbIgnored := true }
  else
    let n := x.serial + 1
    let y := { x with busy := true, done := false, req := putBytes [] 0 (msgBytes m k.opcode), serial := n
                      mbStart := s.time, mbBound := k.bound }
    if x.seqAny || m.seq = x.nextSeq then
      let s1 := s.setFn m.fn { y with nextSeq := m.seq + 1, seqAny := false }
      (s1.serve k (.mail m.fn n) m.length.toNat (msgExtra m) (slice m.payload 0 (min m.length.toNat 4080))).finish (.mail m.fn n)
    else if m.seq = x.nextSeq - 1 then
      (s.setFn m.fn { x with done := true, serial := n }).raiseVector m.fn 0
    else (s.setFn m.fn y).answerMail m.fn n 0x1004 []

/-! ## Requests for firmware by command (R261) -/

/-- A command of firmware begins: its parameter block's address, aligned, is read and the request run. -/
def State.fwRow (s : State) (q : QueueId) (op align len : Nat) (mine : Except Fail Bytes → Bool)
    (f : State → Sender → Bytes → Ans) : State :=
  match s.readyCmd q op with
  | none => s
  | some x =>
    let c : CmdId := ⟨q, x.id⟩
    let a := x.field 127 64
    let blk : Except Fail Bytes :=
      if a % align ≠ 0 then .error { status := 0x1003, addr := BitVec.ofNat 64 a } else s.vread (s.queuePart q) a len
    if !mine blk then s
    else
      match blk with
      | .error e => (s.beginCmd c).frontFail c e
      | .ok b => (f (s.beginCmd c) (.cmd c) b).finish (.cmd c)

/-! ## The end of a queue (R276) -/

/-- Drop a queue's saved contexts (R276, R398). -/
def State.dropContexts (s : State) (q : QueueId) : State :=
  allDies.foldl (fun a d => a.updDie d fun x =>
    { x with slots := x.slots.filter fun e => !(e.2.any fun k => k.queue = q) }) s

/-- A queue begins to end: nothing more is fetched, its work is abandoned, its commands are cancelled. -/
def State.beginDestroy (s : State) (q : QueueId) (st : BitVec 16) : State :=
  let s1 := (((s.updQueue q fun x => { x with state := qDestroying, frames := [], skip := 0, halting := none
                                              preempting := false }).dropPreloads q).dropContexts q)
  let s2 := s1.stopTiles ⟨q, 0⟩
  (s2.queue q).cmds.foldl (fun a x => a.cancelCmd ⟨q, x.id⟩ st) s2

/-- Release and publish, or drop, one record of a queue that ends (R276 step 5). -/
def State.flushRecord (s : State) (q : QueueId) (c : QueueCfg) (x : Cmd) : State :=
  let n := (s.queue q).nextPub
  if !slotFree (s.queue q) c n then
    (s.recordLost q n { status := x.status }).updQueue q fun y => { y with nextPub := y.nextPub + 1 }
  else
    match s.writeCompletion q c n (completionRecord q n c.cplLog2 x) with
    | (s1, none) => s1.published q c n x
    | (s1, some e) => (s1.recordLost q n e).updQueue q fun y => { y with nextPub := y.nextPub + 1 }

/-- The records that a resume passed over and that are not yet published. -/
def Queue.passedOver (x : Queue) : Nat := x.resumeTo.elim 0 fun r => (r - x.nextPub).toNat

/-- Publish every record of a queue that ends: those passed over, those held, those in flight. -/
def State.flushRecords (s : State) (q : QueueId) : State :=
  match (s.queue q).cfg with
  | none => s
  | some c =>
    let s0 := s.settleBuffers q
    let x := s0.queue q
    let s1 := (upTo (min x.passedOver 65536)).foldl (fun a _ =>
      a.flushRecord q c (skippedByResume (a.queue q).nextPub a.stamp)) (s0.updQueue q fun y => { y with resumeTo := none })
    let s2 := x.held.foldl (fun a d => a.flushRecord q c d) (s1.updQueue q fun y => { y with held := [] })
    x.cmds.foldl (fun a d =>
      match a.cmd? ⟨q, d.id⟩ with
      | none => a
      | some y =>
        let a1 := if y.stage = .worked then a.release ⟨q, y.id⟩ y else a
        if y.depth ≠ 0 then a1.absorbChild ⟨q, y.id⟩
        else
          let z := (a1.cmd? ⟨q, y.id⟩).getD y
          (a1.updQueue q fun w => { w with cmds := w.cmds.filter fun k => k.id ≠ y.id }).flushRecord q c z) s2

/-- Whether nothing of a queue runs any more. -/
def State.queueQuiet (s : State) (q : QueueId) : Bool :=
  !(s.colls.any fun k => k.cmd.queue = q) && (s.queue q).cmds.all fun x => !x.live

/-- A queue is gone: its rings and spill shares are released; its generation and its energy are kept (R276, R411). -/
def State.disableQueue (s : State) (q : QueueId) : State :=
  let x := s.queue q
  (s.flushRecords q).setQueue q { gen := x.gen, energy := x.energy }

/-! ## Queues of a partition -/

/-- The queues of a partition, rising. -/
def State.partQueues (s : State) (p : PartId) : List QueueId :=
  (s.queues.filter fun e => e.2.cfg.any fun c => c.partition = p).map fun e => QueueId.ofNat e.1

/-- Begin to end a queue for someone: a job that ends once nothing of it runs. -/
def State.destroyFor (s : State) (w : Option Sender) (q : QueueId) : State :=
  let s1 := if (s.queue q).state = qDestroying then s else s.beginDestroy q 0x8002
  { s1 with jobs := s1.jobs ++ [⟨w, .destroy q⟩] }

end Sys2Proof.Machine
end

