-- ==== Sys2Proof/Machine/Preempt.lean ====
section
/-! DEFINITION. Pre-emption and context state: the decision, the stop of each engine, the save and the restore
(R114, R146, R169, R193, R391 to R400; notes/assumptions/47.md, 48.md). -/

namespace Sys2Proof.Machine

/-! ## Context slots (R396) -/

/-- The context slots of a die that hold nothing. -/
def State.freeSlots (s : State) (d : DieId) : List Nat := (upTo 3).filter fun i => mapGet none (s.die d).slots i = none

/-- The slot of a die that holds a queue's contexts. -/
def State.slotOf (s : State) (d : DieId) (q : QueueId) : Option (Nat × CtxSlot) :=
  ((s.die d).slots.find? fun e => e.2.any fun k => k.queue = q).bind fun e => e.2.map fun k => (e.1, k)

/-- Tiles whose sequencer and engines serve a queue, and tiles whose DMA engine holds descriptors of it. -/
def State.tilesOf (s : State) (q : QueueId) : List TileId := allTiles.filter fun t => (s.tile t).cmd.any fun c => c.queue = q
def Tile.dmaFor (x : Tile) (q : QueueId) : Bool :=
  (x.dma.ops.any fun o => o.cmd.any fun c => c.queue = q) || x.dma.handed.any fun h => h.1.queue = q
def State.contextTiles (s : State) (q : QueueId) : List TileId :=
  allTiles.filter fun t => ((s.tile t).cmd.any fun c => c.queue = q) || (s.tile t).dmaFor q

/-- Whether every die on which a queue holds a tile has a context slot free, those of pre-emptions under way counted. -/
def State.slotsFor (s : State) (q : QueueId) : Bool :=
  allDies.all fun d =>
    let here (r : QueueId) : Bool := (s.contextTiles r).any fun t => dieOf t = d
    let others := (s.queues.filter fun e => QueueId.ofNat e.1 ≠ q && e.2.preempting && here (QueueId.ofNat e.1)).length
    !here q || others < (s.freeSlots d).length

/-! ## The stop (R146, R393, R394) -/

/-- A sequencer stops at an instruction boundary: a wait that has been met completes, any other is abandoned. -/
def State.stopSeq (s : State) (t : TileId) : State :=
  let s1 := if s.semWaits.any fun w => w.ofTile t && w.met then s.semWaitRelease t else s
  let s2 := { s1 with semWaits := s1.semWaits.filter fun w => !w.ofTile t }
  match (s2.tile t).seq.run with
  | .running | .waitEvent _ _ | .waitSem | .waitSync _ | .waitIssue _ | .waitWdone _ _ => s2.updSeq t fun q => { q with run := .stopped }
  | _ => s2

/-- A front-end wait in progress completes where it has been met, and else is abandoned to run again (R277, R393). -/
def State.stopWait (s : State) (c : CmdId) (x : Cmd) : State :=
  if s.waitMet c then
    match s.waitRange c x with
    | .error e => (s.dropWaits c).frontFail c e
    | .ok ps => (((s.dropWaits c).acquirePart (s.queuePart c.queue) ps).endWork c 0).settleBuffers c.queue
  else (s.dropWaits c).updCmd c fun y => { y with stage := .fetched }

/-- The pre-emption of a whole queue begins (R393, R394). -/
def State.beginPreempt (s : State) (q : QueueId) : State :=
  let s1 := (s.updQueue q fun x => { x with preempting := true }).dropPreloads q
  let s2 := ((s1.queue q).cmds.filter fun x => x.opcode = 5 && x.stage = .begun).foldl (fun a x => a.stopWait ⟨q, x.id⟩ x) s1
  let s3 := (s2.tilesOf q).foldl (fun a t => a.stopSeq t) s2
  if (s.part (s.queuePart q)).damp then
    (s3.colls.filter fun k => k.cmd.queue = q && k.op ≠ 7).foldl (fun a k => a.startDamp k.cmd) s3
  else s3

/-- The queues that hold tiles which a queue's next command needs, where it is blocked (R391). -/
def State.blockers (s : State) (q : QueueId) : List QueueId :=
  let x := s.queue q
  if !s.mayBegin q then []
  else
    match x.nextBegin.filter fun c => x.ordered c && [1, 2, 3, 4].contains c.opcode && !((c.opcode = 2) && x.cfg.any fun g => g.persist) with
    | none => []
    | some c => ((c.span.getD []).filterMap fun t => ((s.tile t).cmd.map fun d => d.queue).filter (· ≠ q)).eraseDups

/-- Whether a holder meets the conditions of R392. -/
def State.yields (s : State) (h l : QueueId) : Bool :=
  let pri (q : QueueId) : Nat := ((s.queue q).cfg.map fun c => c.priority.toNat).getD 0
  let x := s.queue l
  pri l < pri h && x.state = qRunning && !x.preempting && x.halting.isNone && s.slotsFor l

/-- R392: every holder that a blocked command meets is pre-empted, or none. -/
def execPreemption (q : QueueId) (s : State) : Out :=
  let l := s.blockers q
  .next (if !l.isEmpty && l.all (s.yields q) then l.foldl (fun a r => a.beginPreempt r) s else s)

/-! ## Engines report stopped (R114, R169, R193) -/

/-- A pane at the stop: the shadow load is abandoned, a pass not ended is marked stopped. -/
def Pane.atStop (y : Pane) : Pane :=
  { y with shadow := none
           instr := y.instr.map fun i => { i with cursor := { i.cursor with stopped := i.phase = .pass } } }

/-- R114, R393: resident blocks of unfinished chains are spilled, then the array reports stopped. -/
def State.arrayStop (s : State) (t : TileId) : State :=
  let x := s.tile t
  if !s.tileStopping t || !x.inService || x.arr.stopped || x.finished.any (fun o => o.engine = .array) then s
  else
    let s1 := (List.finRange 16).foldl (fun a p =>
      let y := (a.tile t).pane p
      if y.resident && y.instr.isNone then (a.spillTo t p 0 y.place .good).1 else a) s
    if (s1.tile t).cmd ≠ x.cmd then s1
    else s1.updTile t fun z =>
      { z with arr := { z.arr with stopped := true
                                   panes := z.arr.panes.map fun e => (e.1, e.2.atStop) } }

def execArrayStopped (t : TileId) (s : State) : Out := .next (s.arrayStop t)

/-- R169. -/
def execVectorStopped (t : TileId) (s : State) : Out :=
  let x := s.tile t
  .next (if !s.tileStopping t || !x.inService || x.vec.stopped || x.finished.any (fun o => o.engine = .vector) then s
    else s.updTile t fun z => { z with vec := { z.vec with stopped := true } })

/-- R193: every issued segment of the stopping queues has completed. -/
def execDmaStopped (t : TileId) (s : State) : Out :=
  let x := s.tile t
  let stopping := s.tileStopping t || x.dma.ops.any (s.opStopping t ·) || x.dma.handed.any fun h => s.holderStops (some h.1)
  let quiet := x.dma.ops.all fun o => !s.opStopping t o || o.sent.isEmpty
  .next (if !stopping || !quiet || x.dma.stopped || (s.tileStopping t && x.finished.any fun o => o.engine = .dma) then s
    else s.updTile t fun z => { z with dma := { z.dma with stopped := true } })

/-! ## The save (R397, R398) -/

/-- Whether every engine of a queue has stopped, and its collectives wait at their boundary or need no tile. -/
def State.savedReady (s : State) (q : QueueId) : Bool :=
  ((s.tilesOf q).all fun t => (s.tile t).arr.stopped && (s.tile t).vec.stopped && (s.tile t).dma.stopped)
    && ((s.contextTiles q).all fun t => (s.tile t).dma.stopped)
    && (!(s.part (s.queuePart q)).damp || s.colls.all fun k => k.cmd.queue ≠ q || k.op = 7 || k.paused)

/-- The context of a tile: the state at the stop, without the instruction store (R397). A tile of another queue gives
the queue's descriptors only. -/
def Tile.context (x : Tile) (q : QueueId) : Tile :=
  if x.cmd.any fun c => c.queue = q then { x with seq := { x.seq with store := [], preload := none } }
  else { ({} : Tile) with dma := { ({} : Dma) with
    ops := x.dma.ops.filter fun o => o.cmd.any fun c => c.queue = q, handed := x.dma.handed.filter fun h => h.1.queue = q } }

/-- The tile once its context is saved: free, or without the queue's descriptors. -/
def Tile.afterSave (x : Tile) (q : QueueId) : Tile :=
  if x.cmd.any fun c => c.queue = q then
    { x with seq := {}, flags := 0, fret := 0, aq := [], vq := [], dq := [], finished := [], vec := {}, arr := { cfg := x.arr.cfg }
             dma := { ops := x.dma.ops.filter fun o => o.cmd.any fun c => c.queue ≠ q, handed := x.dma.handed.filter fun h => h.1.queue ≠ q }
             cmd := none }
  else
    { x with dma := { x.dma with ops := x.dma.ops.filter fun o => !(o.cmd.any fun c => c.queue = q)
                                 handed := x.dma.handed.filter fun h => h.1.queue ≠ q, stopped := false } }

/-- Save a queue's contexts on one die (R396 to R398). -/
def State.saveDie (s : State) (q : QueueId) (d : DieId) : State :=
  let ts := (s.contextTiles q).filter fun t => dieOf t = d
  match ts, s.freeSlots d with
  | _ :: _, i :: _ =>
    let m := ts.foldl (fun (m : NMap Tile) t => mapInsert m t.val ((s.tile t).context q)) []
    let s1 := ts.foldl (fun a t => a.updTile t fun x => x.afterSave q) s
    (s1.dropCache d).updDie d fun x =>
      { x with slots := mapPut none x.slots i (some ⟨q, (s.queue q).gen, m, [], []⟩) }
  | _, _ => s

/-- What a queue's tiles stopped for goes on: a fault of the queue ends its pre-emption (R400). -/
def Tile.resumed (x : Tile) : Tile :=
  { x with seq := { x.seq with run := if x.seq.run = .stopped then .running else x.seq.run }
           arr := { x.arr with stopped := false
                               panes := x.arr.panes.map fun e => (e.1, { e.2 with instr := e.2.instr.map fun i =>
                                 { i with cursor := { i.cursor with stopped := false } } }) }
           vec := { x.vec with stopped := false }, dma := { x.dma with stopped := false } }

def State.cancelPreempt (s : State) (q : QueueId) : State :=
  let s1 := (s.contextTiles q).foldl (fun a t => a.updTile t Tile.resumed) (s.updQueue q fun x => { x with preempting := false })
  (s1.colls.filter fun k => k.cmd.queue = q).foldl (fun a k => a.liftDamp k.cmd) s1

/-! ## The restore (R395, R398) -/

/-- The tiles that a queue's contexts go back to. -/
def State.restoreTiles (s : State) (q : QueueId) : List TileId :=
  (allDies.map fun d => match s.slotOf d q with
    | none => []
    | some (_, k) => (k.tiles.filter fun e => e.2.cmd.isSome).filterMap fun e => TileId.ofNat? e.1).flatten

/-- Whether a line of a queue's saved contexts is poisoned: a slot's contexts and die state (R226, R397, R398). -/
def State.contextPoisoned (s : State) (q : QueueId) : Bool :=
  allDies.any fun d => match s.slotOf d q with
    | none => false
    | some (i, _) =>
      let a := d.val * 2 ^ 38 + s.reserveBase d + i * (225 * mib)
      s.poison.any fun l => a ≤ 64 * l && 64 * l < a + 225 * mib

/-- A restore that a context check stops: the in-flight commands fail, the contexts go, the queue halts, its tiles are
free with unspecified contents (R398). -/
def State.restoreFails (s : State) (q : QueueId) (st : BitVec 16) : State :=
  let ts := s.restoreTiles q
  let s1 := ((s.dropContexts q).updQueue q fun x => { x with state := qRunning, halting := some 0x01, frames := [], skip := 0 })
  let s2 := ts.foldl (fun a t => a.scribble t 0 scratchSize) s1
  ((s2.queue q).cmds.filter Cmd.live).foldl (fun a x =>
    let c : CmdId := ⟨q, x.id⟩
    if a.colls.any fun k => k.cmd = c then a.raiseAbort c 0x05 st 0 none
    else
      let (no, a1) := a.recordCmdFault c { status := st, mech := 0x01 } engFront none
      ((((a1.updCmd c fun y => { y with faultRef := no, engine := engFront }).scribbleOuts x).dropWaits c).updCmd c fun y =>
        y.finish st a.stamp)) s2

/-- Put one saved tile back. -/
def Tile.restored (x saved : Tile) : Tile :=
  if saved.cmd.isSome then
    { saved.resumed with
      fenced := x.fenced, mechLog := x.mechLog, scrubPos := x.scrubPos, zeroing := x.zeroing, inReset := x.inReset
      dma := { saved.resumed.dma with ops := x.dma.ops ++ saved.dma.ops, handed := x.dma.handed ++ saved.dma.handed
                                      serials := max x.dma.serials saved.dma.serials } }
  else { x with dma := { x.dma with ops := x.dma.ops ++ saved.dma.ops, handed := x.dma.handed ++ saved.dma.handed } }

/-- Reload every context of a queue and free its slots. -/
def State.reloadContexts (s : State) (q : QueueId) : State :=
  allDies.foldl (fun a d => match a.slotOf d q with
    | none => a
    | some (_, k) => k.tiles.foldl (fun b e => match TileId.ofNat? e.1 with
        | none => b
        | some t => b.updTile t fun x => x.restored e.2) a) s |>.dropContexts q

/-- R395: a pre-empted queue goes on. -/
def State.restoreQueue (s : State) (q : QueueId) : State :=
  if s.contextPoisoned q then (s.restoreFails q 0x9003).settle q
  else
    let s1 := ((s.reloadContexts q).acquirePart (s.queuePart q) none).updQueue q fun x => { x with state := qRunning }
    let s2 := (s1.colls.filter fun k => k.cmd.queue = q).foldl (fun a k => (a.liftDamp k.cmd).collSettle k.cmd) s1
    (s2.launchResident q).settle q

/-- R395: once its tiles are free and no queue of higher priority claims them; a lender's queues wait for the return of
every loan (R385, R386). -/
def execQueueRestore (q : QueueId) (s : State) : Out :=
  let ts := s.restoreTiles q
  .next (if (s.queue q).state ≠ qPreempted || s.lending (s.queuePart q) || !s.partAwake (s.queuePart q)
      || !(ts.all fun t => s.tileReady t) || s.outranked q ts then s
    else s.restoreQueue q)

end Sys2Proof.Machine
end

