-- ==== Sys2Proof/Machine/PowerOps.lean ====
section
/-! DEFINITION. Power states: legal moves, refusers, and what an entry and an exit do (R445 to R454;
notes/assumptions/61.md). -/

namespace Sys2Proof.Machine

/-! ## The request (R446, R447) -/

def pwTarget (b : Bytes) : Nat := bits (leNat b) 2 0
/-- The scope's partition; none for module scope. -/
def pwScope (b : Bytes) : Option PartId := if bit (leNat b) 3 then some (PartId.ofNat (bits (leNat b) 6 4)) else none

/-- The dies of a scope: those that the partition owns, or every die that is not marked failed. -/
def State.scopeDies (s : State) (p : Option PartId) : List DieId :=
  match p with
  | some q => s.partDies q
  | none => s.healthyDies

/-- The queues of a scope. -/
def State.scopeQueues (s : State) (p : Option PartId) : List QueueId :=
  match p with
  | some q => s.partQueues q
  | none => s.queues.map fun e => QueueId.ofNat e.1

/-- The state that some dies share; Active where they differ. -/
def State.sharedState (s : State) (ds : List DieId) : BitVec 3 :=
  match ds with
  | [] => 0
  | d :: _ => if ds.all fun e => (s.die e).pstate = (s.die d).pstate then (s.die d).pstate else 0

/-- Whether a move is one of R447's: the dies share a state; a return to Active has the scope of its entry. -/
def State.moveLegal (s : State) (b : Bytes) : Bool :=
  let p := pwScope b
  let ds := s.scopeDies p
  let st := s.sharedState ds
  let target := pwTarget b
  !ds.isEmpty && (ds.all fun d => (s.die d).pstate = st) &&
    (if target = 0 then st ≠ 0 && ds.all fun d => (s.die d).partScope = p.isSome
     else st.toNat < target && (target ≠ 3 || p.isNone))

/-! ## Refusers (R448, R450, R451) -/

/-- Whether a partition request, an entry or a reset is in progress on a scope's dies. -/
def State.reshaping (s : State) (p : Option PartId) (ds : List DieId) : Bool :=
  s.flt.warmCause.isSome || (ds.any fun d => (s.die d).inReset || (mapGet none s.flt.dieCause d.val).isSome)
    || (allTiles.any fun t => ds.contains (dieOf t) && (s.tile t).inReset)
    || s.jobs.any fun j => match j.kind with
      | .lend b => p.all fun q => bits (leNat b) 6 4 = q.val || bits (leNat b) 10 8 = q.val
      | .delete r => p.all fun q => q = r
      | .destroy _ => false
      | .power _ => false

/-- The first condition that refuses a target, by its code; the state after the free choice that code 0x06 takes. -/
def State.refuser (s : State) (b : Bytes) : State × Option Nat :=
  let p := pwScope b
  let target := pwTarget b
  let dorm := target = 3
  let ds := if dorm then allDies else s.scopeDies p
  let qs := if dorm then s.scopeQueues none else s.scopeQueues p
  let (awake, s1) := if dorm then s.drawBit else (false, s)
  let hot := (ds.map dieStacks).flatten.any fun k => 85 * 16 < (s.stack k).temp
  let parts := allParts.filter fun q => (s.part q).exists_ && (dorm || p.all fun r => r = q)
  (s1,
    if qs.any fun q => (s.queue q).state ≠ qIdle && (s.queue q).state ≠ qDisabled then some 0x01
    else if s.colls.any fun k => qs.contains k.cmd.queue then some 0x02
    else if dorm && allPorts.any (fun i => !(s.port i).holds.isEmpty) then some 0x03
    else if target ≠ 1 && hot then some 0x04
    else if ds.any fun d => (s.freeSlots d).length ≠ 3 || (s.loanOf d).isSome then some 0x05
    else if awake then some 0x06
    else if s.capo.sagWarn then some 0x07
    else if s.reshaping p ds then some 0x08
    else if target ≠ 1 && parts.any (fun q => (s.part q).lsState ≠ 0) then some 0x09
    else none)

/-- The answer's payload. -/
def pwAnswer (code : Nat) (aborted : Bool) : Bytes := natLe (packBits [(8, code), (1, bnat aborted)]) 8

/-- A refusal or an abort is counted. -/
def State.countRefusal (s : State) (code : Nat) (aborted : Bool) : State :=
  let n := (mapGet 0 s.pow.counts code).toNat
  { s with pow := { s.pow with counts := mapPut 0 s.pow.counts code (BitVec.ofNat 16 (min (n + 1) 0xFFFF)), last := BitVec.ofNat 8 code, lastAbort := aborted } }

/-! ## Entry and exit (R452, R454) -/

/-- Put dies into Idle-ready or Drowse. -/
def State.enterState (s : State) (p : Option PartId) (target : BitVec 3) (ds : List DieId) : State :=
  let s1 := if target = 2 then ds.foldl (fun a d => (dieStacks d).foldl (fun b k => b.updStack k fun x => { x with selfRefresh := true }) (a.dropCache d)) s else s
  let s2 := ds.foldl (fun a d => (if target = 2 then a.emptyXq (traceXq (logicOfDie d)) else a).updDie d fun x => { x with pstate := target, partScope := p.isSome }) s1
  if target = 2 ∧ p.isNone then { s2 with pow := { s2.pow with portsIdle := true } } else s2

/-- A tile as it comes back from a lost rail (R175, R452). -/
def Tile.repowered (x : Tile) : Tile :=
  ({ ({} : Tile) with fenced := x.fenced, mechLog := x.mechLog, dma := { ({} : Dma) with serials := x.dma.serials } } : Tile).zeroed

/-- Bring dies back to Active; from Drowse their stacks serve again, their tiles are zeroed, their caches acquire. -/
def State.exitState (s : State) (ds : List DieId) : State :=
  let s1 := ds.foldl (fun a d =>
    if (a.die d).pstate = 2 then
      let a1 := (dieStacks d).foldl (fun b k => b.updStack k fun x => { x with selfRefresh := false }) a
      ((dieTiles d).foldl (fun b t => b.updTile t Tile.repowered) a1).acquireWhole d
    else a) s
  let s2 := ds.foldl (fun a d => a.updDie d fun x => { x with pstate := 0, partScope := false }) s1
  { s2 with pow := { s2.pow with portsIdle := s2.pow.portsIdle && (s2.healthyDies.all fun d => (s2.die d).pstate = 2) } }

/-- Free values in every semaphore: what the compute dies held is gone and the manual gives no value (R7, R454). -/
def State.scribbleSems (s : State) : State :=
  { s with sems := (upTo 12288).foldl (fun m i => mapPut 0 m i ((Config.free64 (s.fresh + i)).setWidth 32)) [], fresh := s.fresh + 12288 }

/-- Dormant: the ports go down as peers see them, firmware and the compute dies lose their rails, the detector is armed. -/
def State.goDormant (s : State) : State :=
  let s1 := (s.enterState none 2 s.healthyDies).scribbleSems
  { s1 with
    tiles := s1.tiles.map fun e => (e.1, e.2.repowered)
    fab := { s1.fab with ports := s1.fab.ports.map fun e => (e.1, if e.2.state = 0 || e.2.state = 6 then e.2 else e.2.goDown s1.time), tx := [], rx := [], early := [] }
    boot := { s1.boot with running := false, state := 0, pcieRate := 0 }
    pow := { s1.pow with mode := .dormant, saved := some ⟨s1.tb.value⟩ } }

/-- An entry that has begun ends: at its target, or aborted by a condition that arose since (R450). Dormant's answer
is sent before the rails go. -/
def State.finishEntry (s : State) (w : Option Sender) (b : Bytes) : Ans :=
  let (s1, r) := s.refuser b
  match r with
  | some c =>
    { s := (s1.countRefusal c true).event (srcHub 0) 0x08 c, status := 0x6002, payload := pwAnswer c true }
  | none =>
    if pwTarget b = 3 then { s := (s1.respond w 0 (pwAnswer 0 false)).goDormant, later := true }
    else ansOk (s1.enterState (pwScope b) (BitVec.ofNat 3 (pwTarget b)) (s1.scopeDies (pwScope b))) (pwAnswer 0 false)

/-- Enter power state (R446 to R448). -/
def State.powerRequest (s : State) (w : Sender) (b : Bytes) : Ans :=
  if 3 < pwTarget b || ((pwScope b).isNone && bits (leNat b) 6 4 ≠ 0) then ansFail s 0x1003
  else if !s.moveLegal b then ansFail s 0x1009
  else if pwTarget b = 0 then ansOk (s.exitState (s.scopeDies (pwScope b))) (pwAnswer 0 false)
  else
    match s.refuser b with
    | (s1, some c) => { s := s1.countRefusal c false, status := 0x6001, payload := pwAnswer c false }
    | (s1, none) => { s := { s1 with jobs := s1.jobs ++ [({ sender := some w, kind := .power b } : Job)] }, later := true }

end Sys2Proof.Machine
end

