-- ==== Sys2Proof/Machine/PartFam.lean ====
section
/-! DEFINITION. Partitions: create, lend, return, delete, configure, the end of a context save, and firmware's work
that takes more than one happening (R276, R372, R373, R379 to R390, R398; notes/assumptions/49.md, 50.md). -/

namespace Sys2Proof.Machine

/-! ## Dies in and out of partitions (R175, R383 to R387) -/

/-- Whether a key of the semaphore map, and of the counter map, belongs to a die (R138, R234). -/
def semOf (d : DieId) (k : Nat) : Bool := k / 1024 = d.val
def ctrOf (d : DieId) (k : Nat) : Bool := k / 8192 = d.val

/-- The values of a die's semaphores and of its stacks' counters. -/
def State.dieValues (s : State) (d : DieId) : NMap (BitVec 32) × NMap (BitVec 48) :=
  (s.sems.filter fun e => semOf d e.1, s.ctrs.filter fun e => ctrOf d e.1)

/-- Put values back over a die's semaphores and counters; empty maps zero them. -/
def State.setDieValues (s : State) (d : DieId) (v : NMap (BitVec 32) × NMap (BitVec 48)) : State :=
  { s with sems := v.1.foldl (fun m e => mapInsert m e.1 e.2) (s.sems.filter fun e => !semOf d e.1)
           ctrs := v.2.foldl (fun m e => mapInsert m e.1 e.2) (s.ctrs.filter fun e => !ctrOf d e.1) }

/-- Zero whole lines of a die region, poison included (R383). -/
def State.zeroRegion (s : State) (d : DieId) (off n : Nat) : State :=
  let a := d.val * 2 ^ 38 + off
  { s with mem := mapClear s.mem a n, poison := s.poison.filter fun l => 64 * l < a || a + n ≤ 64 * l }

/-- A tile as it is placed (R175): only what belongs to the hardware itself stays. -/
def Tile.placed (x : Tile) : Tile :=
  ({ ({} : Tile) with fenced := x.fenced, mechLog := x.mechLog, scrubPos := x.scrubPos, inReset := x.inReset
                      dma := { ({} : Dma) with serials := x.dma.serials } } : Tile).zeroed

def State.zeroTiles (s : State) (d : DieId) : State := (dieTiles d).foldl (fun a t => a.updTile t Tile.placed) s

/-- Zero the performance counters of a die and of its tiles (R511). -/
def State.zeroPerf (s : State) (d : DieId) : State :=
  let mine (k : Nat) : Bool := k % 65536 = (srcDie d).toNat || (dieTiles d).any fun t => k % 65536 = (srcTile t).toNat
  { s with tel := { s.tel with perf := s.tel.perf.filter fun e => !mine e.1 } }

/-- Place a die in a partition, with a whole-cache acquire (R383, R385, R386). -/
def State.placeDie (s : State) (d : DieId) (p : Option PartId) : State :=
  ((s.zeroPerf d).acquireWhole d).updDie d fun x => { x with owner := p }

/-- A free die enters a new partition (R383). -/
def State.takeFree (s : State) (p : PartId) (d : DieId) : State :=
  (((((s.dropCache d).zeroRegion d 0 (s.reserveBase d)).zeroTiles d).setDieValues d ([], [])).placeDie d (some p))

/-- A die goes out on loan (R385). -/
def State.lendDie (s : State) (lender borrower : PartId) (g : Nat) (d : DieId) : State :=
  let s1 := { s with loans := s.loans ++ [({ lender := lender, borrower := borrower, die := d, lentGib := g, saved := some (s.dieValues d) } : Loan)] }
  ((((s1.setDieValues d ([], [])).zeroTiles d).zeroRegion d 0 (g * gib)).placeDie d (some borrower))

/-- A lent die goes back (R386); values that a reset discarded come back as zeros (R399). -/
def State.returnDie (s : State) (d : DieId) : State :=
  match s.loanOf d with
  | none => s
  | some l =>
    let s1 := (((s.dropCache d).zeroTiles d).zeroRegion d 0 (l.lentGib * gib)).setDieValues d (l.saved.getD ([], []))
    ({ s1 with loans := s1.loans.filter fun k => k.die ≠ d }).placeDie d (some l.lender)

/-- Return several dies; an event names those whose saved values were gone. -/
def State.returnDies (s : State) (p : PartId) (ds : List DieId) : State :=
  let s0 := (s.partDies p).foldl (fun a d => a.dropCache d) s
  let s1 := ds.foldl (fun a d => a.returnDie d) s0
  let lost := ds.filter fun d => (s.loanOf d).any fun l => l.saved.isNone
  if lost.isEmpty then s1 else s1.event (srcHub 0) 0x0D (bitmap (allDies.map lost.contains))

/-! ## Lock-step pairing (R372, R373) -/

/-- The identity that a partition's firmware sends its peer. -/
def State.lockstepHello (s : State) (p : PartId) : Mgmt :=
  let w := s.part p
  .lockstepIdentity s.fab.modId (BitVec.ofNat 3 p.val) w.ls.peerPart s.boot.fwVersion s.boot.fnTables (s.partDies p).length s.unitDigest

/-- Pairing begins anew. -/
def State.startPairing (s : State) (p : PartId) : State :=
  let w := s.part p
  let s1 := s.setPart p { w with lsState := if w.ls.enable then 1 else 0, local_ := [], peer_ := [], localBlocks := [], diverged := false }
  if w.ls.enable then s1.emit (.mgmt (PortId.ofNat? w.ls.port.toNat) (s1.lockstepHello p)) else s1

/-! ## The partition parameter block (R381, R382) -/

/-- Bits of the block. -/
def pb (b : Bytes) (hi lo : Nat) : Nat := bits (leNat b) hi lo

def pbPart (b : Bytes) : PartId := PartId.ofNat (pb b 6 4)
def pbLender (b : Bytes) : PartId := PartId.ofNat (pb b 10 8)
def pbDies (b : Bytes) : List DieId := allDies.filter fun d => bit (pb b 27 16) d.val
def pbLock (b : Bytes) : LsBlock :=
  { enable := pb b 64 64 = 1, peer := BitVec.ofNat 14 (pb b 85 72), peerPart := BitVec.ofNat 3 (pb b 90 88), port := BitVec.ofNat 6 (pb b 101 96) }

/-- Reserved ranges of the block, those inside the lock-step block included. -/
def pbReserved : List (Nat × Nat) := [(7, 7), (15, 13), (31, 28), (63, 40), (71, 65), (87, 86), (95, 91), (319, 102), (1023, 320)]

/-- Fields that are zero for an op. -/
def pbZeros (b : Bytes) : Bool :=
  let op := pb b 3 0
  let z (used : Bool) (hi lo : Nat) : Bool := used || pb b hi lo = 0
  z (op = 1) 10 8 && z (op = 0 || op = 4) 11 11 && z (op = 0) 12 12 && z (op ≤ 2) 27 16 && z (op = 1) 39 32 && z (op = 0 || op = 4) 319 64

/-- Whether a partition is being deleted. -/
def State.deleting (s : State) (p : PartId) : Bool := s.jobs.any fun j => j.kind = .delete p

/-- Whether a partition exists and is not about to end. -/
def State.standing (s : State) (p : PartId) : Bool := (s.part p).exists_ && !s.deleting p

/-- Whether every die of a block may go from lender to borrower (R384, R396). -/
def State.lendOk (s : State) (b : Bytes) : Bool :=
  let p := pbPart b
  let l := pbLender b
  let ds := pbDies b
  p ≠ l && s.standing l && !s.deleting p
    && (ds.all fun d => (s.die d).owner = some l && (s.loanOf d).isNone)
    && ((s.partDies l).any fun d => !ds.contains d)
    && (s.loans.all fun k => k.borrower ≠ p || k.lender = l)
    && (ds.all fun d => pb b 39 32 ≤ s.usableGib d)

/-- Whether a queue of the borrower has a command in flight on a die, or a context saved there (R386). -/
def State.busyOn (s : State) (p : PartId) (d : DieId) : Bool :=
  (s.partQueues p).any fun q =>
    ((s.contextTiles q).any fun t => dieOf t = d) || (s.slotOf d q).isSome
      || (s.queue q).cmds.any fun c => c.stage ≠ .released && ((c.span.getD []) ++ c.holds).any fun t => dieOf t = d

/-- The state that an op requires of the dies and partitions it names (R382 to R387, R461). -/
def State.blockState (s : State) (b : Bytes) : Bool :=
  let p := pbPart b
  (pb b 3 0 = 4 || (pbDies b ++ s.partDies p ++ (if pb b 3 0 = 1 then s.partDies (pbLender b) else [])).all fun d => (s.die d).pstate = 0) &&
  match pb b 3 0 with
  | 0 => !(s.part p).exists_ && (pbDies b).all fun d => (s.die d).owner = none && !s.dieFailed d
  | 1 => s.lendOk b
  | 2 => (pbDies b).all fun d => ((s.loanOf d).any fun l => l.borrower = p) && !s.busyOn p d
  | 3 => s.standing p && !s.lending p
  | _ => s.standing p

/-- The status of a block's checks (R372, R382, R420); zero where they pass. -/
def State.blockCheck (s : State) (b : Bytes) : BitVec 16 :=
  let op := pb b 3 0
  let n := s.boot.partsInForce.toNat
  if pbReserved.any fun r => pb b r.1 r.2 ≠ 0 then 0x1002
  else if 4 < op || !pbZeros b || n ≤ pb b 6 4 || (op = 1 && n ≤ pb b 10 8) || (op ≤ 2 && (pbDies b).isEmpty) then 0x1003
  else if op = 1 && pb b 39 32 = 0 then 0x1003
  else if (pbLock b).enable && 36 ≤ (pbLock b).port.toNat then 0x1003
  else if (pbLock b).enable && s.licensed 4 = 0 then 0x1105
  else if !s.blockState b then 0x1009
  else 0

/-! ## The operations (R383 to R388) -/

/-- R383. -/
def State.createPart (s : State) (b : Bytes) : State :=
  let p := pbPart b
  let w : Part := { exists_ := true, damp := pb b 11 11 = 1, checked := pb b 12 12 = 1, ls := pbLock b }
  ((pbDies b).foldl (fun a d => a.takeFree p d) (s.setPart p w)).startPairing p

/-- R388. -/
def State.configurePart (s : State) (b : Bytes) : State :=
  (s.updPart (pbPart b) fun w => { w with damp := pb b 11 11 = 1, ls := pbLock b }).startPairing (pbPart b)

/-- R385 step 1: every running queue of the lender is pre-empted; none where a context slot is missing. -/
def State.preemptLender (s : State) (l : PartId) : Option State :=
  if (s.partDies l).any fun d => (s.freeSlots d).isEmpty then none
  else
    ((s.partQueues l).filter fun q => (s.queue q).state = qRunning && (s.queue q).halting.isNone && !(s.queue q).preempting).foldl
      (fun (a : Option State) q => a.bind fun x => if x.slotsFor q then some (x.beginPreempt q) else none) (some s)

/-- Whether the lender's queues have given up what a lend takes. -/
def State.lendReady (s : State) (b : Bytes) : Bool :=
  (s.partQueues (pbLender b)).all fun q =>
    (s.queue q).state ≠ qRunning && !(s.queue q).preempting && !((s.contextTiles q).any fun t => (pbDies b).contains (dieOf t))

/-- R385 steps 2 to 6. -/
def State.finishLend (s : State) (b : Bytes) : State :=
  let p := pbPart b
  let l := pbLender b
  let s0 := if (s.part p).exists_ then s else s.setPart p { exists_ := true }
  let s1 := (s0.partDies l).foldl (fun a d => a.dropCache d) s0
  (((pbDies b).foldl (fun a d => a.lendDie l p (pb b 39 32) d) s1).startPairing l).startPairing p

/-- The partition's own dies go free, once its queues have ended and its borrowed dies have gone back (R387). -/
def State.finishDelete (s : State) (p : PartId) : State :=
  let s1 := s.returnDies p (s.borrowed p)
  let s2 := (s1.partDies p).foldl (fun a d => (a.dropCache d).updDie d fun x => { x with owner := none }) s1
  s2.setPart p {}

/-! ## Work that goes on (R276, R385, R387, R450) -/

/-- One piece of firmware's unfinished work: its state after and its answer, or none while it is not over. -/
def State.workJob (s : State) (j : Job) : Option Ans :=
  match j.kind with
  | .destroy q =>
    if (s.queue q).cfg.isNone then some (ansOk s)
    else if (s.queue q).state = qDestroying ∧ s.queueQuiet q then some (ansOk (s.disableQueue q))
    else none
  | .lend b =>
    if !s.lendReady b then none
    else if s.lendOk b then some (ansOk (s.finishLend b))
    else some (ansFail s 0x1009)
  | .delete p => if (s.partQueues p).isEmpty then some (ansOk (s.finishDelete p)) else none
  | .power b => some (s.finishEntry j.sender b)

/-- Go once through firmware's unfinished work, oldest first. -/
def State.workJobs (s : State) : State :=
  s.jobs.foldl (fun a j =>
    match a.workJob j with
    | none => a
    | some r => ({ r.s with jobs := r.s.jobs.erase j }).respond (if r.later then none else j.sender) r.status r.payload) s

/-- Begin to delete a partition (R387). -/
def State.beginDelete (s : State) (w : Option Sender) (p : PartId) : State :=
  let s1 := (s.partQueues p).foldl (fun a q => a.destroyFor none q) s
  { s1 with jobs := s1.jobs ++ [({ sender := w, kind := .delete p } : Job)] }

/-- A partition request (R381). -/
def State.partRequest (s : State) (w : Sender) (b : Bytes) : Ans :=
  let st := s.blockCheck b
  let p := pbPart b
  if st ≠ 0 then ansFail s st
  else
    match pb b 3 0 with
    | 0 => ansOk (s.createPart b)
    | 1 =>
      match s.preemptLender (pbLender b) with
      | none => ansFail s 0x1009
      | some s1 => { s := ({ s1 with jobs := s1.jobs ++ [({ sender := some w, kind := .lend b } : Job)] }).workJobs, later := true }
    | 2 =>
      let l := ((pbDies b).head?.bind s.loanOf).elim p fun k => k.lender
      let s1 := s.returnDies p (pbDies b)
      if (s1.partDies p).isEmpty then { s := (s1.startPairing l).beginDelete (some w) p |>.workJobs, later := true }
      else ansOk ((s1.startPairing l).startPairing p)
    | 3 => { s := (s.beginDelete (some w) p).workJobs, later := true }
    | _ => ansOk (s.configurePart b)

/-- A partition message of an opcode, which accepts these ops. -/
def partMsg (opcode : Nat) (ops : List Nat) : MsgSpec :=
  { opcode := opcode, bound := 50000000, lenOk := fun n => n = 128
    run := fun s w b => if ops.contains (pb b 3 0) then s.partRequest w b
      else ansFail s (if pbReserved.any fun r => pb b r.1 r.2 ≠ 0 then 0x1002 else 0x1003) }

/-- A partition row: the message of an opcode where the op is this row's, or a partition command of a queue. -/
def State.partRow (s : State) (r : PartSource) (opcode : Nat) (ops : List Nat) (msg : Nat → Bool) (cmd : Except Fail Bytes → Bool) : State :=
  match r with
  | .msg m => s.mailRow (partMsg opcode ops) m (msg (pb m.payload 3 0))
  | .cmd q => s.fwRow q 0x11 128 128 cmd fun s w b => s.partRequest w b

/-- Whether a block read for a command holds an op. -/
def opIs (n : Nat) (b : Except Fail Bytes) : Bool :=
  match b with
  | .ok x => pb x 3 0 = n
  | .error _ => false

/-- R383; a block that cannot be read and an illegal op of a command end here too. -/
def execPartitionCreate (r : PartSource) (s : State) : Out :=
  .next (s.partRow r 0x0300 [0] (fun _ => true) fun b =>
    match b with
    | .ok x => pb x 3 0 = 0 || 4 < pb x 3 0
    | .error _ => true)

/-- R384, R385; an op that 0x0301 does not accept ends here too. -/
def execPartitionLend (r : PartSource) (s : State) : Out :=
  .next (s.partRow r 0x0301 [1, 2, 4] (fun n => n ≠ 2 && n ≠ 4) (opIs 1))

/-- R386. -/
def execPartitionReturn (r : PartSource) (s : State) : Out := .next (s.partRow r 0x0301 [1, 2, 4] (fun n => n = 2) (opIs 2))

/-- R387. -/
def execPartitionDelete (r : PartSource) (s : State) : Out := .next (s.partRow r 0x0302 [3] (fun _ => true) (opIs 3))

/-- R388. -/
def execPartitionConfigure (r : PartSource) (s : State) : Out := .next (s.partRow r 0x0301 [1, 2, 4] (fun n => n = 4) (opIs 4))

/-! ## The end of a context save (R397, R398, R400) -/

/-- R398: with every engine stopped the contexts are saved and the queue is pre-empted; a fault of the queue, or a
completion path that stalled, governs (R400). -/
def execContextSaveDone (q : QueueId) (s : State) : Out :=
  let x := s.queue q
  if !x.preempting then .next s
  else if x.halting.isSome || x.state ≠ qRunning then .next ((s.cancelPreempt q).settle q).workJobs
  else if s.savedReady q then
    .next ((allDies.foldl (fun a d => a.saveDie q d) s).updQueue q fun y => { y with state := qPreempted, preempting := false }).workJobs
  else .next s

end Sys2Proof.Machine
end

