-- ==== Sys2Proof/Machine/MailFam.lean ====
section
/-! DEFINITION. Mailbox messages of the identity, queues, partitions and memory classes (R223, R228, R268, R273,
R276, R292 to R295, R388, R390; notes/assumptions/51.md). -/

namespace Sys2Proof.Machine

/-! ## Identity (R293, R467) -/

/-- The identity payload, for the function that asks. -/
def State.identityBytes (s : State) (f : FnId) : Bytes :=
  natLe (packBits [
    (64, leNat [0x42, 0x53, 0x4C, 0x2D, 0x32, 0x34, 0, 0]), (32, s.boot.fwVersion.toNat), (32, s.boot.fnTables.toNat),
    (14, s.fab.modId.toNat), (2, 0), (8, (partOfFn f).elim 0xFF Fin.val),
    (2, s.boot.portsInForce.toNat / 12 - 1), (1, bnat (8 ≤ s.boot.partsInForce.toNat)), (1, bnat (s.licensed 3 ≠ 0)),
    (1, bnat (s.licensed 4 ≠ 0)), (35, 0), (128, if s.boot.state = 2 ∧ s.boot.reasons.head? = some 0x08 then 0 else s.unitDigest.toNat), (96, bitmap (allTiles.map s.tileAvailable)),
    (24, bitmap (allStacks.map fun k => !(s.stack k).unavailable)),
    (36, bitmap (allPorts.map fun p => (s.port p).state = 2 || (s.port p).state = 3)), (36, 0)]) 64

def specGetIdentity : MsgSpec :=
  { opcode := 0x0100, vf := true, os := true, bound := 1000000, lenOk := fun n => n = 0
    run := fun s w _ => ansOk s (s.identityBytes w.fn) }

def specGetReadiness : MsgSpec :=
  { opcode := 0x0101, os := true, bound := 1000000, lenOk := fun n => n = 0, run := fun s _ _ => ansOk s (slice s.boot.readiness 0 320) }

/-- R293. -/
def execGetIdentity (m : Msg) (s : State) : Out := .next (s.mailRow specGetIdentity m true)
/-- R467. -/
def execGetReadinessRecord (m : Msg) (s : State) : Out := .next (s.mailRow specGetReadiness m true)

/-! ## Queues (R240, R294) -/

/-- The queue configuration record. -/
def queueCfgOf (b : Bytes) : QueueCfg :=
  let v := leNat b
  { partition := PartId.ofNat (bits v 14 12), kernel := bit v 15, priority := BitVec.ofNat 3 (bits v 18 16), persist := bit v 19
    nopre := bit v 20, haltFlag := bit v 21, timeout := BitVec.ofNat 16 (bits v 47 32), flagMask := BitVec.ofNat 16 (bits v 63 48)
    ring := BitVec.ofNat 64 (bits v 127 64), ringLog2 := bits v 132 128, cplLog2 := bits v 137 133
    msix := BitVec.ofNat 11 (bits v 154 144), maxInflight := bits v 172 160, cpl := BitVec.ofNat 64 (bits v 255 192)
    dspill := BitVec.ofNat 64 (bits v 319 256), dspillLen := bits v 383 320, hspill := BitVec.ofNat 64 (bits v 447 384)
    hspillLen := bits v 511 448, pLaunch := BitVec.ofNat 64 (bits v 575 512), pFirst := BitVec.ofNat 7 (bits v 582 576)
    pTiles := BitVec.ofNat 7 (bits v 590 584) }

/-- Whether an address is a reach address of device or host memory, aligned. -/
def ringReach (a : Word) (align : Nat) : Bool :=
  a.toNat % align = 0 &&
  match reachOf a with
  | .ok (.device _) => true
  | .ok (.host _) => true
  | _ => false

/-- The limits of a configuration record (R240). -/
def QueueCfg.limitsOk (c : QueueCfg) : Bool :=
  (if c.timeout = 0 then c.kernel else c.timeout.toNat ≤ 60000) && 6 ≤ c.ringLog2 && c.ringLog2 ≤ 16 && 6 ≤ c.cplLog2 && c.cplLog2 ≤ 16
    && c.ring.toNat % (64 * 2 ^ c.ringLog2) = 0 && 1 ≤ c.maxInflight && c.maxInflight ≤ 4096 && ringReach c.cpl (32 * 2 ^ c.cplLog2)
    && c.dspill.toNat % 4096 = 0 && c.dspillLen % 4096 = 0 && c.hspillLen % 4096 = 0
    && (c.hspill = 0 || c.hspill.toNat / 2 ^ 60 = 4)
    && (!c.persist || (!c.nopre && 1 ≤ c.pTiles.toNat && c.pLaunch.toNat % 64 = 0))

/-- Whether a function may name a vector (R297). -/
def vectorOf (f : FnId) (v : BitVec 11) : Bool := (vectorEntry v.toNat).any fun e => e.1 = f

/-- The checks of a create after its reserved fields: privilege, tiles, limits, objects. -/
def State.createCheck (s : State) (w : Sender) (q : QueueId) (c : QueueCfg) : BitVec 16 :=
  if !w.reaches c.partition || (w.confined.isSome && c.kernel) || !vectorOf w.fn c.msix then 0x1103
  else if c.persist && s.standing c.partition && !s.ownsTiles c.partition c.pFirst.toNat c.pTiles.toNat then 0x1102
  else if !c.limitsOk then 0x1003
  else if !s.standing c.partition || (s.queue q).state ≠ qDisabled then 0x1009
  else 0

/-- A queue is created (R240, R275): idle, with indices zero and the next generation (R411). -/
def State.createQueue (s : State) (w : Sender) (q : QueueId) (c : QueueCfg) : State :=
  s.setQueue q { cfg := some c, state := qIdle, gen := (s.queue q).gen + 1, owner := w.fn }

def specCreateQueue : MsgSpec :=
  { opcode := 0x0200, vf := true, bound := 1000000, lenOk := fun n => n = 128
    reserved := fun _ => [(31, 22), (143, 138), (159, 155), (191, 173), (583, 583), (1023, 591)]
    run := fun s w b =>
      let q := QueueId.ofNat (bits (leNat b) 11 0)
      let c := queueCfgOf b
      let st := s.createCheck w q c
      if st ≠ 0 then ansFail s st else ansOk (s.createQueue w q c) }

/-- A message that names a queue: its sender's reach, the states in which it is legal, and its effect. -/
def queueSpec (opcode bound len : Nat) (rsv : List (Nat × Nat)) (legal : BitVec 3 → Bool)
    (f : State → Sender → QueueId → Bytes → Ans) : MsgSpec :=
  { opcode := opcode, vf := true, bound := bound, lenOk := fun n => n = len, reserved := fun _ => (63, 12) :: rsv
    run := fun s w b =>
      let q := QueueId.ofNat (bits (leNat b) 11 0)
      let x := s.queue q
      if w.confined.isSome && (x.cfg.any fun c => !w.reaches c.partition || c.kernel) then ansFail s 0x1103
      else if !legal x.state then ansFail s 0x1009
      else f s w q b }

/-- R276: answered once the queue is gone. -/
def specDestroyQueue : MsgSpec :=
  queueSpec 0x0201 1700000 8 [] (fun st => st ≠ qDisabled && st ≠ qDestroying) fun s w q _ =>
    { s := (s.destroyFor (some w) q).workJobs, later := true }

/-- R268: the queue goes on at a sequence number from next_pub to tail. -/
def State.resumeQueue (s : State) (q : QueueId) (n : BitVec 32) : State :=
  (s.updQueue q fun x => { x with state := s.enterRunning q, reason := 0, halting := none, head := n
                                  resumeTo := if n = x.nextPub then none else some n }).launchResident q

def specResumeQueue : MsgSpec :=
  queueSpec 0x0202 1000000 16 [(127, 96)] (fun st => st = qHalted) fun s _ q b =>
    let n := BitVec.ofNat 32 (bits (leNat b) 95 64)
    let x := s.queue q
    if (x.tail - x.nextPub).toNat < (n - x.nextPub).toNat then ansFail s 0x1003 else ansOk ((s.resumeQueue q n).settle q)

/-- R268: reason 0x05. -/
def specHaltQueue : MsgSpec :=
  queueSpec 0x0203 1000000 8 [] (fun st => st = qIdle || st = qRunning) fun s _ q _ => ansOk (s.haltQueue q 0x05)

/-- Write the held records of a queue in order, as far as they can be written (R273). -/
def State.writeHeld (s : State) (q : QueueId) (c : QueueCfg) : List Cmd → State
  | [] => s
  | d :: ds =>
    let x := s.queue q
    if x.state = qStalled || !slotFree x c d.seq then s
    else ((s.setQueue q { x with held := x.held.drop 1 }).publishOne q c d.seq d).writeHeld q c ds

/-- R273: the completion path goes on. -/
def State.resumeCompletions (s : State) (q : QueueId) : State :=
  match (s.queue q).cfg with
  | none => s
  | some c =>
    let s1 := s.updQueue q fun x => { x with state := s.enterRunning q, reason := 0 }
    ((s1.writeHeld q c (s1.queue q).held).settle q).launchResident q

def specResumeCompletions : MsgSpec :=
  queueSpec 0x0204 1000000 8 [] (fun st => st = qStalled) fun s _ q _ => ansOk (s.resumeCompletions q)

def execCreateQueue (m : Msg) (s : State) : Out := .next (s.mailRow specCreateQueue m true)
def execDestroyQueue (m : Msg) (s : State) : Out := .next (s.mailRow specDestroyQueue m true)
def execResumeQueue (m : Msg) (s : State) : Out := .next (s.mailRow specResumeQueue m true)
def execHaltQueue (m : Msg) (s : State) : Out := .next (s.mailRow specHaltQueue m true)
def execResumeCompletionPath (m : Msg) (s : State) : Out := .next (s.mailRow specResumeCompletions m true)

/-! ## Partitions (R388, R390) -/

/-- R388. -/
def specSetChecked : MsgSpec :=
  { opcode := 0x0303, bound := 1000000, lenOk := fun n => n = 8, reserved := fun _ => [(7, 3), (63, 9)]
    run := fun s _ b =>
      let p := PartId.ofNat (bits (leNat b) 2 0)
      if !s.standing p then ansFail s 0x1009
      else ansOk (s.updPart p fun x => { x with checked := bit (leNat b) 8 }) }

/-- Usable memory of a partition in GiB (R223, R384). -/
def State.extentGib (s : State) (p : PartId) : Nat :=
  allDies.foldl (fun n d =>
    match s.loanOf d with
    | none => if (s.die d).owner = some p then n + s.usableGib d else n
    | some l => if l.borrower = p then n + l.lentGib else if l.lender = p then n + (s.usableGib d - l.lentGib) else n) 0

/-- The partition configuration record (R390). -/
def State.partRecord (s : State) (p : PartId) : Bytes :=
  let x := s.part p
  if !x.exists_ then natLe 0 32
  else
    let dies (l : List DieId) : Nat := bitmap (allDies.map l.contains)
    natLe (packBits [
      (3, p.val), (1, 1), (12, dies (s.partDies p)), (12, dies (s.lentOut p)), (12, dies (s.borrowed p)),
      (3, ((s.loans.find? fun l => l.borrower = p).map fun l => l.lender.val).getD 0), (1, bnat x.checked), (1, bnat x.damp),
      (7, x.scrub.toNat), (3, x.lsState.toNat), (1, bnat x.divSat), (32, x.divergences.toNat), (12, s.extentGib p),
      (13, ((s.partQueues p).filter fun q => (s.queue q).state = qPreempted).length), (143, 0)]) 32

def specGetPartition : MsgSpec :=
  { opcode := 0x0304, vf := true, bound := 1000000, lenOk := fun n => n = 8, reserved := fun _ => [(63, 3)]
    run := fun s w b =>
      let p := PartId.ofNat (bits (leNat b) 2 0)
      if !w.reaches p then ansFail s 0x1103 else ansOk s (s.partRecord p) }

def execSetCheckedArithmetic (m : Msg) (s : State) : Out := .next (s.mailRow specSetChecked m true)
def execGetPartitionConfiguration (m : Msg) (s : State) : Out := .next (s.mailRow specGetPartition m true)

/-! ## Memory (R295) -/

def specSetRoot : MsgSpec :=
  { opcode := 0x0400, vf := true, bound := 1000000, lenOk := fun n => n = 16, reserved := fun _ => [(63, 3), (127, 106)]
    run := fun s w b =>
      let p := PartId.ofNat (bits (leNat b) 2 0)
      let a := bits (leNat b) 105 64
      if !w.reaches p then ansFail s 0x1103
      else if !s.standing p then ansFail s 0x1009
      else if a % 4096 ≠ 0 then ansFail s 0x1003
      else if !s.inExtent p a 4096 then ansFail s 0x1104
      else ansOk (s.updPart p fun x => { x with root := some (BitVec.ofNat 42 a) }) }

def specSetScrub : MsgSpec :=
  { opcode := 0x0401, bound := 1000000, lenOk := fun n => n = 8, reserved := fun _ => [(7, 3), (63, 16)]
    run := fun s _ b =>
      let p := PartId.ofNat (bits (leNat b) 2 0)
      let h := bits (leNat b) 15 8
      if !s.standing p then ansFail s 0x1009
      else if h = 0 || 72 < h then ansFail s 0x1003
      else ansOk (s.updPart p fun x => { x with scrub := BitVec.ofNat 7 h }) }

/-- Spare rows of a stack left in the pseudo-channel with fewest (R229). -/
def Stack.sparesLeft (x : Stack) : Nat := x.spares.foldl (fun m e => min m (32 - e.2)) 32

/-- The stack health record (R228). -/
def Stack.health (x : Stack) : Bytes :=
  natLe (packBits [
    (32, x.corrected.toNat), (32, x.uncorrected.toNat), (8, min (x.spares.foldl (fun n e => n + e.2) 0) 255), (8, x.sparesLeft),
    (8, x.scrubPasses.toNat), (2, if x.unavailable then 2 else if x.sparesLeft = 0 then 1 else 0), (1, bnat x.cSat), (1, bnat x.uSat),
    (4, 0), (32, x.repairs.toNat)]) 16

def specGetHealth : MsgSpec :=
  { opcode := 0x0402, vf := true, bound := 1000000, lenOk := fun n => n = 8, reserved := fun _ => [(63, 5)]
    run := fun s w b =>
      match StackId.ofNat? (bits (leNat b) 4 0) with
      | none => ansFail s 0x1003
      | some k =>
        if w.confined.isSome && w.confined ≠ s.stackPart k then ansFail s 0x1102 else ansOk s (s.stack k).health }

def specGetCapacities : MsgSpec :=
  { opcode := 0x0403, vf := true, bound := 1000000, lenOk := fun n => n = 0
    run := fun s _ _ => ansOk s (allDies.map fun d => if s.dieFailed d then 0 else BitVec.ofNat 8 (s.usableGib d)) }

def execSetTranslationRoot (m : Msg) (s : State) : Out := .next (s.mailRow specSetRoot m true)
def execSetScrubPeriod (m : Msg) (s : State) : Out := .next (s.mailRow specSetScrub m true)
def execGetStackHealth (m : Msg) (s : State) : Out := .next (s.mailRow specGetHealth m true)
def execGetDieCapacities (m : Msg) (s : State) : Out := .next (s.mailRow specGetCapacities m true)

end Sys2Proof.Machine
end

