-- ==== Sys2Proof/Machine/HostFam.lean ====
section
/-! DEFINITION. The host interface: BAR0 registers, BAR2, ring control, interrupts, resets of the host interface,
the expiry of a mailbox message (R13, R280 to R286, R297 to R301, R408; notes/assumptions/52.md). -/

namespace Sys2Proof.Machine

/-! ## Register access (R13, R15, R281, R282) -/

/-- A 64-bit register after bytes are written at an offset within it. -/
def mergeReg (old o : Nat) (b : Bytes) : Nat := leNat (bytesAt (putBytes (putBytes [] 0 (natLe old 8)) o b) 0 8)

/-- Whether an access of BAR0 is one that it accepts (R282). -/
def accessOk (off n : Nat) : Bool :=
  ((n = 4 || n = 8) && off % n = 0) || (0x10000 ≤ off && off < 0x12000 && 1 ≤ n && off % 64 + n ≤ 64)

/-- The fault record of a failed host access: no queue is involved. -/
def State.hostFault (s : State) (f : FnId) (e : Fail) : State :=
  (s.recordFault
    { kind := 0x01, status := e.status, src := srcHub 0, stack := e.stack, die := e.die, mech := e.mech, addr := e.addr
      part := partOfFn f }).2

/-- R282: all ones as a read, nothing as a write, logged either way. -/
def execBar0InvalidAccess (f : FnId) (write : Bool) (off : BitVec 26) (size : Nat) (s : State) : Out :=
  .next (if !s.bar0Open || accessOk off.toNat size then s
    else (s.updFn f fun x => { x with last := if write then .none else .data (List.replicate size 0xFF) }).hostFault f
      { status := 0x1003, addr := off.setWidth 64 })

/-! ## Interrupts (R298) -/

/-- A vector control word is written: an unmasked pending entry is sent once. -/
def State.setVectorCtl (s : State) (f : FnId) (e : Nat) (x : MsixEntry) : State :=
  if x.pending && !x.ctl.getLsbD 0 then
    let s1 := s.updFn f fun y => { y with msix := mapPut {} y.msix e { x with pending := false } }
    { s1 with msixSent := s1.msixSent ++ [⟨f, e⟩] }
  else s.updFn f fun y => { y with msix := mapPut {} y.msix e x }

/-- R298. -/
def execMsixUnmask (f : FnId) (entry : BitVec 10) (s : State) : Out :=
  .next (if !s.bar0Open || msixEntries f ≤ entry.toNat then s
    else
      let x := mapGet {} (s.fn f).msix entry.toNat
      s.setVectorCtl f entry.toNat { x with ctl := 0 })

/-- R298, R300: a cause that stands and is unmasked now sends entry 1. -/
def execKevMaskWrite (f : FnId) (v : BitVec 64) (s : State) : Out :=
  .next (if !s.bar0Open then s
    else
      let x := s.fn f
      let m := v.setWidth 16
      let s1 := s.setFn f { x with kevMask := m }
      if (x.kevCause &&& (x.kevMask &&& ~~~m).setWidth 8) ≠ 0 then s1.raiseVector f 1 else s1)

/-! ## Ring control (R299) -/

def execRingBaseWrite (f : FnId) (ring : RingId) (v : BitVec 64) (s : State) : Out :=
  .next (if !s.bar0Open || (s.ringOf f ring).enabled then s else s.setRing f ring { s.ringOf f ring with base := v })

/-- The overrun bits that a ring's configuration register has. -/
def cfgClears (f : FnId) (ring : RingId) : BitVec 12 := if f = 0 ∧ ring = .event then 0xE00 else 0x200

/-- R299; bit 11 of the physical function's event ring stands for the trace FIFOs' overrun bits. -/
def execRingCfgWrite (f : FnId) (ring : RingId) (v : BitVec 64) (s : State) : Out :=
  .next (if !s.bar0Open then s
    else
      let r := s.ringOf f ring
      let w := v.setWidth 12
      let clear := w &&& cfgClears f ring
      let size := if r.enabled then r.cfg &&& 0x1F else w &&& 0x1F
      let s1 := s.setRing f ring { r with cfg := size ||| (w &&& 0x100) ||| (r.cfg &&& 0x600 &&& ~~~clear) }
      if clear.getLsbD 11 then { s1 with xqs := s1.xqs.map fun e => if e.1 < eventXq then (e.1, { e.2 with overrun := false }) else e }
      else s1)

def execRingConsWrite (f : FnId) (ring : RingId) (v : BitVec 64) (s : State) : Out :=
  .next (if !s.bar0Open then s else s.setRing f ring { s.ringOf f ring with cons := v.setWidth 32 })

/-! ## Registers with no behaviour of their own (R13) -/

/-- The MSI-X table: 16-byte entries of address, data and vector control (R281). -/
def State.writeMsix (s : State) (f : FnId) (o : Nat) (b : Bytes) : State :=
  let e := o / 16
  let x := mapGet {} (s.fn f).msix e
  if msixEntries f ≤ e then s
  else if o % 16 < 8 then
    s.updFn f fun y => { y with msix := mapPut {} y.msix e { x with addr := BitVec.ofNat 64 (mergeReg x.addr.toNat (o % 8) b) } }
  else
    let v := mergeReg (x.data.toNat + 2 ^ 32 * x.ctl.toNat) (o % 8) b
    s.setVectorCtl f e { x with data := BitVec.ofNat 32 v, ctl := BitVec.ofNat 32 (v / 2 ^ 32 % 2) }

/-- R13: read-only registers ignore the write, and so do those that another command writes. -/
def State.writeBar0 (s : State) (f : FnId) (off : Nat) (b : Bytes) : State :=
  let x := s.fn f
  let ones := leNat b * 2 ^ (8 * (off % 8))
  if off / 8 = 0x100 / 8 then
    let v := mergeReg x.bar2Base.toNat (off % 8) b
    s.setFn f { x with bar2Base := BitVec.ofNat 64 (v / 2 ^ x.bar2Log2.toNat * 2 ^ x.bar2Log2.toNat) }
  else if 0x10000 ≤ off ∧ off < 0x11000 then
    if x.busy then s else s.setFn f { x with req := putBytes x.req (off - 0x10000) b }
  else if off / 8 = 0x12008 / 8 then s.setFn f { x with dbIgnored := x.dbIgnored && !bit ones 2 }
  else if 0x1100000 ≤ off ∧ off < 0x1110000 then s.writeMsix f (off - 0x1100000) b
  else if off / 8 = 0x1200080 / 8 then s.setFn f { x with kevCause := x.kevCause &&& ~~~(BitVec.ofNat 8 ones) }
  else if off / 8 = 0x1300010 / 8 ∧ f = 0 then { s with capo := { s.capo with warnSat := s.capo.warnSat && !bit ones 2 } }
  else s

def execRegisterWrite (f : FnId) (off : BitVec 26) (data : Bytes) (s : State) : Out :=
  .next (if !s.bar0Open || !accessOk off.toNat data.length then s else s.writeBar0 f off.toNat data)

/-! ## BAR2 (R284, R285) -/

/-- The physical pieces of a BAR2 access, by line, each checked: firmware reserves and the aperture fail (R223). -/
def State.bar2Pieces (s : State) (f : FnId) (write : Bool) (a n : Nat) : Except Fail (List (Nat × Nat)) :=
  (lineSpans a n).mapM fun p =>
    let pa : Except Fail Nat := match partOfFn f with
      | none => .ok p.1
      | some q => (if write then s.translateWrite q p.1 else s.translate q p.1).map fun x => x.pa
    match pa with
    | .error e => .error e
    | .ok v =>
      match s.paKind v with
      | .region d o => if s.reserveBase d ≤ o then .error (outsideExtent v) else .ok (v, p.2)
      | .counter _ _ => .ok (v, p.2)
      | .aperture _ => .error { status := if write then 0x1003 else 0x200C, addr := BitVec.ofNat 64 v }
      | .hole => .error (outsideExtent v)

/-- Where a BAR2 access goes; none beyond the window. -/
def State.bar2Addr (s : State) (f : FnId) (off n : Nat) : Option Nat :=
  if off + n ≤ 2 ^ (s.fn f).bar2Log2.toNat then some ((s.fn f).bar2Base.toNat + off) else none

/-- R285: a read, at the stack agent. -/
def execBar2Read (f : FnId) (off : BitVec 42) (n : Nat) (s : State) : Out :=
  if !s.bar0Open then .next s
  else
    match s.bar2Addr f off.toNat n with
    | none => .next (s.updFn f fun x => { x with last := .unsupported })
    | some a =>
      match s.bar2Pieces f false a n with
      | .error _ => .next (s.updFn f fun x => { x with last := .unsupported })
      | .ok ps =>
        match ps.mapM fun p => s.agentRead p.1 p.2 with
        | .ok bs => .next (s.updFn f fun x => { x with last := .data bs.flatten })
        | .error e =>
          if e.status = 0x9003 then
            let (b, s1) := s.drawBytes n
            .next (s1.updFn f fun x => { x with last := .poisoned b })
          else .next (s.updFn f fun x => { x with last := .unsupported })

/-- Write bytes over physical spans, one after another; a counter is never written from here. -/
def State.agentWriteSpans (s : State) : List (Nat × Nat) → Bytes → State × Option Fail
  | [], _ => (s, none)
  | (a, n) :: ps, b =>
    match s.agentWrite false a (b.take n) with
    | (s1, none) => s1.agentWriteSpans ps (b.drop n)
    | (s1, some e) => (s1, some e)

/-- R285: a write, at the stack agent; a failure drops it and is logged. -/
def execBar2Write (f : FnId) (off : BitVec 42) (data : Bytes) (s : State) : Out :=
  if !s.bar0Open then .next s
  else
    match s.bar2Addr f off.toNat data.length with
    | none => .next (s.hostFault f { status := 0x1003, addr := off.setWidth 64 })
    | some a =>
      match s.bar2Pieces f true a data.length with
      | .error e => .next (s.hostFault f e)
      | .ok ps =>
        match s.agentWriteSpans ps data with
        | (s1, none) => .next s1
        | (s1, some e) => .next (s1.hostFault f e)

/-! ## Resets of the host interface (R280, R465) -/

/-- A function's own state at reset; the count of its messages goes on. -/
def Fn.cleared (x : Fn) : Fn := { serial := x.serial }

/-- Every queue of some partitions begins to end. -/
def State.destroyAll (s : State) (mine : PartId → Bool) : State :=
  ((allParts.filter mine).foldl (fun a p => (a.partQueues p).foldl (fun b q => b.destroyFor none q) a) s).workJobs

/-- Reset of the whole host interface. -/
def State.resetHost (s : State) : State :=
  allFns.foldl (fun a f => a.updFn f Fn.cleared) (s.destroyAll fun _ => true)

def execFlrPhysicalFunction (s : State) : Out := .next (if s.bar0Open then s.resetHost else s)

def execFlrVirtualFunction (v : PartId) (s : State) : Out :=
  .next (if s.bar0Open then (s.destroyAll fun p => p = v).updFn (vfOf v) Fn.cleared else s)

def execPerstNAssert (s : State) : Out :=
  .next (if s.pow.perstN then
      let s1 := { s with pow := { s.pow with perstN := false, perstLatched := s.pow.perstLatched || s.pow.mode = .dormant }
                         boot := { s.boot with partsInForce := if s.pow.mode = .powered then BitVec.ofNat 8 (partsOf (s.licensed 2)) else s.boot.partsInForce } }
      if s.pow.mode = .powered && s.boot.running then s1.resetHost else s1
    else s)

/-- R465: the link trains once PERST_N is high. -/
def execPerstNDeassert (s : State) : Out := .next { s with pow := { s.pow with perstN := true } }

end Sys2Proof.Machine
end

