-- ==== Sys2Proof/Machine/DmaFam.lean ====
section
/-! DEFINITION. The DMA engine's commands: descriptors beginning and segments completing (R179 to R186, R193,
R252). -/

namespace Sys2Proof.Machine

/-! ## The next descriptor (R179, R252) -/

/-- A descriptor that may begin: who handed it over, its ordinal, and its bytes or why they cannot be read. -/
structure NextDesc where
  issue : Option Issue
  cmd : Option CmdId
  ordinal : Nat
  bytes : Except Fail Bytes

/-- The descriptor that begins next: the head of the DMA queue where it may begin, else the first that a dma
command handed over (notes/assumptions/40.md). -/
def State.nextDesc (s : State) (t : TileId) : Option NextDesc :=
  let x := s.tile t
  if x.zeroing || x.inReset || 64 ≤ x.dma.ops.length then none
  else
    match x.dq with
    | i :: _ =>
      if x.inService && !s.tileStopping t && x.eventReady .dma i then
        some ⟨some i, none, x.dma.ordinals,
          if i.arg.toNat % 128 ≠ 0 then .error { status := 0x1003, addr := i.arg } else x.scratchRead i.arg.toNat 128⟩
      else handed x
    | [] => handed x
where
  handed (x : Tile) : Option NextDesc :=
    match x.dma.handed.find? fun h => !s.holderStops (some h.1) with
    | none => none
    | some (c, a, n) => some ⟨none, some c, n, s.vread (s.queuePart c.queue) a.toNat 128⟩

/-- A descriptor leaves its queue. -/
def State.takeDesc (s : State) (t : TileId) (n : NextDesc) : State :=
  match n.issue with
  | some i => (s.leaveQueue t .dma i).updTile t fun x => { x with dma := { x.dma with ordinals := x.dma.ordinals + 1 } }
  | none => s.updTile t fun x =>
    { x with dma := { x.dma with handed := x.dma.handed.filter fun h => !(some h.1 = n.cmd && h.2.2 = n.ordinal) } }

/-- Read the tensor descriptor a DMA descriptor names; none for address 0 (R183). -/
def State.dmaTensor (s : State) (t : TileId) (a : Word) : Except Fail (Option Tensor) :=
  if a = 0 then .ok none
  else (s.readTensor (dieOf t) ((s.tilePart t).getD 0) a).map some

/-- The command of a descriptor names its destination (R85). -/
def State.nameDescDest (s : State) (t : TileId) (c : Option CmdId) (a : Word) : State :=
  match c with
  | none => s.nameDest t a
  | some k => s.updCmd k fun x => if a = 0 ∨ x.dests.contains a then x else { x with dests := a :: x.dests }

/-- Begin a checked descriptor: remote segments start at once, local ones complete one by one (R193). -/
def State.beginDesc (s : State) (t : TileId) (n : NextDesc) (b : Bytes) : State :=
  let d := dmaDescOf b
  match dmaCheck b d with
  | some st => s.failDesc t n.cmd { status := st, addr := d.dst }
  | none =>
    match s.dmaTensor t d.tdescSrc, s.dmaTensor t d.tdescDst with
    | .error e, _ => s.failDesc t n.cmd e
    | _, .error e => s.failDesc t n.cmd e
    | .ok ts, .ok td =>
      let serial := (s.tile t).dma.serials
      let o : DmaOp :=
        { desc := d, cmd := n.cmd, pc := (n.issue.map fun i => i.pc).getD 0, word := (n.issue.map fun i => i.word).getD 0
          next := 0, segs := d.segCount, sent := [], ordinal := n.ordinal, serial := serial
          srcBase := ts.elim 0 fun x => x.fretBase, dstBase := td.elim 0 fun x => x.fretBase, id := td.elim 0 fun x => x.id
          got := [], due := [], ceiling := 0, failed := false }
      ((s.nameDescDest t n.cmd d.tdescDst).updTile t fun x =>
        { x with dma := { x.dma with ops := x.dma.ops ++ [o], serials := serial + 1 } }).pumpDma t 16

/-- The kind of a descriptor; one that cannot be read, or that names no kind, counts as a copy. -/
def NextDesc.kind (n : NextDesc) : Nat :=
  match n.bytes with
  | .error _ => 0
  | .ok b => if bits (leNat b) 131 128 ≤ 2 then bits (leNat b) 131 128 else 0

/-- A descriptor of one kind begins, or fails its checks. -/
def State.dmaBegin (s : State) (t : TileId) (kind : Nat) : State :=
  match s.nextDesc t with
  | none => s
  | some n =>
    if n.kind ≠ kind then s
    else
      let s1 := s.takeDesc t n
      match n.bytes with
      | .error e => s1.failDesc t n.cmd e
      | .ok b => s1.beginDesc t n b

/-- R182 copy. -/
def execDmaCopy (t : TileId) (s : State) : Out := .next (s.dmaBegin t 0)
/-- R182 gather. -/
def execDmaGather (t : TileId) (s : State) : Out := .next (s.dmaBegin t 1)
/-- R182 scatter. -/
def execDmaScatter (t : TileId) (s : State) : Out := .next (s.dmaBegin t 2)

/-! ## Segments (R184, R193) -/

/-- The next segment of the i-th outstanding descriptor completes. Segments with a remote side complete when
their packets are answered (R184). -/
def State.segmentComplete (s : State) (t : TileId) (i : Nat) : State :=
  let x := s.tile t
  match x.dma.ops[i]? with
  | none => s
  | some o =>
    if o.remote || o.segs ≤ o.next || s.opStopping t o || x.inReset || x.zeroing then s
    else
      match segOf x o.desc o.next with
      | .error e => s.failOp t o e
      | .ok g => s.localSeg t o o.next g

def execSegmentComplete (t : TileId) (i : Nat) (s : State) : Out := .next (s.segmentComplete t i)

end Sys2Proof.Machine
end

