-- ==== Sys2Proof/Machine/FabricFam.lean ====
section
/-! DEFINITION. Packets that arrive for this module or pass through it, and the source's side of reliable delivery
(R214, R315 to R317, R320, R323, R324, R332; notes/assumptions/41.md, 54.md). -/

namespace Sys2Proof.Machine

/-- A routing or port event in the fault ring (R315, R322, R410). -/
def State.portRecord (s : State) (p : Option PortId) (st : BitVec 16) (addr : BitVec 64) : State :=
  (s.recordFault { kind := 0x08, status := st, engine := engLink, src := p.elim (srcHub 0) srcPort, port := p, addr := addr }).2

/-! ## Through traffic (R315, R320) -/

/-- Types of R315 that a link die passes on. -/
def typeKnown (t : BitVec 5) : Bool := [0x00, 0x01, 0x02, 0x03, 0x04, 0x05, 0x06, 0x08, 0x09, 0x10].contains t.toNat

/-- Whether a packet's channel is one whose packets are refused rather than dropped. -/
def refusable (k : Packet) : Bool := k.vc = 0 || k.vc = 2

/-- A packet that passes through: ttl, then the routing table. -/
def State.through (s : State) (p : PortId) (k : Packet) : State :=
  if !typeKnown k.type then (if k.type = 0x1F then s else s.portRecord (some p) 0x1001 (k.dst.setWidth 64))
  else if k.ttl.toNat ≤ 1 then
    let s1 := s.portRecord (some p) 0x5001 (k.dst.setWidth 64)
    if refusable k then s1.refuse k 0x07 else s1
  else
    match s.route (some p) { k with ttl := k.ttl - 1 } with
    | (s1, .ok o) => s1.perfAdd (srcPort o) 0x02 1
    | (s1, .error r) => if refusable k then s1.refuse k r else s1

def execRouteThrough (p : PortId) (k : Packet) (s : State) : Out :=
  .next (if !s.fabricUp || s.boot.state = 2 || !(s.port p).up || k.dst = s.fab.modId then s else s.through p k)

/-! ## Remote writes (R214, R323) -/

/-- Whether a stack takes no requests now. -/
def State.stackFenced (s : State) (k : StackId) : Bool :=
  let d := s.die (stackDie k)
  (s.stack k).unavailable || (s.stack k).selfRefresh || d.fenced || d.inReset

/-- Where the lines of a remote access lie; the refusal's reason where one cannot be reached (R214, R317). -/
def State.remotePieces (s : State) (p : PartId) (write : Bool) (va n : Nat) : Except (BitVec 8) (List (Nat × Nat)) :=
  (lineSpans va n).mapM fun l =>
    match (if write then s.translateWrite p l.1 else s.translate p l.1) with
    | .error _ => .error 0x03
    | .ok x =>
      if write && !x.remote then .error 0x03
      else
        match s.paKind x.pa with
        | .region d o => if s.stackFenced (s.stackOf d o) then .error 0x05 else .ok (x.pa, l.2)
        | .counter k _ => if write then .error 0x04 else if s.stackFenced k then .error 0x05 else .ok (x.pa, l.2)
        | _ => .error 0x04

/-- Commit the lines of a remote write; all of them, or none where a partly written line is poisoned. -/
def State.commitPieces (s : State) (ps : List (Nat × Nat)) (b : Bytes) : Option State :=
  if ps.any fun p => p.2 ≠ 64 && s.poison.contains (p.1 / 64) then none
  else some (ps.foldl (fun (a : State × Bytes) p => ((a.1.agentWrite false p.1 (a.2.take p.2)).1, a.2.drop p.2)) (s, b)).1

/-- What a write packet does once it is new: the refusal's reason, or the state with its bytes committed and counted. -/
def State.commitWrite (s : State) (k : Packet) : Except (BitVec 8) State :=
  match (StackId.ofNat? (k.ctr.toNat / 4096)).filter fun _ => k.ctrValid with
  | none => .error 0x04
  | some st =>
    match s.stackPart st with
    | none => .error 0x04
    | some p =>
      if s.stackFenced st then .error 0x05
      else
        match s.remotePieces p true k.addr.toNat k.data.length with
        | .error r => .error r
        | .ok ps =>
          match s.commitPieces ps k.data with
          | none => .error 0x09
          | some s1 =>
            let c : BitVec 12 := k.ctr.setWidth 12
            .ok ((s1.writeCounter st c (s1.ctr st c + BitVec.ofNat 48 k.data.length)).perfAdd (srcStack st) 0x03 k.data.length)

/-- R323: acknowledged after commit and counting; a refusal that the source retransmits leaves the number unseen. -/
def execWritePacket (k : Packet) (s : State) : Out :=
  if k.type ≠ ptWrite then .next s
  else
    match s.receive k with
    | (s1, false) => .next s1
    | (s1, true) =>
      match s1.commitWrite k with
      | .ok s2 => .next (s2.ackPacket k)
      | .error r => .next (if r = 0x05 then s.refuse k r else s1.refuse k r)

/-! ## Remote reads (R324) -/

/-- The answer to a read request, or the refusal's reason. -/
def State.readFor (s : State) (k : Packet) : Except (BitVec 8) Bytes :=
  let p := PartId.ofNat k.srcPart.toNat
  if !(s.part p).exists_ || k.len = 0 || 4096 < k.len.toNat then .error 0x04
  else
    match s.remotePieces p false k.addr.toNat k.len.toNat with
    | .error r => .error r
    | .ok ps =>
      match ps.mapM fun q => s.agentRead q.1 q.2 with
      | .ok bs => .ok bs.flatten
      | .error e => .error (if e.status = 0x9003 then 0x09 else 0x04)

/-- R324: a request that was answered before is answered again. -/
def execReadRequest (k : Packet) (s : State) : Out :=
  if k.type ≠ ptReadReq then .next s
  else
    let again := s.fabricUp && k.dst = s.fab.modId && !s.fabricClosed && packetCrc k = k.crc && s.seen k.src k.vc k.seq = .duplicate
    let (s1, fresh) := if again then (s, true) else s.receive k
    if !fresh then .next s1
    else
      match s.readFor k with
      | .ok b => .next (s1.answer { s1.newPacket k.src 1 ptReadData (PartId.ofNat k.srcPart.toNat) b with
          seq := k.seq, tag := k.tag, addr := k.addr })
      | .error r => .next (if r = 0x05 then s.refuse k r else s1.refuse k r)

/-! ## The source: answers (R316, R317, R324) -/

/-- The channel that a tag names. -/
def tagVc (tag : BitVec 16) : BitVec 3 := if tag.getLsbD 15 then 2 else 0

/-- The window that an answer belongs to: the answering module's, else the first that holds such a packet, since a
module on the way may have refused it. -/
def State.answered (s : State) (k : Packet) : Option (TxWin × Unacked) :=
  let vc := tagVc k.tag
  let find (w : TxWin) : Option (TxWin × Unacked) := if w.vc ≠ vc then none
    else (w.unacked.find? fun u => u.pkt.tag = k.tag && (k.type = ptReadData || u.pkt.seq = k.seq)).map fun u => (w, u)
  match (s.txWin? k.src vc).bind find with
  | some r => some r
  | none => s.fab.tx.findSome? find

/-- A packet leaves its window. -/
def State.dropUnacked (s : State) (w : TxWin) (u : Unacked) : State :=
  let x := s.txWin w.dst w.vc
  s.setTxWin { x with unacked := x.unacked.filter fun y => y.pkt.seq ≠ u.pkt.seq }

/-- One packet of a segment has been answered; the last lets the segment go on. -/
def State.segAnswered (s : State) (r : SegRef) : State :=
  match (s.tile r.tile).op? r.serial with
  | none => s
  | some o =>
    let n := mapGet 0 o.due r.seg - 1
    let s1 := s.updOp r.tile r.serial fun p => { p with due := mapPut 0 p.due r.seg n }
    if n ≠ 0 then s1 else s1.segDone r.tile r.serial r.seg

/-- The reads of a segment are all in: its writes go out. -/
def State.segRead (s : State) (r : SegRef) : State :=
  match (s.tile r.tile).op? r.serial with
  | none => s
  | some o =>
    let n := mapGet 0 o.due r.seg - 1
    let s1 := s.updOp r.tile r.serial fun p => { p with due := mapPut 0 p.due r.seg n }
    if n ≠ 0 then s1
    else
      match (s1.tile r.tile).op? r.serial, segOf (s1.tile r.tile) o.desc r.seg with
      | some o1, .ok g => s1.segSend r.tile o1 r.seg g
      | some o1, .error e => s1.failOp r.tile o1 e
      | none, _ => s1

/-- What waits behind an answered packet goes on. -/
def State.pumpAfter (s : State) (w : TxWin) (r : Option SegRef) : State :=
  let s1 := s.pumpWindow w.dst w.vc 1024
  r.elim s1 fun x => s1.pumpDma x.tile 16

/-- Whether an answer arrives at its source whole. -/
def State.answerHere (s : State) (k : Packet) (type : BitVec 5) : Bool :=
  s.fabricUp && k.type = type && k.dst = s.fab.modId && packetCrc k = k.crc

/-- R316. -/
def execWriteAcknowledgement (k : Packet) (s : State) : Out :=
  if !s.answerHere k ptAck then .next s
  else
    match s.answered k with
    | none => .next s
    | some (w, u) =>
      if u.pkt.type = ptReadReq then .next s
      else .next ((u.seg.elim (s.dropUnacked w u) fun r => (s.dropUnacked w u).segAnswered r).pumpAfter w u.seg)

/-- R324: read data fills its place; the last byte completes the request. -/
def execReadData (k : Packet) (s : State) : Out :=
  if !s.answerHere k ptReadData then .next s
  else
    match s.answered k with
    | none => .next s
    | some (w, u) =>
      match u.seg with
      | none => .next s
      | some r =>
        let off := r.off + (k.addr - u.pkt.addr).toNat
        let s1 := s.updOp r.tile r.serial fun o => { o with got := putBytes o.got (gotKey r.seg off) k.data }
        if k.data.length < u.left then
          let x := s1.txWin w.dst w.vc
          .next (s1.setTxWin { x with unacked := x.unacked.map fun y =>
            if y.pkt.seq = u.pkt.seq then { y with left := y.left - k.data.length } else y })
        else .next (((s1.dropUnacked w u).segRead r).pumpAfter w u.seg)

/-! ## The source: failures (R186, R316, R317, R350) -/

/-- The member of a collective on a module. -/
def Coll.memberOn (k : Coll) (m : BitVec 14) : Option Nat := k.members.findIdx? fun x => x.1 = m

/-- A packet of this module fails: its descriptor fails with the status, its collective has lost a member. -/
def State.failPacket (s : State) (u : Unacked) (st : BitVec 16) : State :=
  match u.seg with
  | some r =>
    match (s.tile r.tile).op? r.serial with
    | none => s
    | some o => s.failOp r.tile o { status := st, addr := u.pkt.addr.setWidth 64 }
  | none =>
    match s.colls.find? fun c => c.idsMatch u.pkt with
    | none => s
    | some c => s.raiseAbort c.cmd 0x03 st 0 (c.memberOn u.pkt.dst)

/-- Send a packet again, by the routes in force; an unreachable destination fails it at once (R316, R317). -/
def State.retransmit (s : State) (w : TxWin) (u : Unacked) : State :=
  if u.pkt.dst ≠ s.fab.modId ∧ s.routeOf u.pkt.dst = 7 then ((s.dropUnacked w u).failPacket u 0x5001).pumpAfter w u.seg
  else
    let u1 := { u with pkt := { u.pkt with tries := if u.pkt.tries = 3 then 3 else u.pkt.tries + 1 }, lastSent := s.time, interval := 2 * u.interval }
    let x := s.txWin w.dst w.vc
    let s1 := s.setTxWin { x with unacked := x.unacked.map fun y => if y.pkt.seq = u.pkt.seq then u1 else y }
    if u.pkt.dst = s.fab.modId then s1.transmit u1.pkt
    else
      match s1.route none (sealPacket u1.pkt) with
      | (s2, .ok p) => s2.perfAdd (srcPort p) 0x03 1
      | (s2, .error _) => s2

/-- R317. -/
def execRefusal (k : Packet) (s : State) : Out :=
  if !s.answerHere k ptRefusal then .next s
  else
    match s.answered k with
    | none => .next s
    | some (w, u) =>
      let fail (st : BitVec 16) : State := ((s.dropUnacked w u).failPacket u st).pumpAfter w u.seg
      match k.addr.toNat % 256 with
      | 0x01 => .next (fail 0x5001)
      | 0x03 | 0x04 => .next (fail 0x2008)
      | 0x06 => .next (s.retransmit w u)
      | 0x07 => .next (s.portRecord none 0x5001 (u.pkt.dst.setWidth 64))
      | 0x09 => .next (fail 0x900D)
      | 0x0A =>
        if w.resync.isSome then .next s
        else .next (s.resync w ((w.unacked.head?.map fun y => y.pkt.seq).getD w.next))
      | _ => .next s

/-- R316: the timer of one packet. -/
def execRetransmissionTimer (dst : BitVec 14) (vc : BitVec 3) (seq : BitVec 24) (s : State) : Out :=
  match s.txWin? dst vc with
  | none => .next s
  | some w =>
    match w.unacked.find? fun u => u.pkt.seq = seq with
    | none => .next s
    | some u =>
      .next (if w.resync.isSome || s.time < u.lastSent + u.interval || u.firstSent + 30000000 ≤ s.time then s else s.retransmit w u)

/-- R316: at 30 ms the packet is abandoned; what its window still holds lies below the new base and fails with it. -/
def execPacketAbandon (dst : BitVec 14) (vc : BitVec 3) (seq : BitVec 24) (s : State) : Out :=
  match s.txWin? dst vc with
  | none => .next s
  | some w =>
    match w.unacked.find? fun u => u.pkt.seq = seq with
    | none => .next s
    | some u =>
      if s.time < u.firstSent + 30000000 then .next s
      else
        let base := w.next - 1 + BitVec.ofNat 24 (2 ^ 20)
        let s1 := s.resync { w with unacked := [], waiting := [], next := base } base
        .next ((w.unacked ++ w.waiting).foldl (fun a y => a.failPacket y 0x5002) s1)

/-! ## Resynchronisation (R316) -/

/-- R316: a new window at the destination, which answers; the packet's number is the base, its tag the channel. -/
def execResynchronise (k : Packet) (s : State) : Out :=
  .next (if !s.answerHere k 0x05 || s.boot.state = 2 then s
    else
      let vc : BitVec 3 := k.tag.setWidth 3
      (s.setRxWin ⟨k.src, vc, k.seq, []⟩).emit (.resyncAck k.src vc k.seq))

/-- R316: the source goes on from the base. -/
def execResynchroniseAcknowledgement (k : Packet) (s : State) : Out :=
  if !s.answerHere k 0x06 then .next s
  else
    match s.txWin? k.src (k.tag.setWidth 3) with
    | none => .next s
    | some w =>
      if !(w.resync.any fun r => r.1 = k.seq) then .next s
      else
        let s1 := s.setTxWin { w with resync := none, synced := true }
        .next (w.unacked.foldl (fun a u => a.retransmit w u) s1 |>.pumpWindow w.dst w.vc 1024)

/-- R316: every 10 ms. -/
def execResynchronisationRepeat (dst : BitVec 14) (vc : BitVec 3) (s : State) : Out :=
  match s.txWin? dst vc with
  | none => .next s
  | some w =>
    match w.resync with
    | none => .next s
    | some (b, t) => .next (if !s.fabricUp || s.time < t + 10000000 then s else s.resync w b)

end Sys2Proof.Machine
end

