-- ==== Sys2Proof/Machine/LinkFam.lean ====
section
/-! DEFINITION. Ports and lanes, the link layer, the routing table and the wiring plan, the management channel, holds,
and the system timebase (R306 to R314, R318 to R322, R325 to R331, R373, R449, R460; notes/assumptions/53.md,
55.md, 56.md). -/

namespace Sys2Proof.Machine

/-! ## The timebase's root and parent (R329) -/

/-- The modules that the plan and the routing table reach, this one included, rising. -/
def State.reachable (s : State) : List Nat := (s.fab.table.filter fun e => e.2 ≠ 7).map Prod.fst

/-- The root: the module last named, or the lowest one reachable. -/
def State.chooseRoot (s : State) : BitVec 14 :=
  s.tb.named.getD (BitVec.ofNat 14 (min s.fab.modId.toNat (s.reachable.head?.getD s.fab.modId.toNat)))

/-- The port towards the root: the lowest-numbered eligible one of its direction. -/
def State.parentPort (s : State) (root : BitVec 14) : Option PortId := (s.eligible (s.routeOf root)).head?

/-- The timebase takes its root and its parent from the table in force; a lost parent is holdover (R329, R330). -/
def State.retime (s : State) : State :=
  let root := s.chooseRoot
  let par := s.parentPort root
  let t := s.tb
  if root = s.fab.modId ∧ (s.fab.plan.isSome ∨ t.named.isSome) then
    { s with tb := { t with state := 2, root := root, parent := none, offset := 0, ratePpm := 0, holdUntil := none, goodSince := none } }
  else if s.fab.plan.isNone then { s with tb := { t with state := 0, root := root, parent := none, goodSince := none } }
  else if par.isNone then { s with tb := { t with state := 3, root := root, parent := none, goodSince := none } }
  else if par = t.parent ∧ root = t.root then s
  else { s with tb := { t with state := if t.state = 3 then 3 else 0, root := root, parent := par, parentGood := false, goodSince := none } }

/-- The parent is lost (R330). -/
def State.holdover (s : State) : State :=
  if s.tb.state = 2 then s else { s with tb := { s.tb with state := 3, parent := none, parentGood := false, goodSince := none } }

/-! ## Routes (R319, R322) -/

/-- A neighbour's coordinate along a dimension. -/
def neighbourCoord (size c : Nat) (plus : Bool) : Nat := if plus then (c + 1) % size else (c + size - 1) % size

/-- A module identifier from its coordinates (R318). -/
def moduleAt (x y z : Nat) : BitVec 14 := BitVec.ofNat 14 (x + 32 * y + 1024 * z)

/-- The neighbour in a direction (R306). -/
def State.neighbour (s : State) (p : Plan) (dir : Nat) : BitVec 14 :=
  let c (d : Nat) : Nat :=
    if dir / 2 = d then neighbourCoord (p.size d) (coordOf s.fab.modId d) (dir % 2 = 0) else coordOf s.fab.modId d
  moduleAt (c 0) (c 1) (c 2)

/-- Whether a port's peer is the one its cabling promises. -/
def State.peerFits (s : State) (p : Plan) (i : PortId) : Bool :=
  let x := s.port i
  x.peer = s.neighbour p (i.val % 6) && x.peerPort.toNat = (otherEnd i).val

/-- Lane pairs that pass on a port. -/
def Port.passing (x : Port) : Nat := 9 - ((upTo 9).filter fun i => x.failedLanes.getLsbD i).length

/-- A port's place in routes and whether it is miswired, after its peer or the plan changed (R322). -/
def State.checkPort (s : State) (i : PortId) : State :=
  let x := s.port i
  match s.fab.plan with
  | none => s.setPort i { x with inRoutes := false, state := if x.state = 5 then (if 8 ≤ x.passing then 2 else 3) else x.state }
  | some p =>
    if !(x.up || x.state = 5) || !x.peerValid then s.setPort i { x with inRoutes := false }
    else if !p.connected.getLsbD i.val then s.setPort i { x with inRoutes := false }
    else if s.peerFits p i then
      s.setPort i { x with inRoutes := true, state := if x.state = 5 then (if 8 ≤ x.passing then 2 else 3) else x.state }
    else if x.state = 5 then s
    else (s.setPort i { x with state := 5, inRoutes := false }).portRecord (some i) 0x5001 (x.peer.setWidth 64)

/-- The direction by dimension order (R319): fewer hops, + on a tie. -/
def dimensionOrder (p : Plan) (src dst : BitVec 14) : Nat :=
  match [0, 1, 2].find? fun d => coordOf src d ≠ coordOf dst d with
  | none => 6
  | some d =>
    let n := p.size d
    let up := (coordOf dst d + n - coordOf src d) % n
    if 2 * up ≤ n then 2 * d else 2 * d + 1

/-- The entry of one module: local, firmware's choice of a detour, or the direction by dimension order; unreachable
where no port in routes serves it (R320, R322). -/
def State.tableEntry (s : State) (p : Plan) (detours : List (BitVec 14 × BitVec 3)) (m : BitVec 14) : Nat :=
  if m = s.fab.modId then 6
  else
    let dir := ((detours.find? fun e => e.1 = m).map fun e => e.2.toNat).getD (dimensionOrder p s.fab.modId m)
    if dir < 6 && !(s.eligible dir).isEmpty then dir else 7

/-- Every module of a plan, rising. -/
def Plan.modules (p : Plan) : List (BitVec 14) :=
  ((upTo 16384).filter fun i => bits i 4 0 ≤ p.sx.toNat && bits i 9 5 ≤ p.sy.toNat && bits i 13 10 ≤ p.sz.toNat).map (BitVec.ofNat 14)

/-- Holds of peers that the table marks unreachable lapse (R449). -/
def State.lapseHolds (s : State) : State :=
  allPorts.foldl (fun a i => a.updPort i fun x => { x with holds := x.holds.filter fun h => a.routeOf h.peer ≠ 7 }) s

/-- Collectives with a member that the table marks unreachable abort (R350). -/
def State.loseMembers (s : State) : State :=
  s.colls.foldl (fun a k =>
    match k.members.find? fun m => m.1 ≠ a.fab.modId && a.routeOf m.1 = 7 with
    | none => a
    | some m => a.raiseAbort k.cmd 0x03 0x5001 0 (k.memberOn m.1)) s

/-- Firmware builds and loads a table (R322). -/
def State.loadTable (s : State) (detours : List (BitVec 14 × BitVec 3)) : State :=
  let s1 := allPorts.foldl (fun a i => a.checkPort i) s
  let t : NMap Byte := match s1.fab.plan with
    | none => []
    | some p => p.modules.filterMap fun m =>
        let e := s1.tableEntry p detours m
        if e = 7 then none else some (m.toNat, BitVec.ofNat 8 e)
  ({ s1 with fab := { s1.fab with table := t } }).lapseHolds.loseMembers.retime

/-- R322. -/
def execRoutingTableLoad (detours : List (BitVec 14 × BitVec 3)) (s : State) : Out :=
  .next (if !s.fabricUp || !s.boot.running || s.boot.state = 2 || s.fab.plan.isNone then s else s.loadTable detours)

/-! ## Ports (R308 to R310, R313, R322, R460) -/

/-- Firmware tells the modules around that a port came up or went down (R322). -/
def State.tellPort (s : State) (i : PortId) (up : Bool) : State :=
  s.emit (.mgmt none (.portState s.fab.modId (BitVec.ofNat 6 i.val) up))

/-- A port goes down (R310, R312, R330). -/
def State.portDown (s : State) (i : PortId) : State :=
  let s1 := (s.updPort i fun x => x.goDown s.time).tellPort i false
  if s.tb.parent = some i then s1.holdover else s1

/-- What three module starts in a row show of a port (R310): lanes that failed, and the port down. -/
def State.countStart (s : State) (i : PortId) (pass : List Nat) (down : Bool) : State :=
  let x := s.port i
  let fails := (upTo 9).filterMap fun l =>
    let n := if pass.contains l then 0 else mapGet 0 x.laneFails l + 1
    if n = 0 then none else some (l, n)
  let s1 := s.setPort i { x with laneFails := fails, downStarts := if down then x.downStarts + 1 else 0 }
  let s2 := fails.foldl (fun a e => if 3 ≤ e.2 then a.extendRecord duLane i.val e.1 0x03 else a) s1
  if down && 3 ≤ x.downStarts + 1 then s2.extendRecord duPort i.val 0 0x03 else s2

/-- A port begins training (R309): its link layer starts anew. -/
def Port.train (x : Port) (now : Nat) : Port :=
  { x with state := 1, inRoutes := false, rxSeq := 0, txSeq := 0, txAck := 0, nackPending := false, replays := 0, spent := [], queued := []
           attemptAt := now }

/-- Every licensed port that is not marked failed begins training (R308, R309). -/
def State.trainPorts (s : State) : State :=
  allPorts.foldl (fun a i => a.updPort i fun x =>
    if !a.licensedPort i then { x with state := 0, inRoutes := false }
    else if a.portFailed i then { x with state := 6, inRoutes := false }
    else if x.up || x.state = 5 || x.state = 7 then x
    else x.train a.time) s

/-- The outcome of training with the lane pairs that passed; a module start's first attempt counts (R309, R310, R313). -/
def State.trained (s : State) (i : PortId) (pass : BitVec 9) : State :=
  let x := s.port i
  let ls := (upTo 9).filter fun l => pass.getLsbD l && !s.laneFailed i l && !(x.state = 7 && x.failedLanes.getLsbD l)
  let n := ls.length
  let st : BitVec 3 := if 8 ≤ n && x.state ≠ 7 then 2 else if 4 ≤ n then 3 else 4
  let failed := BitVec.ofNat 9 (bitmap ((upTo 9).map fun l => !ls.contains l))
  let s1 := if s.boot.state ≠ 1 && s.boot.state ≠ 2 && x.state = 1 && x.attemptAt < s.boot.started + 500000000 then s.countStart i ls (st = 4) else s
  let s2 := s1.updPort i fun y =>
    { y with failedLanes := failed, spareUsed := st = 2 && (upTo 8).any fun l => !ls.contains l, attemptAt := s.time }
  if st = 4 then (if x.state = 7 then s2.portDown i else s2.updPort i fun y => { y with state := 4 })
  else ((s2.updPort i fun y => { y with state := st }).emit (.mgmt (some i) (.peerCheck s.fab.modId (BitVec.ofNat 6 i.val)))).tellPort i true

/-- R309, R313. -/
def execPortTrained (p : PortId) (pass : BitVec 9) (s : State) : Out :=
  .next (if !s.fabricUp || ((s.port p).state ≠ 1 && (s.port p).state ≠ 7) then s else s.trained p pass)

/-- R310: every 500 ms. -/
def execPortRetrainAttempt (p : PortId) (s : State) : Out :=
  let x := s.port p
  .next (if !s.fabricUp || x.state ≠ 4 || !s.licensedPort p || s.portFailed p || s.time < x.attemptAt + 500000000 then s
    else s.setPort p (x.train s.time))

/-- R313: the spare replaces the lane, or the port retrains to ×4, or it goes down. -/
def execLaneUnfit (p : PortId) (lane : LaneId) (retrains : Bool) (s : State) : Out :=
  let x := s.port p
  let s1 := s.updPort p fun y => { y with failedLanes := y.failedLanes ||| BitVec.ofNat 9 (2 ^ lane.val) }
  .next (if !x.up || x.failedLanes.getLsbD lane.val then s
    else if x.state = 2 && !x.spareUsed && !x.failedLanes.getLsbD 8 then
      (((s1.updPort p fun y => { y with spareUsed := lane.val ≠ 8 }).errAdd (srcPort p) 0x02).maskedError
        { kind := 0x02, status := 0, src := srcPort p, port := some p, mech := 0x05 })
    else if x.state = 2 && retrains then s1.updPort p fun y => { y with state := 7 }
    else s1.portDown p)

/-- R460. -/
def execLossOfSignal (p : PortId) (s : State) : Out :=
  .next (if (s.port p).up || (s.port p).state = 5 || (s.port p).state = 7 then s.portDown p else s)

/-! ## Codewords (R311, R312, R314) -/

/-- A masked error of a port: a correction or a replay (R403, R411). -/
def State.portMasked (s : State) (p : PortId) : State :=
  s.maskedError { kind := 0x02, status := 0, src := srcPort p, port := some p, mech := 0x04 }

/-- A codeword that fails is discarded with all that follow, and nacked. -/
def State.codewordBad (s : State) (p : PortId) : State :=
  let s1 := s.updPort p fun x => { x with nackPending := true }
  s1.emit (.linkTrailer p (s1.port p).rxSeq true none none)

/-- The peer's acknowledgement and nack: a flit replayed 16 times without progress takes the port down. -/
def State.takeAck (s : State) (p : PortId) (c : Codeword) : State :=
  let x := s.port p
  let fwd := (c.aseq - x.txAck).toNat
  let moved := 0 < fwd && fwd ≤ (x.txSeq - x.txAck).toNat
  let y := if moved then { x with txAck := c.aseq, replays := 0 } else x
  if !c.nack then s.setPort p y
  else if 16 ≤ y.replays + 1 then (s.setPort p y).portDown p
  else (((s.setPort p { y with replays := y.replays + 1 }).emit (.linkTrailer p y.rxSeq y.nackPending none (some y.txAck))).errAdd
    (srcPort p) 0x00).portMasked p

/-- Credits that the peer returns let waiting flits go. -/
def State.takeCredits (s : State) (p : PortId) (c : Codeword) : State :=
  if 4 < c.cvc.toNat || c.credits = 0 then s
  else
    let key := 2 * c.cvc.toNat + bnat c.ccls
    let x := s.port p
    let (y, n) := { x with spent := mapPut 0 x.spent key (mapGet 0 x.spent key - c.credits.toNat) }.drain key
    (s.setPort p y).perfAdd (srcPort p) 0x00 n

/-- A flit of a channel is taken in order; its buffer frees at once (notes/assumptions/55.md). -/
def State.takeFlit (s : State) (p : PortId) (c : Codeword) : State :=
  let x := s.port p
  if 4 < c.vc.toNat then s
  else if c.fseq ≠ x.rxSeq then s
  else
    let s1 := (s.setPort p { x with rxSeq := x.rxSeq + 1, nackPending := false }).perfAdd (srcPort p) 0x01 1
    s1.emit (.linkTrailer p (x.rxSeq + 1) false (some (c.vc, c.cls)) none)

/-- R312. -/
def execCodewordReceive (p : PortId) (c : Codeword) (s : State) : Out :=
  let x := s.port p
  if !(x.up || x.state = 5) then .next s
  else if 4 < c.badSymbols || !c.crcOk then .next (s.codewordBad p)
  else
    let s0 := if c.badSymbols = 0 then s else ((upTo c.badSymbols).foldl (fun a _ => a.errAdd (srcPort p) 0x01) s).portMasked p
    let s1 := s0.takeAck p c
    .next (if (s1.port p).state = 4 then s1 else (s1.takeCredits p c).takeFlit p c)

/-! ## The management channel (R322, R329, R373, R449) -/

/-- A peer's identity for lock-step pairing (R373). -/
def State.takeIdentity (s : State) (id : BitVec 14) (part peerPart : BitVec 3) (fw fnTables : BitVec 32) (dies : Nat) (digest : BitVec 128) : State :=
  let p := PartId.ofNat peerPart.toNat
  let w := s.part p
  if !w.ls.enable || w.ls.peer ≠ id || w.ls.peerPart ≠ part || w.lsState = 0 || w.lsState = 5 then s
  else
    let st : BitVec 3 := if fw ≠ s.boot.fwVersion || fnTables ≠ s.boot.fnTables || dies ≠ (s.partDies p).length then 4
      else if digest ≠ s.unitDigest then 3 else 2
    let s1 := s.setPart p { w with lsState := st, lastPeer := s.time }
    if w.lsState = 1 then s1.emit (.mgmt (PortId.ofNat? w.ls.port.toNat) (s1.lockstepHello p)) else s1

/-- R322, R329, R373, R449. -/
def State.takeMgmt (s : State) (p : PortId) (m : Mgmt) : State :=
  match m with
  | .peerCheck id port => (s.updPort p fun x => { x with peer := id, peerPort := port, peerValid := true }).checkPort p
  | .portState id port up =>
    { s with fab := { s.fab with peersUp := (id, port, up) :: s.fab.peersUp.filter fun e => !(e.1 = id && e.2.1 = port) } }
  | .hold id port => s.updPort port fun x => { x with holds := ⟨id, s.time⟩ :: x.holds.filter fun h => h.peer ≠ id }
  | .release id port => s.updPort port fun x => { x with holds := x.holds.filter fun h => h.peer ≠ id }
  | .becomeRoot id => { s with tb := { s.tb with named := some id } }.retime
  | .resign id => if s.tb.named = some id then { s with tb := { s.tb with named := none } }.retime else s
  | .lockstepIdentity id part pp fw ft n d => s.takeIdentity id part pp fw ft n d

def execManagementPacket (p : PortId) (m : Mgmt) (s : State) : Out :=
  .next (if !s.fabricUp || !s.boot.running || s.boot.state = 2 || !((s.port p).up || (s.port p).state = 5) then s else s.takeMgmt p m)

/-- R449: a hold not renewed for 50 ms. -/
def execHoldLapse (p : PortId) (peer : BitVec 14) (s : State) : Out :=
  .next (s.updPort p fun x => { x with holds := x.holds.filter fun h => h.peer ≠ peer || s.time < h.renewed + 50000000 })

/-- R449: this module renews its holds: those of its collectives, and of its paired partitions. -/
def execHoldRenewal (s : State) : Out :=
  let s1 := s.colls.foldl (fun a k => a.announceColl k true) s
  .next (if !s.fabricUp then s
    else allParts.foldl (fun a p => if a.partPaired p then a.announce true (a.part p).ls.peer else a) s1)

/-! ## The timebase (R329 to R331) -/

/-- R329, R330: one exchange with the parent. -/
def State.takeTime (s : State) (v : TimeFlit) : State :=
  let t := s.tb
  let good := -250 ≤ v.offsetPs && v.offsetPs ≤ 250
  let t1 : Timebase :=
    { t with offset := BitVec.ofInt 16 (max (-32768) (min 32767 v.offsetPs)), parentGood := v.parentGood
             goodSince := if good then (t.goodSince <|> some s.time) else none
             state := if t.state = 1 && good && v.parentGood then 1 else if t.state = 1 then 0 else t.state }
  let mine := t.value.toNat
  let its := v.parentTime.toNat
  if mine + 1000 < its then { s with tb := { t1 with value := v.parentTime, ratePpm := 0, slewed := 0, holdUntil := none } }
  else if its + 1000 < mine then { s with tb := { t1 with ratePpm := 0, slewed := 0, holdUntil := some (s.time + (mine - its)) } }
  else { s with tb := { t1 with ratePpm := max (-200) (min 200 v.offsetPs), holdUntil := none } }

def execTimeFlit (p : PortId) (v : TimeFlit) (s : State) : Out :=
  .next (if !s.fabricUp || !(s.port p).up || s.tb.parent ≠ some p then s else s.takeTime v)

/-- R329: the offset has stayed within 0.25 ns for 1 ms. -/
def execTimebaseAligned (s : State) : Out :=
  let t := s.tb
  .next (if t.state ≠ 2 && t.parent.isSome && t.parentGood && t.goodSince.any fun g => g + 1000000 ≤ s.time then
      { s with tb := { t with state := 1 } }
    else s)

/-- The checks of a timebase parameter block. -/
def timebaseCheck (b : Bytes) : BitVec 16 :=
  let v := leNat b
  if bits v 63 2 ≠ 0 || bits v 255 128 ≠ 0 then 0x1002
  else if bits v 1 0 = 3 then 0x1003
  else if (if bits v 1 0 = 2 then bits v 127 64 = 0 || 2 ^ 40 < bits v 127 64 else bits v 127 64 ≠ 0) then 0x1003
  else 0

/-- A timebase operation (R331): one of them, where its block passes. -/
def State.timebaseRow (s : State) (q : QueueId) (mine : Except Fail Bytes → Bool) (f : State → Bytes → Ans) : State :=
  s.fwRow q 0x12 32 32 mine fun s _ b =>
    let st := timebaseCheck b
    if st ≠ 0 then ansFail s st else f s b

/-- Whether a block's op is one of these. -/
def blockOp (n : Nat) (b : Except Fail Bytes) : Bool :=
  match b with
  | .ok x => bits (leNat x) 1 0 = n
  | .error _ => false

/-- R331; a block that cannot be read and the reserved op end here too. -/
def execBecomeRoot (q : QueueId) (s : State) : Out :=
  .next (s.timebaseRow q (fun b => !blockOp 1 b && !blockOp 2 b) fun s _ =>
    ansOk (({ s with tb := { s.tb with named := some s.fab.modId } }.retime).emit (.mgmt none (.becomeRoot s.fab.modId))))

/-- R331. -/
def execResign (q : QueueId) (s : State) : Out :=
  .next (s.timebaseRow q (blockOp 1) fun s _ =>
    if s.tb.named = some s.fab.modId then
      ansOk (({ s with tb := { s.tb with named := none } }.retime).emit (.mgmt none (.resign s.fab.modId)))
    else ansOk s)

/-- R331: a step on a module that is not the root fails. -/
def execStepForward (q : QueueId) (s : State) : Out :=
  .next (s.timebaseRow q (blockOp 2) fun s b =>
    if s.tb.state ≠ 2 then ansFail s 0x1009
    else ansOk { s with tb := { s.tb with value := s.tb.value + BitVec.ofNat 64 (bits (leNat b) 127 64) } })

/-! ## Messages (R325, R326, R328) -/

def specSetModuleId : MsgSpec :=
  { opcode := 0x0900, bound := 10000000, lenOk := fun n => n = 8, reserved := fun _ => [(63, 14)]
    run := fun s _ b =>
      if s.fab.plan.isSome then ansFail s 0x1009
      else ansOk { s with fab := { s.fab with modId := BitVec.ofNat 14 (bits (leNat b) 13 0) } } }

def planOf (b : Bytes) : Plan :=
  let v := leNat b
  ⟨BitVec.ofNat 5 (bits v 4 0), BitVec.ofNat 5 (bits v 9 5), BitVec.ofNat 4 (bits v 13 10), BitVec.ofNat 36 (bits v 51 16)⟩

/-- Whether a plan fits this module (R326). -/
def State.planFits (s : State) (p : Plan) : Bool :=
  ([0, 1, 2].all fun d => coordOf s.fab.modId d < p.size d)
    && allPorts.all fun i => !p.connected.getLsbD i.val || p.size (i.val % 6 / 2) ≠ 1

def specLoadPlan : MsgSpec :=
  { opcode := 0x0901, bound := 10000000, lenOk := fun n => n = 16, reserved := fun _ => [(15, 14), (127, 52)]
    run := fun s _ b =>
      let p := planOf b
      if !s.planFits p then ansFail s 0x1003
      else ansOk ({ s with fab := { s.fab with plan := if p.connected = 0 then none else some p } }.loadTable []) }

/-- A port record (R328). -/
def Port.record (x : Port) : Nat :=
  packBits [(3, x.state.toNat), (9, x.failedLanes.toNat), (1, bnat x.spareUsed), (1, bnat x.inRoutes), (14, x.peer.toNat),
    (6, x.peerPort.toNat), (1, bnat x.peerValid), (5, 0), (16, x.downs.toNat), (8, 0)]

def specPortStatus : MsgSpec :=
  { opcode := 0x0902, bound := 10000000, lenOk := fun n => n = 0
    run := fun s _ _ =>
      let t := s.tb
      let off : BitVec 16 := if t.state = 2 then 0 else t.offset
      ansOk s (natLe (packBits [(2, t.state.toNat), (14, 0), (14, t.root.toNat), (2, 0), (16, off.toNat), (80, 0)]) 16
        ++ (allPorts.map fun i => natLe (s.port i).record 8).flatten) }

def execSetModuleIdentifier (m : Msg) (s : State) : Out := .next (s.mailRow specSetModuleId m true)
def execLoadRoutingTable (m : Msg) (s : State) : Out := .next (s.mailRow specLoadPlan m true)
def execGetPortStatus (m : Msg) (s : State) : Out := .next (s.mailRow specPortStatus m true)

end Sys2Proof.Machine
end

