-- ==== Sys2Proof/Machine/ResetOps.lean ====
section
/-! DEFINITION. Reset domains: the fence and the drain, the snapshot, the completion of commands, the return to
service, and the removal of power (R237, R238, R399, R412 to R416, R419; notes/assumptions/57.md, 58.md). -/

namespace Sys2Proof.Machine

/-! ## Domains (R412) -/

inductive Domain where
  | tile (t : TileId)
  | die (d : DieId)
  | module
deriving DecidableEq, Repr

def Domain.tiles : Domain → List TileId
  | .tile t => [t]
  | .die d => dieTiles d
  | .module => allTiles

/-- The dies whose context slots a domain's reset discards (R399, R419). -/
def Domain.dies : Domain → List DieId
  | .tile t => [dieOf t]
  | .die d => [d]
  | .module => allDies

/-- The dies that are themselves in the domain. -/
def Domain.wholeDies : Domain → List DieId
  | .tile _ => []
  | .die d => [d]
  | .module => allDies

/-- The tiles on which a begun command has an engine. -/
def Cmd.engineTiles (x : Cmd) : List TileId := x.holds ++ x.tiles ++ if x.opcode = 3 then x.span.getD [] else []

/-- Whether a begun command has an engine in a domain (R413). -/
def Domain.holdsCmd (m : Domain) (x : Cmd) : Bool :=
  x.stage = .begun && (m = .module || x.engineTiles.any fun t => m.tiles.contains t)

/-- The status that a reset gives the commands it ends. -/
def ResetCause.given (c : ResetCause) : BitVec 16 := if c.sag then 0x900A else 0x9009

/-! ## The fence and the drain (R413 steps 1 and 2) -/

/-- Collectives with staging tiles, or all of them, in the domain abort with cause 0x05 (R350). -/
def State.abortIn (s : State) (m : Domain) (st : BitVec 16) : State :=
  (s.colls.filter fun k => m = .module || k.tiles.any fun t => m.tiles.contains t).foldl (fun a k => a.raiseAbort k.cmd 0x05 st 0 none) s

/-- Fence a domain: its engines stop, its die caches are written back and dropped, its agents close. -/
def State.fence (s : State) (m : Domain) (st : BitVec 16) : State :=
  let s1 := m.tiles.foldl (fun a t => a.updTile t fun x => { x with inReset := true }) (s.abortIn m st)
  m.wholeDies.foldl (fun a d => a.updDie d fun x => { x with inReset := true }) (m.wholeDies.foldl (fun a d => a.dropCache d) s1)

/-- A die's reset becomes due, unless one runs in it already (R412, R422). -/
def State.startDie (s : State) (d : DieId) (c : ResetCause) : State :=
  if (s.die d).inReset then s
  else
    let s1 := s.fence (.die d) c.given
    { s1 with flt := { s1.flt with dieCause := mapPut none s1.flt.dieCause d.val (some c) } }

/-- Entries of power states and lends under way end with a module-warm reset, the entries aborted with code 0x08 (R461). -/
def State.endEntries (s : State) : State :=
  let s1 := s.jobs.foldl (fun a j => match j.kind with
    | .power _ => (a.countRefusal 0x08 true).event (srcHub 0) 0x08 0x08
    | _ => a) s
  { s1 with jobs := s1.jobs.filter fun j => match j.kind with | .power _ => false | .lend _ => false | _ => true }

/-- A module-warm reset becomes due: firmware stops and BOOT_STATE reads resetting (R412, R413). A reset under way
goes on; a sag reset takes over (R422). -/
def State.startWarm (s : State) (c : ResetCause) : State :=
  match s.flt.warmCause with
  | some w => if c.sag && !w.sag then { s with flt := { s.flt with warmCause := some c } } else s
  | none =>
    if s.pow.mode ≠ .powered then s
    else
      let s1 := s.endEntries.fence .module c.given
      { s1 with flt := { s1.flt with tileCause := [], dieCause := [], warmCause := some c }
                boot := { s1.boot with state := 3, running := false, presenceOpen := false, started := s.time
                                       startKind := if c.sag then 0x03 else 0x02 } }

/-! ## The snapshot (R415, R416) -/

/-- A queue's entry: its configuration record without the reserved tail, and its indices. -/
def Queue.snap (q : QueueId) (x : Queue) (c : QueueCfg) : Bytes :=
  natLe (packBits [
    (12, q.val), (3, c.partition.val), (1, bnat c.kernel), (3, c.priority.toNat), (1, bnat c.persist), (1, bnat c.nopre),
    (1, bnat c.haltFlag), (10, 0), (16, c.timeout.toNat), (16, c.flagMask.toNat), (64, c.ring.toNat), (5, c.ringLog2),
    (5, c.cplLog2), (6, 0), (11, c.msix.toNat), (5, 0), (13, c.maxInflight), (19, 0), (64, c.cpl.toNat), (64, c.dspill.toNat),
    (64, c.dspillLen), (64, c.hspill.toNat), (64, c.hspillLen), (64, c.pLaunch.toNat), (7, c.pFirst.toNat), (1, 0), (7, c.pTiles.toNat), (1, 0),
    (8, x.state.toNat), (32, x.head.toNat), (32, x.tail.toNat), (32, x.nextPub.toNat), (8, x.reason.toNat), (64, x.timer),
    (16, x.gen.toNat)]) 98

/-- An in-flight command's entry. -/
def Cmd.snap (q : QueueId) (x : Cmd) : Bytes :=
  natLe (packBits [
    (16, q.val), (32, x.seq.toNat), (8, x.opcode), (8, x.engine.toNat), (96, bitmap (allTiles.map x.engineTiles.contains)),
    (64, x.begunAt.toNat)]) 32

/-- A semaphore's entry: its value, then its waiters as tile and count. -/
def State.semSnap (s : State) (n : Nat) : Bytes :=
  natLe (mapGet 0 s.sems n).toNat 4 ++ ((s.semWaits.filter fun w => w.sem.toNat = n).map fun w =>
    (match w.who with | .tile t _ _ _ => BitVec.ofNat 8 t.val | .cmd _ => (0x7F : Byte)) :: natLe w.count.toNat 4).flatten

/-- The arrival counters and the registrations of a stack. -/
def State.ctrSnap (s : State) (k : StackId) : Bytes :=
  ((upTo 4096).map fun c => natLe (mapGet 0 s.ctrs (4096 * k.val + c)).toNat 8).flatten
    ++ ((s.ctrWaits.filter fun w => w.stack = k && w.registered).map fun w =>
      natLe (packBits [(12, w.ctr.toNat), (4, 0), (48, w.target.toNat), (12, w.cmd.queue.val), (52, 0)]) 16).flatten

/-- A tile's engines, in 8 KiB. -/
def Tile.snap (x : Tile) : Bytes :=
  let b : Bytes := natLe x.seq.faultInfo.toNat 8 ++ natLe x.seq.pc.toNat 8
    ++ ((upTo 32).map fun r => natLe (mapGet 0 x.seq.regs r).toNat 8).flatten
    ++ ((upTo 16).map fun e => natLe (mapGet 0 x.seq.events e).toNat 2).flatten
    ++ natLe (packBits [(16, x.aq.length), (16, x.vq.length), (16, x.dq.length), (16, 0)]) 8
    ++ ((List.finRange 16).map fun p => natLe (((x.pane p).instr.map fun i => (i.cursor.record p).toNat).getD 0) 8).flatten
    ++ natLe x.fret.toNat 8 ++ natLe x.flags.toNat 8
    ++ (x.dma.ops.map fun o => natLe o.desc.src.toNat 8 ++ natLe o.desc.dst.toNat 8 ++ natLe o.next 8).flatten
  slice b 0 8192

/-- Whether a crossing queue and an error counter's source lie in a domain. -/
def Domain.source (m : Domain) (src : Nat) : Bool :=
  m = .module || (m.tiles.any fun t => (srcTile t).toNat = src) || m.wholeDies.any fun d => (srcDie d).toNat = src

def Domain.crossing (m : Domain) (i : Nat) : Bool :=
  m = .module || m.wholeDies.any fun d => i = traceXq (logicOfDie d) || i = 100 + d.val

/-- The sections of a domain's snapshot, in the order of R416. -/
def State.snapBody (s : State) (m : Domain) : Bytes :=
  let parts := m.dies.filterMap fun d => (s.die d).owner
  let qs := s.queues.filterMap fun e => e.2.cfg.bind fun c => if m = .module || parts.contains c.partition then some (QueueId.ofNat e.1, e.2, c) else none
  (qs.map fun e => e.2.1.snap e.1 e.2.2).flatten
    ++ (qs.map fun e => (e.2.1.cmds.map fun x => x.snap e.1).flatten).flatten
    ++ (m.wholeDies.map fun d => ((upTo 1024).map fun i => s.semSnap (1024 * d.val + i)).flatten).flatten
    ++ (m.wholeDies.map fun d => ((dieStacks d).map s.ctrSnap).flatten).flatten
    ++ (m.tiles.map fun t => (s.tile t).snap).flatten
    ++ ((s.xqs.filter fun e => m.crossing e.1).map fun e => natLe e.2.status.toNat 8).flatten
    ++ ((s.tel.err.filter fun e => m.source (e.1 % 65536)).map fun e => natLe e.2.toNat 8).flatten
    ++ ((s.colls.filter fun k => m = .module || k.tiles.any fun t => m.tiles.contains t).map fun k =>
      k.sigBlock ++ ((upTo 12).map fun i => natLe (mapGet 0 k.sent i) 8).flatten ++ (k.abort.map AbortReport.bytes).getD (natLe 0 32)).flatten
    ++ (m.wholeDies.map fun d => ((upTo 3).map fun i => natLe (match mapGet none (s.die d).slots i with
      | some c => packBits [(12, c.queue.val), (3, 0), (1, 1), (16, c.gen.toNat)]
      | none => 0) 8).flatten).flatten

/-- Write a snapshot to both copies; the latest 16 are held. Answers its number. -/
def State.snapshot (s : State) (m : Domain) (c : ResetCause) : BitVec 32 × State :=
  let n := s.flt.nextSnap
  let body := s.snapBody m
  let h := packBits [
    (16, 0x5A9D), (4, match m with | .tile _ => 1 | .die _ => 2 | .module => 3),
    (7, match m with | .tile t => t.val | _ => 0x7F), (5, match m with | .tile t => (dieOf t).val | .die d => d.val | .module => 0x1F),
    (32, n.toNat), (16, c.status.toNat), (24, c.faultNo.toNat), (24, 0), (64, s.stamp.toNat), (32, 64 + body.length)]
  let header := natLe h 28 ++ natLe (crc32c (natLe 0 32 ++ body)).toNat 4 ++ natLe 0 32
  let snap : Snapshot := { number := n, header := header, body := body, homeOk := true, mirrorOk := s.flt.mirrorDie.isSome }
  let l := s.flt.snapshots ++ [snap]
  (n, { s with flt := { s.flt with nextSnap := n + 1, snapshots := l.drop (l.length - 16) } })

/-! ## Commands at a reset (R399, R413 step 4) -/

/-- End one begun command; a collective ends by its abort. -/
def State.resetCmd (s : State) (c : CmdId) (st : BitVec 16) : State :=
  if s.colls.any fun k => k.cmd = c then s.raiseAbort c 0x05 st 0 none
  else (s.abandonWork c).updCmd c fun y => if y.live then y.finish st s.stamp else y

/-- Whether a queue has an engine, a resident program or a saved context in a domain. -/
def State.queueIn (s : State) (m : Domain) (q : QueueId) : Bool :=
  let x := s.queue q
  m = .module || (x.cmds.any m.holdsCmd) || ((s.tilesOf q).any fun t => m.tiles.contains t)
    || m.dies.any fun d => (s.slotOf d q).isSome

/-- A domain's reset ends a queue's commands that had an engine there, all that had begun where a saved context is
lost; the queue halts with reason 0x01. -/
def State.resetQueue (s : State) (m : Domain) (st : BitVec 16) (q : QueueId) : State :=
  if (s.queue q).cfg.isNone || !s.queueIn m q then s
  else
    let lost := m.dies.any fun d => (s.slotOf d q).isSome
    let hit := ((s.queue q).cmds.filter fun x => m.holdsCmd x || (lost && x.stage = .begun)).map fun x => (⟨q, x.id⟩ : CmdId)
    let s1 := hit.foldl (fun a c => a.resetCmd c st) s
    let s2 := if lost then s1.dropContexts q else s1
    let s3 := match hit with | c :: _ => s2.haltFor c | [] => s2
    let s4 := if lost || m = .module then
        ((s3.queue q).cmds.filter fun x => x.stage = .fetched).foldl (fun a x => a.cancelCmd ⟨q, x.id⟩ 0x8001) s3
      else s3
    if (s4.queue q).state = qDestroying then s4 else (s4.stopTiles ⟨q, 0⟩).haltQueue q 0x01

def State.resetQueues (s : State) (m : Domain) (st : BitVec 16) : State :=
  s.queues.foldl (fun a e => a.resetQueue m st (QueueId.ofNat e.1)) s

/-! ## The return to service (R413 step 5) -/

/-- The tiles are zeroed and the dies acquire; the trace FIFOs are empty (R42); the agents open. -/
def State.reopen (s : State) (m : Domain) : State :=
  let s0 := (if m = .module then upTo 21 else m.wholeDies.map fun d => traceXq (logicOfDie d)).foldl (fun a i => a.emptyXq i) s
  let s1 := m.tiles.foldl (fun a t => a.updTile t fun x => { x.placed with inReset := false }) s0
  m.wholeDies.foldl (fun a d => (a.acquireWhole d).updDie d fun x => { x with inReset := false, droop := false, departed := none }) s1

/-- The values saved for a loan go with the slot of its die (R399). -/
def State.discardLoans (s : State) (m : Domain) : State :=
  if m = .module then s
  else { s with loans := s.loans.map fun l => if m.dies.contains l.die then { l with saved := none } else l }

/-- The source that reports a reset, and the partition it names. -/
def Domain.src : Domain → BitVec 16
  | .tile t => srcTile t
  | .die d => srcDie d
  | .module => srcHub 11

def State.domainPart (s : State) : Domain → Option PartId
  | .module => none
  | m => m.dies.head?.bind fun d => (s.die d).owner

/-- Whether the record of the reset was written with its cause: a hub that failed, a heartbeat or a response that did not
come (R405, R408; DEDUCED, notes/assumptions/59.md). -/
def ResetCause.recorded (c : ResetCause) : Bool := c.mech = 0x06 || c.mech = 0x18

/-- The record that a reset writes, with its snapshot's number (R410). -/
def State.recordReset (s : State) (m : Domain) (c : ResetCause) (n : BitVec 32) : State :=
  if c.recorded then s
  else (s.recordFault
    { kind := 0x03, status := c.status, src := m.src, tile := (match m with | .tile t => some t | _ => none)
      die := (match m with | .module => none | _ => m.dies.head?.map logicOfDie)
      mech := c.mech, aux := n.setWidth 64, part := s.domainPart m }).2

/-- Steps 3 to 5 of a reset; its record follows once the agents are open. -/
def State.reset_ (s : State) (m : Domain) (c : ResetCause) : State :=
  let (n, s1) := (if m = .module then s else s.workJobs).snapshot m c
  let s2 := (((s1.resetQueues m c.given).discardLoans m).reopen m).recordReset m c n
  if m = .module then s2 else s2.workJobs

/-- A mailbox after a module-warm reset (R289, R291, R408): free, and with any sequence number accepted. -/
def Fn.restarted (x : Fn) : Fn := { x with busy := false, done := false, seqAny := true }

/-- The port licence comes into force: ports without one go down, the others train (R308, R309). -/
def State.takePorts (s : State) : State :=
  let s1 := { s with boot := { s.boot with portsInForce := BitVec.ofNat 8 (portsOf (s.licensed 1)) } }
  ((allPorts.filter fun i => (s1.port i).up && !s1.licensedPort i).foldl (fun a i => a.portDown i) s1).trainPorts

/-- What a module-warm reset does beside the common steps: registrations go, mailboxes are free, every die is in Active,
clock ceilings and the phase table are cleared, the ports' licence is taken up (R237, R308, R408, R429, R431, R461). -/
def State.warmRest (s : State) : State :=
  let s1 := { s with ctrWaits := [], semWaits := [] }.takePorts
  let s2 := allFns.foldl (fun a f => a.updFn f Fn.restarted) (s1.exitState allDies)
  allParts.foldl (fun a p => if (a.part p).exists_ then a.updPart p fun x => { x with fmax := 76 } else a)
    { s2 with capo := { s2.capo with matched := false, phases := [] } }

/-! ## Removal of power (R237, R412, R419, R446) -/

/-- What a stack keeps in flash: its repair record (R229, R237). -/
def Stack.unpowered (x : Stack) : Stack :=
  { repairs := x.repairs, spares := x.spares, remapped := x.remapped, unavailable := x.unavailable, selfRefresh := false }

/-- What a port keeps in flash: its failed starts (R310). -/
def Port.unpowered (x : Port) : Port := { downStarts := x.downStarts, laneFails := x.laneFails, downs := 0 }

/-- What start-up keeps: the flash, its counters, the always-on logic's latches (R463, R470, R476, R479, R483, R485). -/
def Boot.unpowered (b : Boot) : Boot :=
  { fwVersion := b.fwVersion, romVersion := b.romVersion, fnTables := b.fnTables, stepping := b.stepping, image := b.image
    savedSettings := b.savedSettings, counters := b.counters, attempts := b.attempts, reasons := b.reasons
    failedVersion := b.failedVersion, latchedReason := b.latchedReason, basePos := b.basePos, entries := b.entries
    recordGen := b.recordGen, inForce := b.inForce, licences := b.licences, licenceGen := b.licenceGen
    presenceLog := b.presenceLog, sealLatch := b.sealLatch, sealClosed := b.sealClosed, sealLog := b.sealLog }

/-- The whole module after its rails have gone: what the world outside and the flash hold remains. -/
def State.unpowered (s : State) : State :=
  { pending := s.pending, time := s.time, fresh := s.fresh, host := s.host, atsOn := s.atsOn, msixSent := s.msixSent
    memStacks := s.memStacks.map fun e => (e.1, e.2.unpowered)
    fns := s.fns.map fun e => (e.1, e.2.cleared)
    fab := { ports := s.fab.ports.map fun e => (e.1, e.2.unpowered), out := s.fab.out, peersUp := [] }
    pow := { s.pow with mode := .off, counts := [], last := 0, lastAbort := false, waking := false, saved := none, portsIdle := false, pwrGood := false
                        perstLatched := false, sagResetAt := none }
    boot := s.boot.unpowered
    tel := {}
    side := { replies := s.side.replies } }

/-- Power is removed (R412): its every effect on what is outside the module goes with it. -/
def State.removePower (s : State) : State := if s.pow.mode = .off then s else s.unpowered

end Sys2Proof.Machine
end

