-- ==== Sys2Proof/Machine/FaultFam.lean ====
section
/-! DEFINITION. Faults, hangs and recovery: watchdogs, the heartbeat, hub lock-step, crossing queues, bridge links,
regulators, the resets and their escalation, and the diagnostics messages (R23, R33, R39, R40, R404 to R408, R412 to
R418; notes/assumptions/57.md, 58.md, 59.md). -/

namespace Sys2Proof.Machine

/-! ## Detections outside a tile's units -/

/-- A detected fault of a unit that serves no command of its own: its record, whose number it answers. -/
def State.unitFault (s : State) (src : BitVec 16) (d : Option LogicDie) (k : Option StackId) (st : BitVec 16) (mech : Byte) (addr : Nat) :
    BitVec 24 × State :=
  s.recordFault { kind := 0x01, status := st, src := src, die := d, stack := k, mech := mech, addr := BitVec.ofNat 64 addr }

/-- A detected fault of a command named by queue and sequence number, or, where it is gone, of its unit. -/
def State.cmdOrUnit (s : State) (c : Option CmdRef) (e : Fail) (engine : Byte) (src : BitVec 16) : BitVec 24 × State :=
  match c.bind fun r => s.accessCmd (some r) with
  | some k =>
    let s1 := s.failCmd k e engine none
    (((s1.cmd? k).map fun x => x.faultRef).getD 0, s1)
  | none => s.unitFault src e.die e.stack e.status e.mech e.addr.toNat

/-! ## Watchdogs (R407, R408) -/

/-- Whether an engine of a tile holds work. -/
def State.engineBusy (s : State) (e : EngineId) : Bool :=
  match e with
  | .sequencer t => ((s.tile t).seq.run = .running && (s.tile t).inService) || (s.matmulOn t).isSome
  | .array t => (s.matmulOn t).isSome || (s.tile t).inService && (!(s.tile t).aq.isEmpty || (s.tile t).arr.panes.any fun p => p.2.instr.isSome)
  | .vector t => (s.matmulOn t).isSome || (s.tile t).inService && !(s.tile t).vq.isEmpty
  | .dma t => (s.matmulOn t).isSome || !(s.tile t).inReset && !((s.tile t).dma.ops.isEmpty && (s.tile t).dma.handed.isEmpty && (s.tile t).dq.isEmpty)
  | .stackAgent k => !s.stackFenced k
  | .commandProcessor _ _ => s.boot.running
  | .linkRouter _ => true

/-- The failure that an expired watchdog gives. -/
def hung : Fail := { status := 0x9008, mech := 0x13 }

/-- The command of a tile's oldest descriptor. -/
def State.dmaOwner (s : State) (t : TileId) : Option CmdId :=
  match (s.tile t).dma.ops, (s.tile t).dma.handed with
  | o :: _, _ => s.dmaCmd t o
  | [], h :: _ => some h.1
  | [], [] => s.tileCmd t

/-- R407: the command in the engine completes with 0x9008 and the engine's domain is reset. -/
def State.watchdog (s : State) (e : EngineId) : State :=
  match e with
  | .sequencer t => s.failTile t hung engSeq
  | .array t => s.failTile t hung engArray
  | .vector t => s.failTile t hung engVector
  | .dma t =>
    match s.dmaOwner t with
    | some c => if (s.tile t).cmd = some c then s.failTile t hung engDma else s.failCmd c hung engDma (some t)
    | none => s.failTile t hung engDma
  | .stackAgent k =>
    let d := stackDie k
    let (no, s1) := s.unitFault (srcStack k) (some (logicOfDie d)) (some k) 0x9008 0x13 0
    s1.startDie d ⟨0x9008, no, 0x13, false⟩
  | .commandProcessor c r =>
    let (no, s1) := s.cmdOrUnit r hung engFront (srcHub (2 + c.val))
    s1.startWarm ⟨0x9008, no, 0x13, false⟩
  | .linkRouter l =>
    let (no, s1) := s.unitFault (srcHub 11) (some (logicOfLink l)) none 0x9008 0x13 0
    s1.startWarm ⟨0x9008, no, 0x13, false⟩

def execEngineWatchdog (e : EngineId) (s : State) : Out :=
  .next (if s.pow.mode = .powered && s.engineBusy e then s.watchdog e else s)

/-- R408. -/
def execFirmwareHeartbeat (s : State) : Out :=
  .next (if s.boot.running then { s with flt := { s.flt with heartbeat := s.time } } else s)

/-- A failure of firmware or of the control processors: its record of kind 0x03, then the reset; before
ready it is a failed start, whose reason is latched (R405, R408, R470, R471). -/
def State.hubFails (s : State) (mech : Byte) : State :=
  let (no, s1) := s.recordFault { kind := 0x03, status := 0x9009, src := srcHub 11, mech := mech }
  let why : Byte := if mech = 0x06 then 0x0B else 0x07
  let s2 := if s.boot.state = 1 then s1 else { s1 with boot := { s1.boot with latchedReason := why } }
  s2.startWarm ⟨0x9009, no, mech, false⟩

/-- R408: no heartbeat for 1 ms. -/
def execHeartbeatExpiry (s : State) : Out :=
  .next (if s.boot.running && s.flt.heartbeat + 1000000 ≤ s.time then s.hubFails 0x18 else s)

/-- R408: a message outlives its response time. -/
def execMailboxResponseExpiry (f : FnId) (s : State) : Out :=
  let x := s.fn f
  .next (if s.boot.running && x.busy && x.mbStart + x.mbBound < s.time then (s.setCause f 7).hubFails 0x18 else s)

/-- R405: one processor goes offline, masked; or the fault is detected. A module that runs on one processor compares
nothing (R406). -/
def execHubLockstepMismatch (fail0 fail1 : Bool) (s : State) : Out :=
  .next (if !s.boot.running || s.flt.hubOffline then s
    else if fail0 = fail1 then s.hubFails 0x06
    else { s with flt := { s.flt with hubOffline := true } }.maskedError
      { kind := 0x02, status := 0x900E, src := srcHub 0, mech := 0x06 })

/-! ## Crossing queues and bridge links (R23, R39, R40) -/

/-- The model's number of a crossing queue. -/
def crossingNo : Crossing → Nat
  | .bridge l => 32 + l.val
  | .port p => 64 + p.val
  | .dieSide d _ => 100 + d.val
  | .hubPcie => 112
  | .traceFifo f => traceXq f
  | .eventRing => eventXq

/-- The compute die that a bridge link joins, the one of higher number where it joins two (R20, R510). -/
def bridgeDie (l : BridgeLink) : Option DieId :=
  let a : Nat := if l.val < 16 then 5 * (l.val / 4) + l.val % 4 else 5 * ((l.val - 16) % 3) + (l.val - 16) / 3
  let b : Nat := if l.val < 16 then a + 1 else a + 5
  let die (i : Nat) : Option DieId := allDies.find? fun d => (logicOfDie d).val = i
  die b <|> die a

/-- The receiving router of a bridge link, as the source of its counter: the compute die it joins, else firmware's
hub source (R467, R510). -/
def bridgeSrc (l : BridgeLink) : BitVec 16 :=
  match bridgeDie l with
  | some d => srcDie d
  | none => srcHub 11

/-- The engine whose transfer a die-side crossing lost: the DMA engine for the work of tiles (R40, R411). -/
def State.transferEngine (s : State) (c : Option CmdRef) : Byte :=
  match c.bind fun r => s.findSeq r.queue r.seq .begun with
  | some x => if x.opcode = 4 then engColl else if x.opcode ≤ 3 then engDma else engFront
  | none => engFront

/-- R39, R40: the queue is reset and its contents are lost, with the outcome of the crossing. -/
def State.crossingReset (s : State) (x : Crossing) : State :=
  let i := crossingNo x
  let s1 := s.setXq i (s.xq i).mismatch
  let aux := (s1.xq i).status
  match x with
  | .bridge l =>
    (s1.errAdd (bridgeSrc l) 0x01).maskedError
      { kind := 0x02, status := 0, src := bridgeSrc l, die := (bridgeDie l).map logicOfDie, mech := 0x03, addr := BitVec.ofNat 64 i, aux := aux }
  | .port p =>
    (s1.errAdd (srcPort p) 0x00).maskedError
      { kind := 0x02, status := 0, src := srcPort p, port := some p, mech := 0x04, addr := BitVec.ofNat 64 i, aux := aux }
  | .dieSide d c =>
    let (no, s2) := s1.cmdOrUnit c { status := 0x9004, addr := BitVec.ofNat 64 i, aux := aux, mech := 0x11, die := some (logicOfDie d) }
      (s1.transferEngine c) (srcDie d)
    s2.startDie d ⟨0x9004, no, 0x11, false⟩
  | .hubPcie =>
    (s1.recordFault { kind := 0x01, status := 0x9004, src := srcHub 0, mech := 0x11, addr := BitVec.ofNat 64 i, aux := aux }).2
  | .traceFifo f =>
    s1.maskedError { kind := 0x02, status := 0, src := srcHub 11, die := some f, mech := 0x11, addr := BitVec.ofNat 64 i, aux := aux }
  | .eventRing => s1.maskedError { kind := 0x02, status := 0, src := srcHub 11, mech := 0x11, addr := BitVec.ofNat 64 i, aux := aux }

def execCrossingQueueMismatch (x : Crossing) (s : State) : Out := .next (if s.pow.mode = .powered then s.crossingReset x else s)

/-- R23: a flit that passes ends a run of failures; the 16th failure in succession takes the link down. -/
def execBridgeFlitReceive (l : BridgeLink) (crcOk : Bool) (s : State) : Out :=
  let n := mapGet 0 s.flt.replays l.val + 1
  .next (if s.pow.mode ≠ .powered || s.flt.linksDown.contains l then s
    else if crcOk then { s with flt := { s.flt with replays := mapPut 0 s.flt.replays l.val 0 } }
    else
      let s1 := { s with flt := { s.flt with replays := mapPut 0 s.flt.replays l.val (n % 16) } }.errAdd (bridgeSrc l) 0x01
      if n < 16 then s1.maskedError { kind := 0x02, status := 0, src := bridgeSrc l, die := (bridgeDie l).map logicOfDie, mech := 0x03, addr := BitVec.ofNat 64 l.val }
      else
        ({ s1 with flt := { s1.flt with linksDown := s1.flt.linksDown ++ [l] } }.recordFault
          { kind := 0x04, status := 0x9005, src := bridgeSrc l, die := (bridgeDie l).map logicOfDie, mech := 0x03, addr := BitVec.ofNat 64 l.val }).2)

/-! ## Regulators (R33) -/

/-- The domain of an island is reset: a compute die's own, else the module's. -/
def State.islandReset (s : State) (i : Island) (no : BitVec 24) : State :=
  match dieOfLogic i.die with
  | some d => s.startDie d ⟨0x9006, no, 0x17, false⟩
  | none => s.startWarm ⟨0x9006, no, 0x17, false⟩

/-- R33: both islands are fenced, with one record. -/
def State.regulatorFault (s : State) (a b : Island) : State :=
  let lo := if a.die ≤ b.die then a.die else b.die
  let (no, s1) := s.recordFault
    { kind := 0x04, status := 0x9006, src := srcHub 11, die := some lo, stack := a.stack <|> b.stack, mech := 0x17
      addr := BitVec.ofNat 64 (packBits [(5, a.die.val), (3, 0), (5, b.die.val), (3, 0), (3, a.kind.val), (5, 0), (3, b.kind.val)]) }
  (s1.islandReset a no).islandReset b no

def execRegulatorFault (a b : Island) (s : State) : Out := .next (if s.pow.mode = .powered then s.regulatorFault a b else s)

/-! ## Resets (R412 to R414) -/

/-- The tile reset that is due. -/
def execTileReset (t : TileId) (s : State) : Out :=
  .next (match mapGet none s.flt.tileCause t.val with
    | none => s
    | some c => { s with flt := { s.flt with tileCause := mapPut none s.flt.tileCause t.val none } }.reset_ (.tile t) c)

/-- Three resets of a die within 24 hours fence it (R414). -/
def State.noteDieReset (s : State) (d : DieId) (mech : Byte) : State :=
  let x := s.die d
  let log := s.time :: x.resetLog.filter fun t => s.time < t + 86400000000000
  let s1 := s.setDie d { x with resetLog := log }
  if 3 ≤ log.length && !x.fenced then
    (((s1.updDie d fun y => { y with fenced := true }).extendRecord duDie d.val 0 0x02).recordFault
      { kind := 0x04, status := 0x900C, src := srcDie d, die := some (logicOfDie d), mech := mech }).2
  else s1

/-- The die reset that is due; resets of its tiles that were due are part of it. -/
def execDieReset (d : DieId) (s : State) : Out :=
  .next (match mapGet none s.flt.dieCause d.val with
    | none => s
    | some c =>
      let s1 := { s with flt := { s.flt with dieCause := mapPut none s.flt.dieCause d.val none
                                             tileCause := s.flt.tileCause.filter fun e => e.1 / 8 ≠ d.val } }
      (s1.reset_ (.die d) c).noteDieReset d c.mech)

/-- The module-warm reset that is due; it waits for the reference clock (R498), and after a sag for the input (R435).
Firmware then starts anew. -/
def execModuleWarmReset (s : State) : Out :=
  .next (match s.flt.warmCause with
    | none => s
    | some c =>
      if !s.pow.refclk || s.pow.sagResetAt.isSome then s
      else { s with flt := { s.flt with warmCause := none } }.reset_ .module c |>.warmRest)

/-- R412: power is removed from everything. -/
def execModuleColdReset (s : State) : Out := .next s.removePower

/-- R414: a tile reset that does not complete becomes its die's. -/
def execTileResetEscalation (t : TileId) (s : State) : Out :=
  .next (match mapGet none s.flt.tileCause t.val with
    | none => s
    | some c => { s with flt := { s.flt with tileCause := mapPut none s.flt.tileCause t.val none } }.startDie (dieOf t) c)

/-- R414: a die reset that does not complete becomes a module-warm reset. -/
def execDieResetEscalation (d : DieId) (s : State) : Out :=
  .next (match mapGet none s.flt.dieCause d.val with
    | none => s
    | some c => s.startWarm c)

/-! ## Post-mortem and diagnostics messages (R415, R417, R418) -/

/-- Where a snapshot stands in a die's firmware reserve, above the context slots. -/
def State.snapPlace (s : State) (d : DieId) (n : BitVec 32) : Nat := d.val * 2 ^ 38 + s.reserveBase d + 675 * mib + n.toNat % 16 * (4 * mib)

/-- Whether a snapshot's copy on a die passes its check. -/
def State.copyOk (s : State) (x : Snapshot) (d : DieId) : Bool :=
  let a := s.snapPlace d x.number
  !(s.poison.any fun l => a ≤ 64 * l && 64 * l < a + x.header.length + x.body.length)

def specReadSnapshot : MsgSpec :=
  { opcode := 0x0A00, bound := 1000000, lenOk := fun n => n = 16, reserved := fun _ => [(127, 76)]
    run := fun s _ b =>
      let v := leNat b
      let off := bits v 63 32
      let n := bits v 75 64
      let pick := if bits v 31 0 = 0xFFFFFFFF then s.flt.snapshots.getLast? else s.flt.snapshots.find? fun x => x.number.toNat = bits v 31 0
      if n = 0 || 4064 < n then ansFail s 0x1003
      else
        match pick with
        | none => ansFail s 0x1009
        | some x =>
          let all := x.header ++ x.body
          let home := x.homeOk && s.copyOk x s.flt.homeDie
          let mirror := x.mirrorOk && s.flt.mirrorDie.any (s.copyOk x)
          if all.length ≤ off then ansFail s 0x1009
          else if !home && !mirror then ansFail s 0x9003
          else ansOk s (natLe (packBits [(32, x.number.toNat), (32, all.length), (1, bnat !home)]) 16 ++ slice all off n) }

/-- Whether a die may run a diagnostic: in no partition, or with no queue holding its tiles but idle or disabled ones,
and no context slot in use (R418). -/
def State.diagReady (s : State) (d : DieId) : Bool :=
  !(s.die d).inReset && ((s.die d).owner.isNone ||
    ((dieTiles d).all (fun t => match (s.tile t).cmd with
      | none => true
      | some c => (s.queue c.queue).state = qIdle || (s.queue c.queue).state = qDisabled)
      && (s.freeSlots d).length = 3 && (s.loanOf d).isNone))

/-- The status that a mechanism's failure gives. -/
def mechStatus (m : Byte) : BitVec 16 :=
  if m = 0x02 then 0x9002 else if m = 0x03 then 0x9005 else if m = 0x13 then 0x9008 else if m = 0x17 then 0x9006
  else if m = 0x01 then 0x9003 else 0x9001

/-- Run a test on a die: fence, test, zero, acquire, return; a failure's record counts towards fencing. -/
def State.diagnose (s : State) (test : Byte) (d : DieId) : State × BitVec 8 × BitVec 8 × BitVec 32 :=
  let (failed, mech, us) := Config.diagnostic s.flt.diags test d.val
  let s0 := { s with flt := { s.flt with diags := s.flt.diags + 1 } }
  let s1 := if test = 4 then (s0.writeBackAll d).1 else s0
  let s2 := ((dieTiles d).foldl (fun a t => a.updTile t Tile.placed) s1).acquireWhole d
  let bad := (dieTiles d).filter fun t => failed.getLsbD (t.val % 8)
  let s3 := if failed = 0 then s2
    else bad.foldl (fun a t => ((a.recordFault
        { kind := 0x01, status := mechStatus mech, src := srcTile t, tile := some t, die := some (logicOfDie d), mech := mech
          part := (s.die d).owner }).2).noteTileFault t mech) s2
  (s3, failed, if failed = 0 then 0 else mech, us)

def specRunDiagnostic : MsgSpec :=
  { opcode := 0x0A02, bound := 200000000, lenOk := fun n => n = 16, reserved := fun _ => [(127, 12)]
    run := fun s _ b =>
      let v := leNat b
      let test := BitVec.ofNat 8 (bits v 7 0)
      match DieId.ofNat? (bits v 11 8) with
      | none => ansFail s 0x1003
      | some d =>
        if test = 0 || 4 < test.toNat then ansFail s 0x1003
        else if !s.diagReady d then ansFail s 0x1009
        else
          let (s1, failed, mech, us) := s.diagnose test d
          ansOk s1 (natLe (packBits [(8, bnat (failed ≠ 0)), (8, failed.toNat), (8, mech.toNat), (40, 0), (32, us.toNat)]) 16) }

/-- Bytes of the firmware trace ring and of a hub's boot SRAM (R418). -/
abbrev fwTraceSize : Nat := 2 ^ 20
abbrev hubSramSize : Nat := 2 ^ 26

def specReadFwTrace : MsgSpec :=
  { opcode := 0x0A03, bound := 1000000, lenOk := fun n => n = 8, reserved := fun _ => [(63, 44)]
    run := fun s _ b =>
      let off := bits (leNat b) 31 0
      let n := bits (leNat b) 43 32
      if n = 0 || 4064 < n || fwTraceSize ≤ off then ansFail s 0x1003
      else
        let k := min n (fwTraceSize - off)
        ansOk { s with flt := { s.flt with diags := s.flt.diags + 1 } }
          (natLe (packBits [(32, fwTraceSize), (32, off)]) 16 ++ (upTo k).map fun i => Config.firmwareTrace s.flt.diags (off + i)) }

def specReadHub : MsgSpec :=
  { opcode := 0x0A04, bound := 1000000, lenOk := fun n => n = 16, reserved := fun _ => [(63, 1), (127, 108)]
    run := fun s _ b =>
      let v := leNat b
      let a := bits v 95 64
      let n := bits v 107 96
      if n = 0 || 4064 < n || hubSramSize < a + n then ansFail s 0x1003
      else ansOk { s with flt := { s.flt with diags := s.flt.diags + 1 } } (natLe (packBits [(32, a), (32, n)]) 16 ++ (upTo n).map fun i => Config.hubMemory s.flt.diags (bits v 0 0) (a + i)) }

def execReadPostMortemArea (m : Msg) (s : State) : Out := .next (s.mailRow specReadSnapshot m true)
def execRunDiagnostic (m : Msg) (s : State) : Out := .next (s.mailRow specRunDiagnostic m true)
def execReadFirmwareTrace (m : Msg) (s : State) : Out := .next (s.mailRow specReadFwTrace m true)
def execReadHubMemory (m : Msg) (s : State) : Out := .next (s.mailRow specReadHub m true)

end Sys2Proof.Machine
end

