-- ==== Sys2Proof/Machine/BootOps.lean ====
section
/-! DEFINITION. The firmware image and its checks, start-up, the readiness record, the seal and the maintenance log
(R309, R462 to R478, R481, R483, R485; notes/assumptions/63.md, 64.md). -/

namespace Sys2Proof.Machine

/-! ## Images (R468, R469) -/

/-- The bytes of an image slot that is open to software: 48 MiB. -/
abbrev imageSlot : Nat := 48 * mib

/-- What the checks of an image read of it: header fields, signed bytes, signatures, the body's digest. -/
structure ImageInfo where
  version : BitVec 32
  tables : BitVec 32
  svn : Nat
  digest : BitVec 384
deriving DecidableEq, Repr

def imageInfo (h : Nat) : ImageInfo :=
  { version := BitVec.ofNat 32 (bits h 127 96), tables := BitVec.ofNat 32 (bits h 191 160), svn := bits h 159 128, digest := BitVec.ofNat 384 (bits h 639 256) }

/-- Check 1 of R469. -/
def headerOk (h : Nat) (stepping : Nat) : Bool :=
  bits h 31 0 = 0x424F4C4B && bits h 47 32 = 1 && bits h 63 48 = 0x0B24 && bit (bits h 95 64) stepping
    && bits h 223 192 % 4096 = 0 && bits h 223 192 + 4096 ≤ imageSlot

/-- The checks of R469 on an image's bytes, in their order: the reason of the first that fails. `floor` asks for check 5. -/
def State.imageFails (s : State) (m : NMap Byte) (floor : Bool) : Option Byte :=
  let hb := bytesAt m 0 4096
  let h := leNat hb
  let i := imageInfo h
  let body := bytesAt m 4096 (bits h 223 192)
  let armed := s.boot.rollback.any fun r => r.1 = i.digest && r.2 = s.flashCounter 0
  if !headerOk h s.boot.stepping.toNat then some 0x01
  else if Config.sha384 body ≠ i.digest then some 0x02
  else if !Config.ecdsaVerifies 0 (hb.take 256) ((hb.drop 256).take 96) then some 0x03
  else if !Config.lmsVerifies 0 (hb.take 256) ((hb.drop 352).take 1772) then some 0x04
  else if floor && i.svn < (s.flashCounter 0).toNat && !armed then some 0x05
  else if i.version.getLsbD 31 && !s.boot.debug then some 0x0C
  else none

/-- What the boot ROM starts: the staged image where 0x0703 asked for it, else the slot's; none is the delivered image. -/
def State.startImage (s : State) : Option (NMap Byte) := if s.boot.startStaged then some s.boot.staging else s.boot.image

/-- The body digest of what the boot ROM starts. -/
def State.startDigest (s : State) : BitVec 384 := match s.startImage with
  | none => Config.deliveredDigest
  | some m => (imageInfo (leNat (bytesAt m 0 4096))).digest

/-! ## Measurements (R304, R474; notes/assumptions/68.md) -/

/-- The licence set as bytes: each feature's value and serial number. -/
def State.licenceBytes (s : State) : Bytes :=
  ([1, 2, 3, 4].map fun f => natLe (packBits [(8, s.licensed f), (24, 0), (32, (s.licence f).elim 0 fun l => l.serial.toNat)]) 8).flatten

/-- The disabled-unit record as bytes: the base positions, then each entry, then the generation. -/
def State.recordBytes (s : State) : Bytes :=
  (allDies.map fun d => mapGet 8 s.boot.basePos d.val)
    ++ (s.boot.entries.map fun e => natLe (packBits [(8, e.kind.toNat), (8, e.unit.toNat), (8, e.sub.toNat), (8, e.cause.toNat), (32, e.gen.toNat), (64, 0)]) 16).flatten
    ++ natLe s.boot.recordGen.toNat 4

/-- The seal as bytes: counter 3, the loop, the jumper, the debug state (R485). -/
def State.sealBytes (s : State) : Bytes :=
  natLe (packBits [(32, (s.flashCounter 3).toNat), (1, bnat s.boot.sealClosed), (1, bnat s.pow.maintJmpN), (1, bnat s.boot.debug)]) 5

/-- SPDM measurements 1 to 5. -/
def State.measurements (s : State) : List (BitVec 384) :=
  [Config.bootRomDigest, s.boot.runDigest, Config.sha384 s.licenceBytes, Config.sha384 s.recordBytes, Config.sha384 s.sealBytes]

/-- The alias key is derived anew (R474). -/
def State.deriveAlias (s : State) (run : BitVec 384) : State :=
  let s1 := { s with boot := { s.boot with runDigest := run } }
  { s1 with boot := { s1.boot with aliasFrom := s1.measurements } }

/-! ## Failed starts (R470, R471) -/

def State.pushReason (s : State) (r : Byte) : State := { s with boot := { s.boot with reasons := (r :: s.boot.reasons).take 3 } }

/-- A reason latched by the always-on logic goes to the boot log. -/
def State.logLatched (s : State) : State :=
  if s.boot.latchedReason = 0 then s
  else
    let s1 := s.pushReason s.boot.latchedReason
    { s1 with boot := { s1.boot with latchedReason := 0 } }

/-- Why a start fails, by what it meets outside and by the image, or the version and tables that it runs. -/
def State.startCheck (s : State) (o : StartOutcome) : Except Byte (BitVec 32 × BitVec 32) :=
  if !o.flashReads then .error 0x01
  else if !o.pufOk then .error 0x08
  else if !o.countersOk then .error 0x09
  else
    match s.startImage with
    | none => if s.boot.recordGen = s.flashCounter 1 then .ok (Config.deliveredVersion, Config.deliveredTables) else .error 0x0A
    | some m =>
      match s.imageFails m true with
      | some r => .error r
      | none =>
        let i := imageInfo (leNat (bytesAt m 0 4096))
        if s.boot.recordGen = s.flashCounter 1 then .ok (i.version, i.tables) else .error 0x0A

/-! ## The seal (R485) -/

/-- Firmware deals with latched openings: counter 3, the log, the latch. -/
def State.serveSeal (s : State) : State :=
  let s1 := (upTo s.boot.sealLatch).foldl (fun a _ =>
    let b := a.raiseCounter 3
    { b with boot := { b.boot with sealLog := b.boot.sealLog ++ [(b.stamp, false)] } }) s
  { s1 with boot := { s1.boot with sealLatch := 0 } }

/-! ## Stacks at a start (R464, R477, R222) -/

/-- A die's region as it is laid out once one of its stacks is gone: what the other holds keeps its stack address. -/
def State.dropStack (s : State) (k : StackId) : State :=
  let d := stackDie k
  let lo := d.val * 2 ^ 38
  let here (a : Nat) : Bool := lo ≤ a && a < lo + 2 ^ 38
  let left (a : Nat) : Bool := s.stackOf d (a - lo) ≠ k
  let mv (a : Nat) : Nat := if here a then lo + s.stackAddr d (a - lo) else a
  { s with mem := (s.mem.filter fun e => !here e.1 || left e.1).foldl (fun (m : List Host.Cell) e => mapPut 0 m (mv e.1) e.2) []
           poison := (s.poison.filter fun l => !here (64 * l) || left (64 * l)).map fun l => mv (64 * l) / 64 }

/-- Firmware finds a stack unusable: at once, and with the die's other stack it fails the die. -/
def State.failStack (s : State) (k : StackId) : State :=
  let s1 := ((s.dropStack k).extendRecord duStack k.val 0 0x04).updStack k fun x => { x with unavailable := true }
  if (dieStacks (stackDie k)).all fun j => (s1.stack j).unavailable then s1.extendRecord duDie (stackDie k).val 0 0x04 else s1

/-- Train the stacks: the codes of R467. -/
def State.trainStacks (s : State) (l : List StackStart) : State :=
  let s0 := allStacks.foldl (fun a k => if a.unitOut duStack k.val then a.updStack k fun x => { x with unavailable := true } else a) s
  let outcome (k : StackId) : StackStart := (l[k.val]?).getD .saved
  let codes := allStacks.map fun k =>
    if (s0.stack k).unavailable then (3 : BitVec 3)
    else match outcome k with | .saved => 0 | .scratch => 1 | .failed => 2
  let s1 := allStacks.foldl (fun a k => if !(a.stack k).unavailable && outcome k = .failed then a.failStack k else a) s0
  { s1 with boot := { s1.boot with stacksStart := codes } }

/-! ## The start (R464, R465) -/

/-- The record takes effect: exchanged tiles serve again, failed dies stay fenced (R26, R27, R477). -/
def State.applyRecord (s : State) : State :=
  let s1 := { s with boot := { s.boot with inForce := s.boot.entries } }
  let s2 := allTiles.foldl (fun a t => a.updTile t fun x => { x with fenced := false, mechLog := if x.fenced then [] else x.mechLog }) s1
  allDies.foldl (fun a d => a.updDie d fun x => { x with fenced := s1.dieFailed d, resetLog := if x.fenced then [] else x.resetLog }) s2

/-- Licences at a start: ports always, partitions at a module-cold one; a store of another generation is set aside
(R480, R481). -/
def State.applyLicences (s : State) : State :=
  let ok := s.boot.licenceGen = s.flashCounter 2
  let s1 := if ok then s else { s with boot := { s.boot with licences := [] } }.event (srcHub 0) 0x0A 0x01
  let cold := s.boot.startKind = 0x01 || s.boot.partsInForce = 0
  { s1 with boot := { s1.boot with portsInForce := BitVec.ofNat 8 (portsOf (s1.licensed 1))
                                   partsInForce := if cold then BitVec.ofNat 8 (partsOf (s1.licensed 2)) else s1.boot.partsInForce } }

/-- The home and mirror dies of this start; where either changes, the staged image and the ageing histories go (R224). -/
def State.placeHome (s : State) : State :=
  let s1 := { s with flt := { s.flt with homeDie := s.chooseHome, mirrorDie := s.chooseMirror } }
  if s.chooseHome = s.flt.homeDie ∧ s.chooseMirror = s.flt.mirrorDie then s1
  else { s1 with boot := { s1.boot with staging := [], stagedTop := 0 }
                 tel := { s1.tel with ageing := s1.tel.ageing.map fun a => { a with history := [] } } }

/-- A trip found at the start is reported and its latch cleared (R437); a latched overcurrent likewise (R493). -/
def State.reportLatches (s : State) : State :=
  let s1 := match s.pow.tripLatched with
    | none => s
    | some u =>
      let d := match u with | .die d => packBits [(16, 0), (5, d.val), (1, 0)] | .stack k => packBits [(16, 0), (5, k.val), (1, 1)]
      { s with pow := { s.pow with tripLatched := none } }.event (srcHub 0) 0x03 d
  if s1.pow.overcurrent then
    ({ s1 with pow := { s1.pow with overcurrent := false } }.recordFault { kind := 0x03, status := 0x9009, src := srcHub 11 }).2
  else s1

/-- The hub sequence of a start that the boot ROM lets go on. -/
def State.startFirmware (s : State) (o : StartOutcome) (version tables : BitVec 32) : State :=
  let s1 := { s with boot := { s.boot with running := true, fwVersion := version, fnTables := tables, startStaged := false
                                           pcieRate := o.pcieRate, pcieWidth := o.pcieWidth, recordAvail := false }
                     flt := { s.flt with heartbeat := s.time } }
  ((((s1.applyRecord.applyLicences).deriveAlias s.startDigest).trainStacks o.memStacks).placeHome.reportLatches).serveSeal

/-- Open-string mode (R472). -/
def State.openString (s : State) (o : StartOutcome) : State :=
  let s1 := s.deriveAlias 0
  { s1 with boot := { s1.boot with state := 2, fwVersion := 0, pcieRate := o.pcieRate, pcieWidth := o.pcieWidth } }

/-- A start meets a failed check: the reason goes to the boot log and the module restarts. -/
def State.failStart (s : State) (r : Byte) : State :=
  let v : BitVec 32 := match s.startImage with
    | none => if r = 0x01 then 0 else Config.deliveredVersion
    | some m => if r = 0x01 then 0 else (imageInfo (leNat (bytesAt m 0 4096))).version
  let s1 := s.pushReason r
  { s1 with boot := { s1.boot with failedVersion := v, startKind := 0x02, started := s.time, startStaged := false } }

/-- Whether a start is due: power and the reference clock are there, no reset waits, no firmware runs. -/
def State.startDue (s : State) : Bool :=
  s.pow.mode = .powered && s.pow.refclk && s.flt.warmCause.isNone && s.pow.sagResetAt.isNone && !s.boot.running && s.boot.state ≠ 2

/-- R464, R470: the boot ROM's part of a start. -/
def State.start (s : State) (o : StartOutcome) : State :=
  let s1 := s.logLatched
  if 3 ≤ s1.boot.attempts.toNat then s1.openString o
  else
    let s2 := { s1 with boot := { s1.boot with attempts := s1.boot.attempts + 1 } }
    match s2.startCheck o with
    | .error r => s2.failStart r
    | .ok (v, t) => s2.startFirmware o v t

/-! ## Ready (R465, R467) -/

/-- One port's field of the readiness record. -/
def Port.readiness (x : Port) : List (Nat × Nat) := [(3, x.state.toNat), (9, x.failedLanes.toNat), (1, bnat x.spareUsed), (19, 0)]

/-- The readiness record; `n` are the pseudo-channels that each stack had to retrain. -/
def State.readinessRecord (s : State) (n : List Byte) : Bytes :=
  let b := s.boot
  let saved := b.stacksStart.all fun c => c ≠ 1 && c ≠ 2
  natLe (packBits (
    [(16, 1), (1, bnat saved), (1, bnat (s.boot.savedSettings && b.pcieRate ≠ 0)), (1, bnat (!s.boot.savedSettings || !saved)), (1, bnat b.pcieHeld), (12, 0),
     (32, (s.time - b.started) / 1000000), (8, b.startKind.toNat), (8, (b.attempts - 1).toNat), (48, 0), (4, if b.pcieHeld then 0 else b.pcieRate.toNat),
     (5, if b.pcieHeld then 0 else b.pcieWidth.toNat), (1, bnat (b.pcieRate = 6 && !b.pcieHeld)), (22, 0),
     (31, bitmap ((upTo 31).map fun i => s.unitOut duLink i || s.flt.linksDown.any fun l => l.val = i)), (65, 0)]
    ++ (allStacks.map fun k => [(3, ((b.stacksStart[k.val]?).getD 4).toNat), (1, bnat ((s.stack k).sparesLeft = 0)), (4, 0),
        (8, if (b.stacksStart[k.val]?).getD 4 = 1 then ((n[k.val]?).getD 0).toNat % 65 else 0), (16, 0)]).flatten
    ++ (allPorts.map fun p => (s.port p).readiness).flatten
    ++ [(128, s.unitDigest.toNat), (96, bitmap (allTiles.map s.tileAvailable)), (160, 0)])) 320

/-- Whether every training has ended. -/
def State.trainingOver (s : State) : Bool := allPorts.all fun p => (s.port p).state ≠ 1

/-- R465: the module becomes ready; a wake brings it to Active (R456). -/
def State.becomeReady (s : State) : State :=
  let s1 := { s with boot := { s.boot with pcieHeld := !s.pow.perstN } }
  let (n, s2) := s1.drawBytes 24
  let s3 := { s2 with boot := { s2.boot with readiness := s2.readinessRecord n, state := 1, recordAvail := true, attempts := 0, savedSettings := true } }
  if !s3.pow.waking then s3.workJobs
  else
    let s4 := s3.exitState allDies
    let s5 := { s4 with pow := { s4.pow with waking := false, saved := none, smbAlertN := false, perstLatched := false }
                        side := { s4.side with eventPending := true } }
    (if s.pow.perstLatched then s5.resetHost else s5).retime

/-! ## Power-up (R309, R464) -/

/-- Power reaches the module: PWR_GOOD, and the port sequence starts. -/
def State.powerUp (s : State) : State :=
  if s.pow.mode ≠ .off then s
  else
    { s with pow := { s.pow with mode := .powered, pwrGood := true, enWaits := false }
             boot := { s.boot with state := 0, startKind := 0x01, started := s.time, inForce := s.boot.entries } }.takePorts

end Sys2Proof.Machine
end

