-- ==== Sys2Proof/Machine/BootFam.lean ====
section
/-! DEFINITION. Commands of start-up, firmware update, licences and maintenance (R296, R464 to R466, R470 to R473,
R479 to R486; notes/assumptions/63.md to 66.md). -/

namespace Sys2Proof.Machine

/-! ## Start-up (R464 to R466) -/

/-- R464: the boot ROM's part of a start, from PWR_GOOD or a module-warm reset. -/
def execModuleStart (o : StartOutcome) (s : State) : Out := .next (if s.startDue then s.start o else s)

/-- Whether everything that ready waits for has ended (R465). -/
def State.readyDue (s : State) : Bool :=
  s.pow.mode = .powered && s.boot.running && s.boot.state ≠ 1 && s.boot.state ≠ 2 && s.trainingOver

/-- R465. -/
def execReady (s : State) : Out := .next (if s.readyDue then s.becomeReady else s)

/-- R466: a failed start. -/
def execStartWatchdogExpiry (s : State) : Out :=
  .next (if s.pow.mode = .powered && s.boot.state ≠ 1 && s.boot.state ≠ 2 && s.boot.started + 10000000000 ≤ s.time then
      let s1 := { s with boot := { s.boot with latchedReason := 0x06 }, flt := { s.flt with warmCause := none } }
      s1.startWarm ⟨0x9009, 0, 0, false⟩
    else s)

/-! ## Staging and starting an image (R296, R472, R473) -/

/-- Stage a chunk: bytes from payload byte 16. -/
def specStage : MsgSpec :=
  { opcode := 0x0700, os := true, bound := 5000000, lenOk := fun n => 17 ≤ n && n ≤ 4080
    run := fun s _ b =>
      let v := leNat (b.take 16)
      let off := bits v 31 0
      let n := bits v 47 32
      if n + 16 ≠ b.length then ansFail s 0x100B
      else if bits v 127 48 ≠ 0 then ansFail s 0x1002
      else if imageSlot < off + n then ansFail s 0x1003
      else
        ansOk { s with boot := { s.boot with staging := putBytes s.boot.staging off (slice b 16 n)
                                             stagedTop := max s.boot.stagedTop (off + n) } } }

/-- The reason that the staged image is not valid, none where it is; `floor` asks for the anti-rollback check. -/
def State.stagedFails (s : State) (floor : Bool) : Option Byte :=
  if s.boot.stagedTop = 0 then some 0x01 else s.imageFails s.boot.staging floor

/-- The staged image's header fields. -/
def State.stagedInfo (s : State) : ImageInfo := imageInfo (leNat (bytesAt s.boot.staging 0 4096))

def specVerify : MsgSpec :=
  { opcode := 0x0701, os := true, bound := 2000000000, lenOk := fun n => n = 0
    run := fun s _ _ => ansOk s (natLe (packBits [(32, s.stagedInfo.version.toNat), (1, bnat (s.stagedFails true).isNone), (31, 0)]) 8) }

/-- Commit: the image to the slot, counter 0 to its security version where that is higher, the rollback record cleared. -/
def State.commitImage (s : State) : State :=
  let i := s.stagedInfo
  let s1 := if (s.flashCounter 0).toNat < i.svn then s.setFlashCounter 0 (BitVec.ofNat 32 i.svn) else s
  { s1 with boot := { s1.boot with image := some s.boot.staging, rollback := none } }

def specCommit : MsgSpec :=
  { opcode := 0x0702, os := true, bound := 60000000000, lenOk := fun n => n = 0
    run := fun s _ _ => if (s.stagedFails true).isSome then ansFail s 0x1009 else ansOk s.commitImage }

/-- Answer, then restart by a module-warm reset; from open-string mode the attempt counter becomes 2 and the start has a
kind of its own (R467, R472). -/
def State.restartInto (s : State) (w : Sender) (staged : Bool) : Ans :=
  let os := s.boot.state = 2
  let s1 := s.respond (some w) 0 []
  let s2 := s1.startWarm ⟨0x9009, 0, 0, false⟩
  { s := { s2 with boot := { s2.boot with startStaged := staged, attempts := if os then 2 else s2.boot.attempts
                                          startKind := if os then 0x05 else s2.boot.startKind } }
    later := true }

def specStart : MsgSpec :=
  { opcode := 0x0703, os := true, bound := 10000000, lenOk := fun n => n = 0
    run := fun s w _ => if s.boot.stagedTop = 0 then ansFail s 0x1009 else s.restartInto w true }

def specRestart : MsgSpec :=
  { opcode := 0x0704, os := true, bound := 10000000, lenOk := fun n => n = 0, run := fun s w _ => s.restartInto w false }

/-- R472: the boot log. -/
def State.openReason (s : State) : Bytes :=
  let r (i : Nat) : Nat := ((s.boot.reasons[i]?).getD 0).toNat
  natLe (packBits [(8, r 0), (8, r 1), (8, r 2), (8, s.boot.attempts.toNat), (32, s.boot.failedVersion.toNat), (64, 0)]) 16

def specOpenReason : MsgSpec :=
  { opcode := 0x0A01, os := true, bound := 1000000, lenOk := fun n => n = 0, run := fun s _ _ => ansOk s s.openReason }

def execStageFirmwareChunk (m : Msg) (s : State) : Out := .next (s.mailRow specStage m true)
def execVerifyStagedImage (m : Msg) (s : State) : Out := .next (s.mailRow specVerify m true)
def execCommitStagedImage (m : Msg) (s : State) : Out := .next (s.mailRow specCommit m true)
def execStartStagedImage (m : Msg) (s : State) : Out := .next (s.mailRow specStart m true)
def execRestartFromFlash (m : Msg) (s : State) : Out := .next (s.mailRow specRestart m true)
def execGetOpenStringReason (m : Msg) (s : State) : Out := .next (s.mailRow specOpenReason m true)

/-! ## Licences (R479 to R482) -/

/-- The largest value of a feature. -/
def topValue (f : Nat) : Nat := if f = 1 then 2 else 1

/-- The result code of an install (R480). -/
def State.installResult (s : State) (b : Bytes) : Nat :=
  let v := leNat (b.take 64)
  let f := bits v 55 48
  if !Config.ecdsaVerifies 1 (b.take 64) (slice b 64 96) || !Config.lmsVerifies 1 (b.take 64) (slice b 160 1772) then 1
  else if bits v 223 96 ≠ Config.fingerprint.toNat then 2
  else if bits v 63 56 ≤ s.licensed f then 3
  else if bits v 31 0 ≠ 0x43494C42 || bits v 47 32 ≠ 0x0B24 || f = 0 || 4 < f || topValue f < bits v 63 56 then 4
  else 0

/-- Store a licence; ports train at once (R308, R481). -/
def State.storeLicence (s : State) (b : Bytes) : State :=
  let v := leNat (b.take 64)
  let f := bits v 55 48
  let s1 := s.raiseCounter 2
  let s2 := { s1 with boot := { s1.boot with
    licences := mapPut none s1.boot.licences f (some ⟨BitVec.ofNat 8 (bits v 63 56), BitVec.ofNat 32 (bits v 95 64)⟩)
    licenceGen := s1.flashCounter 2 } }
  if f = 1 then s2.takePorts else s2

def specInstall : MsgSpec :=
  { opcode := 0x0600, bound := 2000000000, lenOk := fun n => n = 2048, reserved := fun _ => [(511, 224), (16383, 15456)]
    run := fun s _ b =>
      let r := s.installResult b
      if r ≠ 0 then ansOk s (natLe r 8)
      else if s.counterFull 2 then ansFail s 0x1009
      else ansOk (s.storeLicence b) (natLe 0 8) }

/-- The value that works now: ports and partitions as they were last taken up (R481, R482). -/
def State.workingValue (s : State) (f : Nat) : Nat :=
  if f = 1 then s.boot.portsInForce.toNat / 12 - 1
  else if f = 2 then bnat (8 ≤ s.boot.partsInForce.toNat)
  else s.licensed f

def State.licenceList (s : State) : Bytes :=
  ([1, 2, 3, 4].map fun f =>
    let v := s.workingValue f
    let l := (s.licence f).filter fun _ => v ≠ 0
    natLe (packBits [(8, v), (8, bnat l.isSome), (16, 0), (32, l.elim 0 fun x => x.serial.toNat)]) 8).flatten
    ++ natLe Config.fingerprint.toNat 16

def specListLicences : MsgSpec :=
  { opcode := 0x0601, bound := 1000000, lenOk := fun n => n = 0, run := fun s _ _ => ansOk s s.licenceList }

def execInstallLicence (m : Msg) (s : State) : Out := .next (s.mailRow specInstall m true)
def execListLicences (m : Msg) (s : State) : Out := .next (s.mailRow specListLicences m true)

/-! ## Maintenance (R483, R484, R486) -/

/-- An accepted maintenance message goes to the presence log, with what gave presence and counter 3. -/
def State.logPresence (s : State) (opcode : Nat) : State :=
  { s with boot := { s.boot with presenceLog := s.boot.presenceLog ++ [(BitVec.ofNat 16 opcode, s.boot.presenceOpen, s.flashCounter 3)] } }

def maintSpec (opcode len : Nat) (rsv : List (Nat × Nat)) (f : State → Sender → Bytes → Ans) : MsgSpec :=
  { opcode := opcode, bound := 60000000000, lenOk := fun n => n = len, reserved := fun _ => rsv
    run := fun s w b => f (s.logPresence opcode) w b }

/-- Whether R481 refuses a removal. -/
def State.removalRefused (s : State) (f : Nat) : Bool :=
  (f = 2 && allParts.any fun p => 2 ≤ p.val && (s.part p).exists_) || (f = 4 && allParts.any fun p => (s.part p).lsState ≠ 0)

def specRemoveLicence : MsgSpec :=
  maintSpec 0x0F00 8 [(63, 8)] fun s _ b =>
    let f := bits (leNat b) 7 0
    if f = 0 || 4 < f then ansFail s 0x1003
    else if (s.licence f).isNone || s.removalRefused f || s.counterFull 2 then ansFail s 0x1009
    else
      let s1 := s.raiseCounter 2
      ansOk { s1 with boot := { s1.boot with licences := mapPut none s1.boot.licences f none, licenceGen := s1.flashCounter 2 } }

/-- Commit an image below the floor, under a rollback record. -/
def specRollBack : MsgSpec :=
  maintSpec 0x0F01 0 [] fun s _ _ =>
    if (s.stagedFails false).isSome then ansFail s 0x1009
    else ansOk { s with boot := { s.boot with image := some s.boot.staging, rollback := some (s.stagedInfo.digest, s.flashCounter 0) } }

/-- The record's extensions go; its base block is kept. -/
def specResetRecord : MsgSpec :=
  maintSpec 0x0F02 0 [] fun s _ _ =>
    if s.counterFull 1 then ansFail s 0x1009
    else
      let s1 := s.raiseCounter 1
      ansOk { s1 with boot := { s1.boot with entries := s1.boot.entries.filter fun e => e.gen = 0, recordGen := s1.flashCounter 1 } }

def specDebugUnlock : MsgSpec :=
  maintSpec 0x0F03 0 [] fun s w _ =>
    let s1 := { s with boot := { s.boot with debug := true } }
    { s := (s1.respond (some w) 0 []).startWarm ⟨0x9009, 0, 0, false⟩, later := true }

def execRemoveLicence (m : Msg) (s : State) : Out := .next (s.mailRow specRemoveLicence m true)
def execRollFirmwareBack (m : Msg) (s : State) : Out := .next (s.mailRow specRollBack m true)
def execResetDisabledUnitRecord (m : Msg) (s : State) : Out := .next (s.mailRow specResetRecord m true)
def execDebugUnlock (m : Msg) (s : State) : Out := .next (s.mailRow specDebugUnlock m true)

end Sys2Proof.Machine
end

