-- ==== Sys2Proof/Machine/PowerFam.lean ====
section
/-! DEFINITION. Power cap, clocks, droop, supply sag, thermal limits, energy, and the power-state messages (R369, R371,
R423 to R453; notes/assumptions/60.md, 61.md, 62.md). -/

namespace Sys2Proof.Machine

/-! ## Clocks and voltages (R425, R426, R33) -/

/-- Compute dies that share a bridge link with one (R20, R31). -/
def adjacentDies (d : DieId) : List DieId :=
  allDies.filter fun e =>
    let (a, b) := ((logicOfDie d).val, (logicOfDie e).val)
    a + 5 = b || b + 5 = a || (a / 5 = b / 5 && (a + 1 = b || b + 1 = a))

/-- The highest clock at or below one that a test accepts, 16 where none does. -/
def highestClock (ok : Nat → Bool) : Nat → Nat
  | 0 => 16
  | n + 1 => if n + 1 ≤ 16 then 16 else if ok (n + 1) then n + 1 else highestClock ok n

/-- A die's clock and the voltage of its curve there. -/
def State.setClock (s : State) (d : DieId) (c : Nat) : State :=
  s.updDie d fun x => { x with clk := BitVec.ofNat 7 c, volt := Config.voltageCurve d.val c }

/-- A die whose voltage stands more than 200 mV above a neighbour's falls until the difference is 200 mV. -/
def State.levelDie (s : State) (d : DieId) : State :=
  let lim := (adjacentDies d).foldl (fun m e => min m ((s.die e).volt + 200)) 2000
  if (s.die d).volt ≤ lim then s else s.setClock d (highestClock (fun c => Config.voltageCurve d.val c ≤ lim) (s.die d).clk.toNat)

/-- Change a die's clock, and level the module's voltages. -/
def State.moveClock (s : State) (d : DieId) (c : Nat) : State :=
  if (s.die d).clk.toNat = c then s
  else
    let s1 := (s.setClock d c).perfAdd (srcDie d) 0x06 1
    (upTo 12).foldl (fun a _ => allDies.foldl (fun b e => b.levelDie e) a) s1

/-- The ceiling of a die's clock: its partition's, unless matched-clock mode is in force (R431). -/
def State.dieCeiling (s : State) (d : DieId) : Nat := ((s.die d).owner.map fun p => (s.part p).fmax.toNat).getD 76

/-- 1.40 GHz (R369). -/
abbrev matchedClock : Nat := 56

/-! ## The perf command (R369, R431) -/

/-- The checks of a perf block. -/
def perfCheck (b : Bytes) : BitVec 16 :=
  let v := leNat b
  if bits v 7 2 ≠ 0 || bits v 15 12 ≠ 0 || bits v 255 23 ≠ 0 then 0x1002
  else if bits v 1 0 = 3 || (if bits v 1 0 = 0 then bits v 22 16 < 16 || 76 < bits v 22 16 else bits v 22 16 ≠ 0) then 0x1003
  else 0

def State.perfRow (s : State) (q : QueueId) (mine : Except Fail Bytes → Bool) (f : State → Bytes → Ans) : State :=
  s.fwRow q 0x13 32 32 mine fun s _ b =>
    let st := perfCheck b
    if st ≠ 0 then ansFail s st else f s b

/-- Set the ceiling of some partitions: their dies come down to it. -/
def State.setCeiling (s : State) (ps : List PartId) (f : BitVec 7) : State :=
  let s1 := ps.foldl (fun a p => a.updPart p fun x => { x with fmax := f }) s
  (allDies.filter fun d => (s.die d).owner.any ps.contains).foldl (fun a d =>
    if s.capo.matched || (a.die d).clk.toNat ≤ f.toNat then a else a.moveClock d f.toNat) s1

/-- R431; a block that cannot be read and the reserved op end here too. -/
def execSetClockCeiling (q : QueueId) (s : State) : Out :=
  .next (s.perfRow q (fun b => !blockOp 1 b && !blockOp 2 b) fun s b =>
    let v := leNat b
    let p := PartId.ofNat (bits v 11 9)
    let f := BitVec.ofNat 7 (bits v 22 16)
    if bit v 8 then ansOk (s.setCeiling (allParts.filter fun r => (s.part r).exists_) f)
    else if (s.part p).exists_ then ansOk (s.setCeiling [p] f) else ansFail s 0x1009)

/-- R369, R371: every die goes to 1.40 GHz; under a cap below 4,000 W the entry writes an event. -/
def execEnterMatchedClock (q : QueueId) (s : State) : Out :=
  .next (s.perfRow q (blockOp 1) fun s _ =>
    let s1 := allDies.foldl (fun a d => a.moveClock d matchedClock) { s with capo := { s.capo with matched := true } }
    ansOk (if s.capo.cap.toNat < 4000 then s1.event (srcHub 1) 0x06 (packBits [(128, 0), (12, 0), (16, s.capo.cap.toNat)]) else s1))

def execLeaveMatchedClock (q : QueueId) (s : State) : Out :=
  .next (s.perfRow q (blockOp 2) fun s _ =>
    ansOk (allDies.foldl (fun a d => a.updDie d fun x => { x with departed := none }) { s with capo := { s.capo with matched := false } }))

/-! ## The module loop (R426) -/

/-- The power that the module may draw, in mW: the cap, below 46 V at most 100 A of input current, or 60% of it under a
sag warning (R424, R434, R492). -/
def Capo.limit (c : Capo) : Nat :=
  let w := if 0 < c.vin.toNat ∧ c.vin.toNat < 4600 then min c.cap.toNat c.vin.toNat else c.cap.toNat
  w * 1000 * (if c.sagHeld then 60 else 100) / 100

/-- Whether a die has work. -/
def State.dieWorks (s : State) (d : DieId) : Bool :=
  (dieTiles d).any fun t => (s.tile t).cmd.isSome || !(s.tile t).dma.ops.isEmpty || !(s.tile t).dma.handed.isEmpty

/-- Divide a power among partitions by their weights; what one cannot use passes to the others. Entries: partition,
weight, the most it can use. -/
def divideCap (total : Nat) : Nat → List (PartId × Nat × Nat) → List (PartId × Nat)
  | 0, ps => ps.map fun p => (p.1, min p.2.2 (total * p.2.1 / max 1 (ps.foldl (fun n q => n + q.2.1) 0)))
  | fuel + 1, ps =>
    let w := max 1 (ps.foldl (fun n q => n + q.2.1) 0)
    let full := ps.filter fun p => p.2.2 ≤ total * p.2.1 / w
    if full.isEmpty then ps.map fun p => (p.1, total * p.2.1 / w)
    else
      full.map (fun p => (p.1, p.2.2)) ++
        divideCap (total - full.foldl (fun n p => n + p.2.2) 0) fuel (ps.filter fun p => !(p.2.2 ≤ total * p.2.1 / w))

/-- R426: the allotments of every die. -/
def State.moduleLoop (s : State) (m : PowerReading) : State :=
  let meas (d : DieId) : Nat := (m.dies[d.val]?).getD 0
  let passive (d : DieId) : Bool := (s.die d).pstate ≠ 0 || (s.die d).owner.isNone
  let total := m.others + allDies.foldl (fun n d => n + meas d) 0
  let rest := s.capo.limit - m.others - (allDies.filter passive).foldl (fun n d => n + meas d) 0
  let busy (p : PartId) : List DieId := (s.partDies p).filter fun d => !passive d && s.dieWorks d
  let need (d : DieId) : Nat := Config.activityPower d.val 76
  let ps := (allParts.filter fun p => !(busy p).isEmpty).map fun p =>
    (p, bits s.capo.weights.toNat (8 * p.val + 7) (8 * p.val), (busy p).foldl (fun n d => n + need d) 0)
  let shares := divideCap rest 8 ps
  let allot (d : DieId) : Nat :=
    if passive d then meas d
    else
      match (s.die d).owner.bind fun p => (shares.find? fun e => e.1 = p).map fun e => (p, e.2) with
      | some (p, share) =>
        if s.dieWorks d then
          let ds := busy p
          let c := highestClock (fun k => ds.foldl (fun n e => n + Config.activityPower e.val k) 0 ≤ share) 76
          let sum := max 1 (ds.foldl (fun n e => n + Config.activityPower e.val c) 0)
          share * Config.activityPower d.val c / sum
        else 0
      | none => 0
  let s1 := { s with capo := { s.capo with input := total } }
  allDies.foldl (fun a d => a.updDie d fun x => { x with allot := allot d }) s1

/-- Note a thermal event of a die or a stack (R436). -/
def State.thermalEvent (s : State) (temp : Int) (unit : Nat) (stack : Bool) : State :=
  (s.event (srcHub 1) 0x02 (packBits [(16, unsigned 16 temp), (5, unit), (1, bnat stack)])).setCause 0 5

/-- The temperatures of link dies and hubs that the loop reads; 115 degrees is a thermal event (R436). -/
def State.readTemps (s : State) (l : List (LogicDie × Int)) : State :=
  (l.filter fun e => (dieOfLogic e.1).isNone).foldl (fun a e =>
    let b := { a with capo := { a.capo with temps := mapPut 0 a.capo.temps e.1.val e.2 } }
    if 115 * 16 ≤ e.2 then b.thermalEvent e.2 e.1.val false else b) s

def execCapoModuleLoop (m : PowerReading) (s : State) : Out :=
  .next (if s.pow.mode = .powered && s.boot.running then (s.moduleLoop m).readTemps m.temps else s)

/-! ## The die loop (R371, R425, R427, R436) -/

/-- Whether the margin below the cap carries a die above 1.6 GHz (R427). -/
def State.boostOk (s : State) (d : DieId) (c : Nat) : Bool :=
  s.capo.input + (Config.activityPower d.val c - Config.activityPower d.val 64) < s.capo.limit

/-- The clock that the loop chooses: matched or limited by ceiling and prediction, by the margin, by temperature. -/
def State.dieTarget (s : State) (d : DieId) (r : DieReading) : Nat :=
  let c0 := if s.capo.matched then min matchedClock r.fits.toNat else min (min 76 (s.dieCeiling d)) r.fits.toNat
  let c1 := if 64 < c0 then highestClock (fun c => c ≤ 64 || s.boostOk d c) c0 else c0
  let hot := 110 * 16 < r.temp || 95 * 16 < max r.stackLow r.stackHigh
  let apart := (adjacentDies d).any fun e => 30 * 16 ≤ r.temp - (s.die e).temp
  let c2 := if hot || apart then min c1 (min ((s.die d).clk.toNat - 1) (Config.thermalClock (s.die d).clk.toNat r.temp (max r.stackLow r.stackHigh))) else c1
  max 16 c2

/-- Thermal events of a reading: 115 and 100 degrees, adjacent dies 30 degrees apart, a target not met at 0.4 GHz. -/
def State.thermalChecks (s : State) (d : DieId) (r : DieReading) : State :=
  let l := logicOfDie d
  let s1 := if 115 * 16 ≤ r.temp then s.thermalEvent r.temp l.val false else s
  let s2 := if 100 * 16 ≤ r.stackLow then s1.thermalEvent r.stackLow (2 * d.val) true else s1
  let s3 := if 100 * 16 ≤ r.stackHigh then s2.thermalEvent r.stackHigh (2 * d.val + 1) true else s2
  let apart := (adjacentDies d).any fun e => 30 * 16 ≤ r.temp - (s.die e).temp || 30 * 16 ≤ (s.die e).temp - r.temp
  let s4 := if apart then s3.thermalEvent r.temp l.val false else s3
  if 110 * 16 < r.temp || 95 * 16 < max r.stackLow r.stackHigh then
    let s5 := s4.perfAdd (srcHub 1) 0x02 1
    if (s.die d).clk.toNat ≤ 16 then s5.event (srcDie d) 0x0F (packBits [(5, l.val), (3, 2)]) else s5
  else s4

/-- Begin and end of a departure from the matched clock (R371). -/
def State.noteDeparture (s : State) (d : DieId) : State :=
  let x := s.die d
  if !s.capo.matched then s
  else if x.clk.toNat < matchedClock then
    (match x.departed with | none => s.setDie d { x with departed := some s.stamp } | some _ => s)
  else
    match x.departed with
    | none => s
    | some b =>
      (s.setDie d { x with departed := none }).event (srcDie d) 0x06
        (packBits [(64, b.toNat), (64, s.stamp.toNat), (12, 2 ^ d.val), (16, s.capo.cap.toNat)])

def State.dieLoop (s : State) (d : DieId) (r : DieReading) : State :=
  let s1 := (s.updDie d fun x => { x with power := r.power, temp := r.temp })
  let s2 := match dieStacks d with
    | [a, b] => (s1.updStack a fun x => { x with temp := r.stackLow }).updStack b fun x => { x with temp := r.stackHigh }
    | _ => s1
  ((s2.moveClock d (s.dieTarget d r)).noteDeparture d).thermalChecks d r

def execDieLoop (d : DieId) (r : DieReading) (s : State) : Out :=
  .next (if s.pow.mode = .powered && s.boot.running && (s.die d).pstate = 0 && !(s.die d).inReset then s.dieLoop d r else s)

/-! ## Stretches (R428, R432) -/

/-- R428: above 5,600 W over 20 us, in mW. -/
def execInputCeilingStretch (avg : Nat) (s : State) : Out :=
  .next (if s.pow.mode = .powered && 5600000 < avg && !s.capo.inputStretch then
      { s with capo := { s.capo with inputStretch := true, stretchAt := s.time } }.perfAdd (srcHub 1) 0x00 1
    else s)

/-- R428: below 4,600 W; the event tells how long the stretch lasted. -/
def execInputCeilingRelease (avg : Nat) (s : State) : Out :=
  .next (if s.capo.inputStretch && avg < 4600000 then
      { s with capo := { s.capo with inputStretch := false } }.event (srcHub 1) 0x05 (min (s.time - s.capo.stretchAt) (2 ^ 32 - 1))
    else s)

/-- R432; further detectors of a die that is stretched add nothing. -/
def execDroopStretch (d : DieId) (_det : Fin 16) (s : State) : Out :=
  .next (if s.pow.mode = .powered && !(s.die d).droop && (s.die d).pstate = 0 then
      (((s.updDie d fun x => { x with droop := true }).perfAdd (srcDie d) 0x05 1).event (srcDie d) 0x0F (logicOfDie d).val)
    else s)

def execDroopRelease (d : DieId) (s : State) : Out :=
  .next (if (s.die d).droop then s.updDie d fun x => { x with droop := false } else s)

/-! ## Supply sag (R434, R435) -/

/-- The event of the 60% limit. -/
def State.sagEvent (s : State) (held : Bool) : State :=
  s.event (srcHub 1) 0x04 (packBits [(1, bnat held), (7, 0), (8, s.capo.cap.toNat / 25)])

/-- R434 steps 1 and 2: the pin, the count, the cause; the stretch gives way to the 60% limit. -/
def execSagWarningAssert (s : State) : Out :=
  .next (if s.pow.mode ≠ .powered || s.capo.sagWarn then s
    else
      let n := s.capo.warnings.toNat + 1
      let s1 := { s with
        pow := { s.pow with sagWarnN := false }
        capo := { s.capo with sagWarn := true, sagHeld := true, sagReleasedAt := none
                              warnings := BitVec.ofNat 32 (min n (2 ^ 32 - 1)), warnSat := s.capo.warnSat || 2 ^ 32 - 1 ≤ n } }
      (s1.setCause 0 4).sagEvent true)

def execSagWarningDeassert (s : State) : Out :=
  .next (if s.capo.sagWarn then
      { s with pow := { s.pow with sagWarnN := true }, capo := { s.capo with sagWarn := false, sagReleasedAt := some s.time } }
    else s)

/-- R434 step 3: 10 ms after the deassertion. -/
def execSagLimitRelease (s : State) : Out :=
  .next (match s.capo.sagReleasedAt with
    | some t => if s.capo.sagHeld && t + 10000000 ≤ s.time then
        { s with capo := { s.capo with sagHeld := false, sagReleasedAt := none } }.sagEvent false
      else s
    | none => s)

/-- R435: the fence of the sag reset. -/
def execSagReset (s : State) : Out :=
  .next (if s.pow.mode ≠ .powered || s.pow.sagResetAt.isSome then s
    else
      { s with pow := { s.pow with sagResetAt := some s.time } }.startWarm ⟨0x900A, 0, 0, true⟩)

/-- R435: the input came back in time; the reset goes on. -/
def execSagRecovery (s : State) : Out :=
  .next (match s.pow.sagResetAt with
    | some t => if t + 1000000 ≤ s.time && s.time ≤ t + 20000000 then { s with pow := { s.pow with sagResetAt := none } } else s
    | none => s)

/-- R435: it did not; every rail but the auxiliary one goes, until the input returns. -/
def execSagRecoveryFailure (s : State) : Out :=
  .next (if s.pow.sagResetAt.isSome then
      let s1 := s.removePower
      { s1 with pow := { s1.pow with inputUp := false } }
    else s)

/-! ## Thermal trip (R437) -/

def execThermalTrip (u : ThermalUnit) (s : State) : Out :=
  .next (if s.pow.mode = .off then s
    else
      let s1 := s.removePower
      { s1 with pow := { s1.pow with thermtripN := false, tripLatched := some u, offUntil := none } })

/-! ## Energy (R439 to R443) -/

/-- The most an energy counter holds, in 2^-16 uJ. -/
abbrev energyTop : Nat := (2 ^ 64 - 1) * 2 ^ 16

/-- Add to an energy counter, which saturates. -/
def energyAdd (old n : Nat) : Nat := min energyTop (old + n)

/-- Charge a partition, or overhead where there is none. -/
def State.chargeOwner (s : State) (p : Option PartId) (n : Nat) : State :=
  match p with
  | some q => if (s.part q).exists_ then s.updPart q fun x => { x with energy := energyAdd x.energy n }
    else { s with capo := { s.capo with overhead := energyAdd s.capo.overhead n } }
  | none => { s with capo := { s.capo with overhead := energyAdd s.capo.overhead n } }

/-- Charge a command: its own energy while it is in flight, its queue's and its partition's counters. -/
def State.chargeCmd (s : State) (r : CmdRef) (n : Nat) (est : Bool) : State :=
  match (s.queue r.queue).cfg with
  | none => s.chargeOwner none n
  | some c =>
    let s1 := s.updQueue r.queue fun x =>
      { x with energy := energyAdd x.energy n
               cmds := x.cmds.map fun y => if y.seq = r.seq ∧ (y.depth = 0 ∨ y.stage = .begun) then { y with energy := y.energy + n, est := y.est || est } else y }
    s1.chargeOwner (some c.partition) n

/-- Divide an energy in proportion to shares; what rounding leaves goes to the owner. -/
def State.chargeShares (s : State) (e : Nat) (owner : Option PartId) (est : Bool) (l : List (Option CmdRef × Nat)) : State :=
  let sum := l.foldl (fun n x => n + x.2) 0
  let part (u : Nat) : Nat := e * u / max 1 sum
  let s1 := l.foldl (fun a x => match x.1 with
    | some r => a.chargeCmd r (part x.2) est
    | none => a.chargeOwner owner (part x.2)) s
  s1.chargeOwner owner (e - l.foldl (fun n x => n + part x.2) 0)

/-- Whether a die's energy comes from the activity model (R443). -/
def State.dieModelled (s : State) (d : DieId) (flag : Bool) : Bool := flag || (s.die d).inReset || s.boot.state ≠ 1

/-- A die's interval (R440, R443). -/
def State.dieInterval (s : State) (d : DieId) (e : Nat × Bool) (act : List TileActivity) : State :=
  let m := s.dieModelled d e.2
  let s1 := if m then
      let s2 := s.perfAdd (srcDie d) 0x08 1
      if (s.die d).modelled then s2 else s2.event (srcDie d) 0x0E (logicOfDie d).val
    else s
  (s1.updDie d fun x => { x with modelled := m }).chargeShares e.1 (s.die d).owner m
    ((act.filter fun a => dieOf a.tile = d).map fun a => (a.cmd, a.units))

/-- An interval's charges to everyone. -/
def State.energyInterval (s : State) (e : EnergyReading) : State :=
  let total := (e.dies.foldl (fun n x => n + x.1) 0) + (e.memStacks.foldl (fun n x => n + x.1 + x.2.1) 0)
    + (e.links.foldl (fun n x => n + x.1 + x.2.1) 0) + e.hubs
  let s0 := { s with capo := { s.capo with energy := energyAdd s.capo.energy total, vin := e.vin, iin := e.iin, pin := e.pin } }
  let s1 := allDies.foldl (fun a d => a.dieInterval d ((e.dies[d.val]?).getD (0, false)) e.activity) s0
  let s2 := allStacks.foldl (fun a k => match e.memStacks[k.val]? with
    | none => a
    | some (n, idle, bs) =>
      (a.chargeShares n (a.stackPart k) false (bs.map fun b => (some b.cmd, b.bytes))).chargeOwner (a.stackPart k) idle) s1
  let s3 := e.links.foldl (fun a x => (a.chargeShares x.1 none false (x.2.2.map fun b => (some b.cmd, b.bytes))).chargeOwner none x.2.1) s2
  let s4 := s3.chargeOwner none e.hubs
  if e.dies.any Prod.snd then s4.perfAdd (srcHub 1) 0x01 1 else s4

/-- R439 to R441. -/
def execEnergyInterval (e : EnergyReading) (s : State) : Out := .next (if s.pow.mode = .powered then s.energyInterval e else s)

/-! ## Messages (R424, R446, R451) -/

/-- Enter power state, with the response time of a target (R447). -/
def specPower (target : Nat) : MsgSpec :=
  { opcode := 0x0500, bound := if target = 1 then 100000 else if target = 3 then 100000000 else 10000000, lenOk := fun n => n = 8, reserved := fun _ => [(63, 7)], run := fun s w b => s.powerRequest w b }

/-- R424. -/
def State.setCap (s : State) (b : Bytes) : Ans :=
  let v := leNat b
  let cap := bits v 15 0
  let live := allParts.filter fun p => (s.part p).exists_
  if cap < 1500 || 4600 < cap || live.any (fun p => bits v (64 + 8 * p.val + 7) (64 + 8 * p.val) = 0) then ansFail s 0x1003
  else
    let w := packBits (allParts.map fun p =>
      (8, if live.contains p then bits v (64 + 8 * p.val + 7) (64 + 8 * p.val) else bits s.capo.weights.toNat (8 * p.val + 7) (8 * p.val)))
    ansOk { s with capo := { s.capo with cap := BitVec.ofNat 16 cap, weights := BitVec.ofNat 64 w } }

def specSetCap : MsgSpec :=
  { opcode := 0x0501, bound := 1000000, lenOk := fun n => n = 16, reserved := fun _ => [(63, 16)], run := fun s _ b => s.setCap b }

/-- R451. -/
def State.powerRecord (s : State) : Bytes :=
  natLe (packBits ([(3, (s.sharedState s.healthyDies).toNat), (5, 0)]
    ++ (allParts.map fun p => (3, if (s.part p).exists_ then (s.sharedState (s.partDies p)).toNat else 0))
    ++ [(16, s.capo.cap.toNat), (16, 0), (64, s.capo.weights.toNat), (8, s.pow.last.toNat), (1, bnat s.pow.lastAbort), (119, 0)]
    ++ (upTo 16).map fun c => (16, if 1 ≤ c ∧ c ≤ 9 then (mapGet 0 s.pow.counts c).toNat else 0))) 64

def specGetPower : MsgSpec :=
  { opcode := 0x0502, bound := 1000000, lenOk := fun n => n = 0, run := fun s _ _ => ansOk s s.powerRecord }

def execEnterIdleReady (m : Msg) (s : State) : Out := .next (s.mailRow (specPower 1) m (pwTarget m.payload = 1))
def execEnterDrowse (m : Msg) (s : State) : Out := .next (s.mailRow (specPower 2) m (pwTarget m.payload = 2))
def execEnterDormant (m : Msg) (s : State) : Out := .next (s.mailRow (specPower 3) m (pwTarget m.payload = 3))
/-- R452; an illegal target ends here too. -/
def execEnterActive (m : Msg) (s : State) : Out := .next (s.mailRow (specPower 0) m (pwTarget m.payload = 0 || 3 < pwTarget m.payload))
def execSetPowerCap (m : Msg) (s : State) : Out := .next (s.mailRow specSetCap m true)
def execGetPowerState (m : Msg) (s : State) : Out := .next (s.mailRow specGetPower m true)

end Sys2Proof.Machine
end

