-- ==== Sys2Proof/Machine/TelemetryFam.lean ====
section
/-! DEFINITION. Telemetry: the read-counters message, the trace, the ageing monitors (R509 to R518; notes/assumptions/69.md). -/

namespace Sys2Proof.Machine

/-! ## Read counters (R510 to R512) -/

/-- How many performance and error counters a source has, none for a source that does not exist (R505, R510). -/
def counterSets (src : Nat) : Option (Nat × Nat) :=
  let i := src % 4096
  match src / 4096 with
  | 0 => some (0, 0)
  | 1 => if i < 96 then some (11, 4) else none
  | 2 => if i < 12 then some (9, 2) else none
  | 3 => if i < 24 then some (5, 0) else none
  | 4 => if i < 36 then some (4, 3) else none
  | 5 => if i < 6 then some (0, 0) else none
  | 6 => if i < 12 then some (if i = 1 then 3 else 0, 0) else none
  | 7 => if i < 8 then some (0, 0) else none
  | _ => none

/-- The partition to which a source belongs. -/
def State.sourcePart (s : State) (src : Nat) : Option PartId :=
  let i := src % 4096
  match src / 4096 with
  | 0 => (s.queue (QueueId.ofNat i)).cfg.map fun c => c.partition
  | 1 => (TileId.ofNat? i).bind fun t => s.tilePart t
  | 2 => (DieId.ofNat? i).bind fun d => (s.die d).owner
  | 3 => (StackId.ofNat? i).bind fun k => s.stackPart k
  | 7 => some (PartId.ofNat i)
  | _ => none

/-- The energy counter of a source, in 2^-16 uJ. -/
def State.sourceEnergy (s : State) (src : Nat) : Option Nat :=
  let i := src % 4096
  match src / 4096 with
  | 0 => some (s.queue (QueueId.ofNat i)).energy
  | 6 => if i = 0 then some s.capo.energy else if i = 1 then some s.capo.overhead else none
  | 7 => if i < 8 then some (s.part (PartId.ofNat i)).energy else none
  | _ => none

/-- A performance counter's entry: 48 bits and ovf. An error counter's: 32 bits and, at bit 48, its flag. -/
def State.perfEntry (s : State) (src i : Nat) : Nat := (mapGet 0 s.tel.perf (65536 * i + src)).toNat
def State.errEntry (s : State) (src i : Nat) : Nat :=
  let v := (mapGet 0 s.tel.err (65536 * i + src)).toNat
  v % 2 ^ 32 + 2 ^ 48 * (v / 2 ^ 32)

/-- Clear the ovf bits or flags of counters that were sampled. -/
def State.clearCounters (s : State) (set src first n : Nat) : State :=
  (upTo n).foldl (fun a j =>
    let k := 65536 * (first + j) + src
    if set = 0 then { a with tel := { a.tel with perf := mapUpd 0 a.tel.perf k fun v => v &&& 0xFFFFFFFFFFFF } }
    else { a with tel := { a.tel with err := mapUpd 0 a.tel.err k fun v => v &&& 0xFFFFFFFF } }) s

/-- R512. -/
def State.readCounters (s : State) (w : Sender) (b : Bytes) : Ans :=
  let v := leNat b
  let src := bits v 15 0
  let set := bits v 17 16
  let first := bits v 39 32
  let n := bits v 47 40
  if w.confined.any fun p => s.sourcePart src ≠ some p then ansFail s 0x1102
  else
    let stamp := natLe s.stamp.toNat 8
    match set, counterSets src with
    | 2, _ =>
      (match s.sourceEnergy src with
        | none => ansFail s 0x1003
        | some e => if first ≠ 0 || n ≠ 1 then ansFail s 0x1003 else ansOk s (stamp ++ natLe (e / 2 ^ 16) 8))
    | 0, some (k, _) =>
      if n = 0 || 64 < n || k < first + n then ansFail s 0x1003
      else ansOk (if bit v 18 then s.clearCounters 0 src first n else s) (stamp ++ ((upTo n).map fun j => natLe (s.perfEntry src (first + j)) 8).flatten)
    | 1, some (_, k) =>
      if n = 0 || 64 < n || k < first + n then ansFail s 0x1003
      else ansOk (if bit v 18 then s.clearCounters 1 src first n else s) (stamp ++ ((upTo n).map fun j => natLe (s.errEntry src (first + j)) 8).flatten)
    | _, _ => ansFail s 0x1003

def specReadCounters : MsgSpec :=
  { opcode := 0x0800, vf := true, bound := 1000000, lenOk := fun n => n = 8, reserved := fun _ => [(31, 19), (63, 48)]
    run := fun s w b => s.readCounters w b }

def execReadCounters (m : Msg) (s : State) : Out := .next (s.mailRow specReadCounters m true)

/-! ## The trace (R513 to R515, R518) -/

/-- Whether every byte of a buffer is device memory outside the firmware reserves (R223). -/
def State.bufferOk (s : State) (a n : Nat) : Bool :=
  match s.paKind a with
  | .region d o => o + n ≤ s.reserveBase d
  | _ => false

/-- R514: a new configuration starts at slot 0 with phase 1 (R518). -/
def State.configureTrace (s : State) (b : Bytes) : Ans :=
  let v := leNat b
  let size := bits v 68 64
  let buf := bits v 56 0
  if size < 10 || 24 < size || buf % (32 * 2 ^ size) ≠ 0 then ansFail s 0x1003
  else if !bit v 57 && !s.bufferOk buf (32 * 2 ^ size) then ansFail s 0x1104
  else ansOk { s with tel := { s.tel with trace :=
    { buf := BitVec.ofNat 57 buf, host := bit v 57, size := size, enable := bit v 69, ovfEvent := bit v 70
      classes := BitVec.ofNat 8 (bits v 87 80), kinds := BitVec.ofNat 32 (bits v 159 128), written := 0 } } }

def specConfigureTrace : MsgSpec :=
  { opcode := 0x0801, bound := 1000000, lenOk := fun n => n = 32, reserved := fun _ => [(63, 58), (79, 71), (127, 88), (255, 160)]
    run := fun s _ b => s.configureTrace b }

def execConfigureTrace (m : Msg) (s : State) : Out := .next (s.mailRow specConfigureTrace m true)

/-- A record with the phase of its pass: bit 88, 1 on the first pass. -/
def Trace.stamped (c : Trace) (b : Bytes) : Bytes :=
  putBytes (putBytes [] 0 (slice b 0 32)) 11 [BitVec.ofNat 8 ((c.written / 2 ^ c.size + 1) % 2)] |> fun m => bytesAt m 0 32

/-- The mover's overrun bit. -/
def State.moverOverrun (s : State) : State := s.setRing 0 .event { s.ringOf 0 .event with cfg := (s.ringOf 0 .event).cfg ||| 0x400 }

/-- R513, R515: the mover takes a FIFO's oldest record to the buffer; one that cannot be written is dropped. -/
def execTraceMove (fifo : LogicDie) (s : State) : Out :=
  .next (
    let c := s.tel.trace
    let x := s.xq (traceXq fifo)
    match x.words with
    | [] => s
    | w :: ws =>
      if s.pow.mode ≠ .powered || !c.enable then s
      else
        let s1 := s.setXq (traceXq fifo) { x with words := ws }
        let a := c.buf.toNat + 32 * (c.written % 2 ^ c.size)
        match (if c.host then s1.hostWrite a (c.stamped w.1) else s1.agentWrite false a (c.stamped w.1)) with
        | (s2, none) => { s2 with tel := { s2.tel with trace := { c with written := c.written + 1 } } }
        | (s2, some _) => s2.moverOverrun)

/-! ## Ageing (R516, R517) -/

abbrev dayNs : Nat := 86400000000000

/-- The threshold of a monitor: 15 ps; 40% above the baseline; 12 mV. -/
def Ageing.threshold (a : Ageing) : Nat := if a.cls = 1 then 15 else if a.cls = 2 then a.baseline.toNat * 140 / 100 else 12

/-- The latest sample has reached its threshold; an eye also by its width, 0.08 UI. -/
def Ageing.reached (a : Ageing) : Bool :=
  !a.history.isEmpty && (if a.cls = 2 then a.threshold ≤ a.measured.toNat else a.measured.toNat ≤ a.threshold || (a.cls = 3 && a.width ≤ 80))

/-- The samples that the fit takes: (day, value). -/
def Ageing.samples (a : Ageing) (now : Nat) : List (Nat × Nat) :=
  (a.history.filter fun h => now < h.1 + 90 * dayNs).map fun h => (h.1 / dayNs, h.2)

/-- Days to the threshold, and the confidence: at least 30 days of samples, at most 20 years. -/
def Ageing.predict (a : Ageing) (now : Nat) : Nat × Nat :=
  if a.reached then (0, 100)
  else if !(a.history.any fun h => h.1 + 30 * dayNs ≤ now) then (0xFFFFFFFF, 0)
  else
    let r := Config.ageingFit (a.samples now) a.threshold
    (if 7305 < r.1 then 0xFFFFFFFF else r.1, min r.2 100)

/-- The ageing record. -/
def Ageing.record (a : Ageing) (now : Nat) : Nat :=
  let p := a.predict now
  packBits [(8, a.cls.toNat), (8, a.unit.toNat), (4, a.lane.toNat), (12, 0), (32, a.measured.toNat), (32, a.baseline.toNat), (32, a.threshold),
    (32, p.1), (8, p.2), (24, min (a.samples now).length (2 ^ 24 - 1)), (64, a.stamp.toNat)]

/-- The crossings that stand: below 365 days and below 90 with a confidence of 80, the threshold passed. -/
def Ageing.crossings (a : Ageing) (now : Nat) : BitVec 3 :=
  let p := a.predict now
  BitVec.ofNat 3 (bitmap [p.1 < 365 && 80 ≤ p.2, p.1 < 90 && 80 ≤ p.2, a.reached])

/-- The source that a monitor's unit is. -/
def ageingSrc (cls unit : Byte) : BitVec 16 :=
  if cls = 1 then
    match (if h : unit.toNat < 20 then some (⟨unit.toNat, h⟩ : LogicDie) else none) with
    | none => srcHub 0
    | some l =>
      match dieOfLogic l, ((List.finRange 6).find? fun k => logicOfLink k = l) with
      | some d, _ => srcDie d
      | none, some k => srcLink k
      | none, none => srcHub 0
  else if cls = 2 then 0x3000 + unit.setWidth 16
  else 0x4000 + unit.setWidth 16

/-- Whether a unit is there and under power, and a lane pair is one of its trained port's. -/
def State.samplable (s : State) (a : AgeingSample) : Bool :=
  if a.cls = 1 then
    a.lane = 0 && (if h : a.unit.toNat < 20 then
      match dieOfLogic ⟨a.unit.toNat, h⟩ with
      | some d => (s.die d).pstate ≠ 2
      | none => true
    else false)
  else if a.cls = 2 then a.lane = 0 && (StackId.ofNat? a.unit.toNat).any fun k => !(s.stack k).selfRefresh && !(s.stack k).unavailable
  else if a.cls = 3 then
    (PortId.ofNat? a.unit.toNat).any fun p =>
      ((s.port p).state = 2 || (s.port p).state = 3) && a.lane.toNat < 9 && !(s.port p).failedLanes.getLsbD a.lane.toNat
  else false

/-- The record of a unit, empty where it has never been sampled. -/
def State.ageingOf (s : State) (cls unit : Byte) (lane : BitVec 4) : Ageing :=
  (s.tel.ageing.find? fun a => a.cls = cls && a.unit = unit && a.lane = lane).getD ⟨cls, unit, lane, [], 0, 0, 0, 0, 0⟩

/-- Take a sample; each new crossing raises one event. -/
def State.takeSample (s : State) (a : AgeingSample) : State :=
  let old := s.ageingOf a.cls a.unit a.lane
  let n : Ageing := { old with
    history := (old.history.filter fun h => s.time < h.1 + 90 * dayNs) ++ [(s.time, a.value.toNat)]
    measured := a.value, width := a.width, baseline := a.baseline, stamp := s.stamp }
  let now := n.crossings s.time
  let m := { n with crossed := now }
  let s1 := { s with tel := { s.tel with ageing := m :: s.tel.ageing.filter fun x => !(x.cls = a.cls && x.unit = a.unit && x.lane = a.lane) } }
  if now &&& ~~~old.crossed ≠ 0 then s1.event (ageingSrc a.cls a.unit) 0x0C (m.record s.time) else s1

/-- R516. -/
def execAgeingSample (a : AgeingSample) (s : State) : Out :=
  .next (if s.pow.mode = .powered && s.boot.running && s.samplable a then s.takeSample a else s)

/-- R517. -/
def specReadAgeing : MsgSpec :=
  { opcode := 0x0802, bound := 1000000, lenOk := fun n => n = 8, reserved := fun _ => [(63, 20)]
    run := fun s _ b =>
      let v := leNat b
      let cls := bits v 7 0
      let unit := bits v 15 8
      let lane := bits v 19 16
      let there := (cls = 1 && unit < 20 && lane = 0) || (cls = 2 && unit < 24 && lane = 0) || (cls = 3 && unit < 36 && lane < 9)
      if !there then ansFail s 0x1003
      else ansOk s (natLe ((s.ageingOf (BitVec.ofNat 8 cls) (BitVec.ofNat 8 unit) (BitVec.ofNat 4 lane)).record s.time) 32) }

def execReadAgeing (m : Msg) (s : State) : Out := .next (s.mailRow specReadAgeing m true)

end Sys2Proof.Machine
end

