-- ==== Sys2Proof/Machine/MailTable.lean ====
section
/-! DEFINITION. The catalogue of mailbox messages, and messages by command (R261, R290, R292, R520). -/

namespace Sys2Proof.Machine

/-- Every message of R292. -/
def mailTable : List MsgSpec :=
  [specGetIdentity, specGetReadiness, specCreateQueue, specDestroyQueue, specResumeQueue, specHaltQueue, specResumeCompletions,
   partMsg 0x0300 [0], partMsg 0x0301 [1, 2, 4], partMsg 0x0302 [3], specSetChecked, specGetPartition, specSetRoot, specSetScrub,
   specGetHealth, specGetCapacities, specPower 3, specSetCap, specGetPower, specInstall, specListLicences, specStage, specVerify,
   specCommit, specStart, specRestart, specReadCounters, specConfigureTrace, specReadAgeing, specSetModuleId, specLoadPlan,
   specPortStatus, specReadSnapshot, specOpenReason, specRunDiagnostic, specReadFwTrace, specReadHub, specRemoveLicence, specRollBack,
   specResetRecord, specDebugUnlock]

/-! ## Messages by command (R261, R290) -/

/-- Firmware's checks of a message that a command brings (R520): its sequence number is zero, its opcode is known; the
rest as for any sender. -/
def State.servePass (s : State) (c : CmdId) (h : Bytes) (b : Bytes) : Ans :=
  let v := leNat h
  if bits v 95 64 ≠ 0 then ansFail s 0x1004
  else
    match mailTable.find? fun k => k.opcode = bits v 15 0 with
    | none => ansFail s 0x1001
    | some k => s.serve k (.pass c) (bits v 47 32) (bits v 31 16 ≠ 0 || bits v 127 96 ≠ 0) b

/-- R261: the message stands at the address that the command names. -/
def execFwpass (q : QueueId) (s : State) : Out :=
  .next (match s.readyCmd q 0x14 with
    | none => s
    | some x =>
      let c : CmdId := ⟨q, x.id⟩
      let p := s.queuePart q
      let a := x.field 127 64
      match s.vread p a 16 with
      | .error e => (s.beginCmd c).frontFail c e
      | .ok h =>
        let n := min (bits (leNat h) 47 32) 4080
        match (if n = 0 then .ok [] else s.vread p (a + 16) n) with
        | .error e => (s.beginCmd c).frontFail c e
        | .ok b => ((s.beginCmd c).servePass c h b).finish (.pass c))

end Sys2Proof.Machine
end

