-- ==== Sys2Proof/Machine/PinFam.lean ====
section
/-! DEFINITION. Pins, supplies, the reference clock, the wake detector, the seal and presence (R434, R455, R456, R459,
R460, R483, R485, R491 to R498; notes/assumptions/67.md). -/

namespace Sys2Proof.Machine

/-! ## Supplies (R460, R493, R494, R497) -/

/-- The always-on logic loses its supply: its latches go, but what the flash holds (R494). -/
def State.latchesLost (s : State) : State :=
  { s with pow := { s.pow with overcurrent := false, tripLatched := none, perstLatched := false, thermtripN := true }
           boot := { s.boot with latchedReason := 0 } }

/-- Power comes if everything that it needs is there (R437, R493, R497). -/
def State.tryPower (s : State) : State :=
  if s.pow.pwrEn && s.pow.inputUp && s.pow.thermtripN && s.pow.offUntil.isNone then s.powerUp else s

/-- R459. -/
def execPrsntNLow (s : State) : Out := .next { s with pow := { s.pow with prsntN := false } }

/-- R497: an assertion within the off time is ignored until it has passed. -/
def execPwrEnAssert (s : State) : Out :=
  .next (if s.pow.pwrEn then s
    else { s with pow := { s.pow with pwrEn := true, enWaits := s.pow.offUntil.isSome } }.tryPower)

/-- R460; THERMTRIP_N is released, and the off time begins (R437, R497). -/
def execPwrEnDeassert (s : State) : Out :=
  .next (if !s.pow.pwrEn then s
    else
      let s1 := s.removePower
      { s1 with pow := { s1.pow with pwrEn := false, thermtripN := true, enWaits := false, offUntil := some (s1.time + 500000000) } })

/-- R497: the 500 ms have passed. -/
def execOffTimeElapsed (s : State) : Out :=
  .next (match s.pow.offUntil with
    | none => s
    | some t => if s.time < t then s else { s with pow := { s.pow with offUntil := none, enWaits := false } }.tryPower)

/-- R493: above 62 V the hot-swap stage opens. -/
def execInputOvervoltage (s : State) : Out :=
  .next (let s1 := s.removePower
    { s1 with pow := { s1.pow with inputUp := false } })

/-- R460: below 32 V. -/
def execInputLoss (s : State) : Out :=
  .next (let s1 := s.removePower
    let s2 := { s1 with pow := { s1.pow with inputUp := false } }
    if s2.pow.auxUp then s2 else s2.latchesLost)

/-- R493: above 160 A for 50 us; the cause is latched. -/
def execOvercurrent (s : State) : Out :=
  .next (if s.pow.mode = .off then s
    else
      let s1 := s.removePower
      { s1 with pow := { s1.pow with overcurrent := true } })

/-- SLOT_ID is latched as the always-on supply comes up (R496). -/
def State.latchSlot (s : State) : State := { s with pow := { s.pow with latched := s.pow.straps } }

/-- R493: the input is above 44 V again. -/
def execInputReturn (s : State) : Out :=
  .next (if s.pow.inputUp then s
    else
      let s1 := if s.pow.auxUp then s else s.latchSlot
      { s1 with pow := { s1.pow with inputUp := true } }.tryPower)

/-- R494. -/
def execAux3v3Loss (s : State) : Out :=
  .next (if !s.pow.auxUp then s
    else
      let s1 := { s with pow := { s.pow with auxUp := false } }
      if !s.pow.inputUp then s1.latchesLost
      else if s.pow.mode = .powered && s.boot.running then s1.event (srcHub 11) 0x0B 0 else s1)

/-- R494, R496. -/
def execAux3v3Return (s : State) : Out :=
  .next (if s.pow.auxUp then s
    else
      let s1 := if s.pow.inputUp then s else s.latchSlot
      { s1 with pow := { s1.pow with auxUp := true } })

/-- R496: firmware finds the straps changed; the latched value stays. -/
def execSlotIdStrapChange (straps : BitVec 5) (s : State) : Out :=
  .next (let s1 := { s with pow := { s.pow with straps := straps } }
    if s.pow.mode = .powered && s.boot.running && straps ≠ s.pow.latched then
      s1.event (srcHub 0) 0x0B (packBits [(1, 1), (5, straps.toNat)])
    else s1)

/-! ## The reference clock (R498) -/

/-- The ports that run, or train, go down. -/
def State.allPortsDown (s : State) : State :=
  (allPorts.filter fun i => (s.port i).state ≠ 0 && (s.port i).state ≠ 4 && (s.port i).state ≠ 6).foldl (fun a i => a.portDown i) s

/-- R498. -/
def execRefclkLoss (s : State) : Out :=
  .next (if !s.pow.refclk then s
    else
      let s1 := { s with pow := { s.pow with refclk := false } }
      if s.pow.mode = .powered then (s1.startWarm ⟨0x9009, 0, 0, false⟩).allPortsDown.holdover else s1)

/-- R498: the reset that waited may now go on. -/
def execRefclkReturn (s : State) : Out := .next { s with pow := { s.pow with refclk := true } }

/-! ## Wake (R455, R456) -/

/-- R455: a match of the latched address, in Dormant only. -/
def execWake (addr : BitVec 7) (s : State) : Out :=
  .next (if s.pow.mode ≠ .dormant || addr ≠ 0x40 + s.pow.latched.setWidth 7 then s
    else
      let s1 := if s.tb.parent.isSome then s.holdover else s
      { s1 with pow := { s1.pow with mode := .powered, waking := true }
                boot := { s1.boot with state := 0, startKind := 0x04, started := s1.time } }.trainPorts)

/-! ## The seal and presence (R483, R485) -/

/-- R485: the opening is latched whatever the power state; firmware that runs deals with it. -/
def execSealOpening (s : State) : Out :=
  .next (if !s.pow.auxUp && !s.pow.inputUp then { s with boot := { s.boot with sealClosed := false } }
    else
      let s1 := { s with boot := { s.boot with sealLatch := s.boot.sealLatch + 1, sealClosed := false } }
      if s.pow.mode = .powered && s.boot.running then s1.serveSeal else s1)

/-- R483: held low for 50 ms, then let go: the window stays for 60 s. -/
def execPresencePress (s : State) : Out :=
  .next { s with boot := { s.boot with presenceOpen := true, presenceCloses := s.time + 60000000000 } }

/-- R483. -/
def execPresenceWindowClose (s : State) : Out :=
  .next (if s.boot.presenceOpen && s.boot.presenceCloses ≤ s.time then { s with boot := { s.boot with presenceOpen := false } } else s)

/-- R483; a jumper fitted behind a closed loop is a seal fault (R485). -/
def execMaintJumperChange (fitted : Bool) (s : State) : Out :=
  .next (let s1 := { s with pow := { s.pow with maintJmpN := !fitted } }
    if fitted && s.boot.sealClosed then { s1 with boot := { s1.boot with sealLog := s1.boot.sealLog ++ [(s1.stamp, true)] } } else s1)

end Sys2Proof.Machine
end

