-- ==== Sys2Proof/Machine/HostRegs.lean ====
section
/-! DEFINITION. The 64-bit registers of BAR0 as a read gives them (R243, R279, R283, R286, R299 to R301). -/

namespace Sys2Proof.Machine

/-! ## Sag and thermal status (R301) -/

/-- The temperature of a logic die. -/
def State.logicTemp (s : State) (l : LogicDie) : Int :=
  match dieOfLogic l with
  | some d => (s.die d).temp
  | none => mapGet 0 s.capo.temps l.val

/-- The highest of some numbered temperatures, the first of equals. -/
def hottest : List (Nat × Int) → Nat × Int
  | [] => (0, 0)
  | e :: es => es.foldl (fun (m : Nat × Int) x => if m.2 < x.2 then x else m) e

def State.hottestDie (s : State) : Nat × Int := hottest ((List.finRange 20).map fun l => (l.val, s.logicTemp l))
def State.hottestStack (s : State) : Nat × Int := hottest (allStacks.map fun k => (k.val, (s.stack k).temp))

def State.vinReg (s : State) : Nat := packBits [(16, s.capo.vin.toNat), (16, s.capo.iin.toNat)]
def State.sagReg (s : State) : Nat :=
  packBits [(1, bnat s.capo.sagWarn), (1, bnat s.capo.sagHeld), (1, bnat s.capo.warnSat), (29, 0), (32, s.capo.warnings.toNat)]
def State.tempReg (s : State) : Nat :=
  packBits [(16, unsigned 16 s.hottestDie.2), (16, unsigned 16 s.hottestStack.2), (5, s.hottestDie.1), (3, 0), (5, s.hottestStack.1)]

/-! ## Identity (R279, R283) -/

/-- Device identifiers of the physical and of a virtual function. -/
def deviceId (f : FnId) : Nat := if f = 0 then 0x0B24 else 0x0B25

def State.bootReg (s : State) : Nat :=
  packBits [(2, s.boot.state.toNat), (6, 0), (8, if s.boot.state = 2 then ((s.boot.reasons.head?).getD 0).toNat else 0),
    (8, s.boot.attempts.toNat), (1, bnat s.boot.recordAvail)]

def State.functionReg (s : State) (f : FnId) : Nat :=
  packBits [(4, f.val), (3, (partOfFn f).elim 0 Fin.val), (1, bnat ((partOfFn f).any fun p => (s.part p).exists_)), (4, s.vfs.toNat)]

/-! ## The mailbox and the rings (R286, R299, R300) -/

def State.mbStatus (s : State) (f : FnId) : Nat :=
  let x := s.fn f
  packBits [(1, bnat x.busy), (1, bnat x.done), (1, bnat x.dbIgnored), (1, bnat x.seqAny), (1, bnat s.presence), (1, bnat (s.boot.state = 2)),
    (26, 0), (32, x.nextSeq.toNat)]

/-- A ring's configuration register; bit 11 of the physical function's event ring is the trace FIFOs'. -/
def State.ringCfgReg (s : State) (f : FnId) (k : RingId) : Nat :=
  let c := (s.ringOf f k).cfg.toNat
  if f = 0 ∧ k = .event then bits c 10 0 + 2 ^ 11 * bnat ((upTo eventXq).any fun i => (s.xq i).overrun) else bits c 9 0

/-- The sixteen 64-bit words of a doorbell page that are not reserved (R243); the page of another partition's queue reads
zero. -/
def State.pageReg (s : State) (f : FnId) (q : QueueId) (o : Nat) : Nat :=
  let x := s.queue q
  if !s.ownsPage f q then 0
  else match o with
    | 0x00 => x.tail.toNat
    | 0x08 => x.cplHead.toNat
    | 0x10 => x.head.toNat
    | 0x18 => x.nextPub.toNat
    | 0x20 => packBits [(3, x.state.toNat), (5, 0), (8, x.reason.toNat)]
    | _ => 0

/-- The 64-bit word at an aligned offset of BAR0; an offset that no table lists reads as zero (R281). -/
def State.bar0Reg (s : State) (f : FnId) (off : Nat) : Nat :=
  let x := s.fn f
  if 0x10000 ≤ off ∧ off < 0x11000 then leNat (bytesAt x.req (off - 0x10000) 8)
  else if 0x11000 ≤ off ∧ off < 0x12000 then leNat (bytesAt x.resp (off - 0x11000) 8)
  else if 0x100000 ≤ off ∧ off < 0x1100000 then s.pageReg f (QueueId.ofNat ((off - 0x100000) / 0x1000)) (off % 0x1000)
  else if 0x1100000 ≤ off ∧ off < 0x1110000 then
    let e := (off - 0x1100000) / 16
    let m := mapGet {} x.msix e
    if msixEntries f ≤ e then 0 else if off % 16 = 0 then m.addr.toNat else m.data.toNat + 2 ^ 32 * m.ctl.toNat
  else match off with
    | 0x0 => packBits [(16, deviceId f), (16, s.boot.stepping.toNat), (16, 1)]
    | 0x8 => packBits [(32, s.boot.fwVersion.toNat), (32, s.boot.romVersion.toNat)]
    | 0x10 => s.bootReg
    | 0x18 => s.functionReg f
    | 0x100 => x.bar2Base.toNat
    | 0x108 => x.bar2Log2.toNat
    | 0x12008 => s.mbStatus f
    | 0x1200000 => x.evr.base.toNat
    | 0x1200008 => s.ringCfgReg f .event
    | 0x1200010 => x.evr.prod.toNat
    | 0x1200018 => x.evr.cons.toNat
    | 0x1200040 => x.flt.base.toNat
    | 0x1200048 => s.ringCfgReg f .fault
    | 0x1200050 => x.flt.prod.toNat
    | 0x1200058 => x.flt.cons.toNat
    | 0x1200080 => x.kevCause.toNat
    | 0x1200088 => x.kevMask.toNat
    | 0x1300000 => if f = 0 then s.vinReg else 0
    | 0x1300008 => if f = 0 then s.capo.pin.toNat else 0
    | 0x1300010 => if f = 0 then s.sagReg else 0
    | 0x1300018 => if f = 0 then s.tempReg else 0
    | _ => 0

end Sys2Proof.Machine
end

