-- ==== Sys2Proof/Machine/SideFam.lean ====
section
/-! DEFINITION. The management sideband and SPDM (R302 to R304, R472, R474; notes/assumptions/68.md). -/

namespace Sys2Proof.Machine

/-- A reply leaves the module. -/
def State.reply (s : State) (v : SpdmVia) (code : BitVec 16) (b : Bytes) : State :=
  { s with side := { s.side with replies := s.side.replies ++ [⟨v, code, b⟩] } }

/-- Whether the sideband answers: with the rails up, firmware or the boot ROM running (R302). -/
def State.sideUp (s : State) : Bool := s.pow.mode = .powered && (s.boot.running || s.boot.state = 2)

/-! ## MCTP control (R302) -/

def execSetEndpointId (eid : BitVec 8) (s : State) : Out :=
  .next (if s.sideUp then { s with side := { s.side with eid := eid } }.reply .sideband 0x01 [eid] else s)

/-! ## PLDM (R303) -/

/-- The seal reads intact (R485). -/
def State.sealIntact (s : State) : Bool := s.flashCounter 3 = 0 && s.boot.sealClosed

/-- A sensor's reading; none for no sensor. -/
def State.sensor (s : State) : PldmSensor → Option Bytes
  | .base => none
  | .inputVoltage => some (natLe s.capo.vin.toNat 2)
  | .inputCurrent => some (natLe s.capo.iin.toNat 2)
  | .inputPower => some (natLe s.capo.pin.toNat 3)
  | .moduleEnergy => some (natLe (s.capo.energy / 2 ^ 16 / 1000000) 8)
  | .hottestDie => some (natLe (unsigned 16 s.hottestDie.2) 2)
  | .hottestStack => some (natLe (unsigned 16 s.hottestStack.2) 2)
  | .stackTemp k => some (natLe (unsigned 16 (s.stack k).temp) 2)
  | .powerState => some [(s.sharedState s.healthyDies).setWidth 8]
  | .sagWarning => some [BitVec.ofNat 8 (bnat s.capo.sagWarn)]
  | .tripLatched => some [BitVec.ofNat 8 (bnat s.pow.tripLatched.isSome)]
  | .sealIntact => some [BitVec.ofNat 8 (bnat s.sealIntact)]

/-- Reading the power state ends the pending event, and with it the alert. -/
def State.readEvent (s : State) (x : PldmSensor) : State :=
  if x = .powerState then { s with side := { s.side with eventPending := false }, pow := { s.pow with smbAlertN := true } } else s

/-- Type 0 and Type 2; in open-string mode Type 0 only. -/
def execPldmRequest (type : BitVec 6) (sensor : PldmSensor) (s : State) : Out :=
  .next (if !s.sideUp then s
    else if type = 0 then s.reply .sideband 0 []
    else if s.boot.state = 2 then s
    else if type ≠ 2 then s.reply .sideband 0x20 []
    else
      match s.sensor sensor with
      | none => s.reply .sideband 0x80 []
      | some b => (s.readEvent sensor).reply .sideband 0 b)

/-! ## SPDM (R304) -/

/-- Whether a carrier is answered: the sideband outside open-string mode, the DOE mailbox while the link is up, neither
without an identity (R302, R472). -/
def State.spdmUp (s : State) (v : SpdmVia) : Bool :=
  (match v with
    | .sideband => s.sideUp && s.boot.state ≠ 2
    | .doe => s.bar0Open)
  && !(s.boot.state = 2 && s.boot.reasons.head? = some 0x08)

/-- An SPDM error response. -/
def State.spdmError (s : State) (v : SpdmVia) (code : Byte) : State := s.reply v 0x7F [code]

/-- A request that needs the version, or the algorithms as well, to have been settled first. -/
def State.spdmRow (s : State) (v : SpdmVia) (settled : List SpdmVia) (f : State → State) : State :=
  if !s.spdmUp v then s else if settled.contains v then f s else s.spdmError v 0x04

/-- The slot 0 certificate chain. -/
def State.chain (s : State) : Bytes := Config.certificateChain s.boot.aliasFrom

/-- R304: version 1.2; what was settled before is dropped. -/
def execGetVersion (v : SpdmVia) (s : State) : Out :=
  .next (if !s.spdmUp v then s
    else
      { s with side := { s.side with versioned := v :: s.side.versioned.filter fun x => x ≠ v
                                     negotiated := s.side.negotiated.filter fun x => x ≠ v } }.reply v 0x04 [0x12])

/-- Certificates, challenge and signed measurements; no session and no key exchange. -/
def execGetCapabilities (v : SpdmVia) (s : State) : Out :=
  .next (s.spdmRow v s.side.versioned fun s => s.reply v 0x61 (natLe 0x16 4))

/-- R304: ECDSA P-384 and SHA-384 only. -/
def execNegotiateAlgorithms (v : SpdmVia) (ecdsaP384 sha384 : Bool) (s : State) : Out :=
  .next (s.spdmRow v s.side.versioned fun s =>
    if ecdsaP384 && sha384 then
      { s with side := { s.side with negotiated := v :: s.side.negotiated.filter fun x => x ≠ v } }.reply v 0x63 [1, 1]
    else s.spdmError v 0x01)

def execGetDigests (v : SpdmVia) (s : State) : Out :=
  .next (s.spdmRow v s.side.negotiated fun s => s.reply v 0x01 (1 :: natLe (Config.sha384 s.chain).toNat 48))

/-- R304: slot 0 only. -/
def execGetCertificate (v : SpdmVia) (slot : BitVec 4) (off len : BitVec 16) (s : State) : Out :=
  .next (s.spdmRow v s.side.negotiated fun s =>
    if slot ≠ 0 || s.chain.length ≤ off.toNat then s.spdmError v 0x01
    else
      let part := (s.chain.drop off.toNat).take len.toNat
      s.reply v 0x02 (natLe part.length 2 ++ natLe (s.chain.length - off.toNat - part.length) 2 ++ part))

/-- R304, R474: signed with the alias key. -/
def execChallenge (v : SpdmVia) (slot : BitVec 4) (nonce : Bytes) (s : State) : Out :=
  .next (s.spdmRow v s.side.negotiated fun s =>
    if slot ≠ 0 then s.spdmError v 0x01
    else
      let body := natLe (Config.sha384 s.chain).toNat 48 ++ nonce
      s.reply v 0x03 (body ++ Config.aliasSign s.boot.aliasFrom body))

/-- The measurements that an index names: one, or 0xFF for all. -/
def State.measured (s : State) (i : Nat) : Option (List (Nat × BitVec 384)) :=
  let all := (upTo 5).map fun j => (j + 1, (s.measurements[j]?).getD 0)
  if i = 0xFF then some all
  else if i = 0 then some []
  else if 5 < i then none
  else some (all.filter fun m => m.1 = i)

/-- R304: signed or unsigned; index 0 asks for the number of measurements. -/
def execGetMeasurements (v : SpdmVia) (index : BitVec 8) (signed : Bool) (nonce : Bytes) (s : State) : Out :=
  .next (s.spdmRow v s.side.negotiated fun s =>
    match s.measured index.toNat with
    | none => s.spdmError v 0x01
    | some l =>
      let body := (if index = 0 then [(5 : Byte)] else (l.map fun m => BitVec.ofNat 8 m.1 :: natLe m.2.toNat 48).flatten) ++ nonce
      s.reply v 0x60 (if signed then body ++ Config.aliasSign s.boot.aliasFrom body else body))

end Sys2Proof.Machine
end

