-- ==== Sys2Proof/Machine/TileAlu.lean ====
section
/-! DEFINITION. The sequencer's arithmetic: alu, immediates, lui and limm (R128, R129). -/

namespace Sys2Proof.Machine

/-- An alu instruction: d = a fn b (R128). -/
def State.aluOp (s : State) (t : TileId) (w : BitVec 32) (fn : Nat) (op : Word → Word → Word) : State :=
  s.issue32 t w (opOf w = 0x00 && fFn w = fn) fun s => s.writeReg t (fD w) (op (s.reg t (fA w)) (s.reg t (fB w))) 4

/-- An immediate instruction: d = op a (R128). -/
def State.immOp (s : State) (t : TileId) (w : BitVec 32) (code : Nat) (op : Word → Word) : State :=
  s.issue32 t w (opOf w = code) fun s => s.writeReg t (fD w) (op (s.reg t (fA w))) 4

/-- Shift amounts are the low six bits. -/
def sh6 (b : Word) : Nat := b.toNat % 64

/-- High 64 bits of the signed and of the unsigned product (R128). -/
def mulhs (a b : Word) : Word := BitVec.ofInt 64 (a.toInt * b.toInt / (2 ^ 64 : Nat))
def mulhu (a b : Word) : Word := BitVec.ofNat 64 (a.toNat * b.toNat / 2 ^ 64)

/-- Division rounds toward zero; by zero it gives all ones; −2^63 by −1 gives −2^63 (R129). -/
def divs (a b : Word) : Word := if b = 0 then BitVec.allOnes 64 else BitVec.ofInt 64 (Int.tdiv a.toInt b.toInt)
def divu (a b : Word) : Word := if b = 0 then BitVec.allOnes 64 else BitVec.ofNat 64 (a.toNat / b.toNat)

/-- Remainders are a − quotient × b; by zero, a (R129). -/
def rems (a b : Word) : Word := if b = 0 then a else a - divs a b * b
def remu (a b : Word) : Word := if b = 0 then a else a - divu a b * b

/-- A Boolean as a register value. -/
def boolWord (c : Bool) : Word := if c then 1 else 0

def sltW (a b : Word) : Word := boolWord (a.slt b)
def sltuW (a b : Word) : Word := boolWord (a.ult b)
def minW (a b : Word) : Word := if a.slt b then a else b
def maxW (a b : Word) : Word := if a.slt b then b else a

/-- shi: imm[7:6] selects the direction, imm[5:0] the amount (R128). -/
def shiW (w : BitVec 32) (a : Word) : Word :=
  let n := bits w.toNat 5 0
  match bits w.toNat 7 6 with
  | 0 => a <<< n
  | 1 => a >>> n
  | _ => a.sshiftRight n

/-- R128 alu 0x000: d = a + b. -/
def execAluAdd (t : TileId) (w : BitVec 32) (s : State) : Out := .next (s.aluOp t w 0x000 (· + ·))
/-- R128 alu 0x001: d = a − b. -/
def execAluSub (t : TileId) (w : BitVec 32) (s : State) : Out := .next (s.aluOp t w 0x001 (· - ·))
/-- R128 alu 0x002. -/
def execAluAnd (t : TileId) (w : BitVec 32) (s : State) : Out := .next (s.aluOp t w 0x002 (· &&& ·))
/-- R128 alu 0x003. -/
def execAluOr (t : TileId) (w : BitVec 32) (s : State) : Out := .next (s.aluOp t w 0x003 (· ||| ·))
/-- R128 alu 0x004. -/
def execAluXor (t : TileId) (w : BitVec 32) (s : State) : Out := .next (s.aluOp t w 0x004 (· ^^^ ·))
/-- R128 alu 0x005: shift left by b[5:0]. -/
def execAluShl (t : TileId) (w : BitVec 32) (s : State) : Out := .next (s.aluOp t w 0x005 fun a b => a <<< sh6 b)
/-- R128 alu 0x006: logical shift right by b[5:0]. -/
def execAluShr (t : TileId) (w : BitVec 32) (s : State) : Out := .next (s.aluOp t w 0x006 fun a b => a >>> sh6 b)
/-- R128 alu 0x007: arithmetic shift right by b[5:0]. -/
def execAluSar (t : TileId) (w : BitVec 32) (s : State) : Out := .next (s.aluOp t w 0x007 fun a b => a.sshiftRight (sh6 b))
/-- R128 alu 0x008: low 64 bits of the product. -/
def execAluMul (t : TileId) (w : BitVec 32) (s : State) : Out := .next (s.aluOp t w 0x008 (· * ·))
/-- R128 alu 0x00A. -/
def execAluMulhs (t : TileId) (w : BitVec 32) (s : State) : Out := .next (s.aluOp t w 0x00A mulhs)
/-- R128 alu 0x00B. -/
def execAluMulhu (t : TileId) (w : BitVec 32) (s : State) : Out := .next (s.aluOp t w 0x00B mulhu)
/-- R129 alu 0x00C. -/
def execAluDivs (t : TileId) (w : BitVec 32) (s : State) : Out := .next (s.aluOp t w 0x00C divs)
/-- R129 alu 0x00D. -/
def execAluDivu (t : TileId) (w : BitVec 32) (s : State) : Out := .next (s.aluOp t w 0x00D divu)
/-- R129 alu 0x00E. -/
def execAluRems (t : TileId) (w : BitVec 32) (s : State) : Out := .next (s.aluOp t w 0x00E rems)
/-- R129 alu 0x00F. -/
def execAluRemu (t : TileId) (w : BitVec 32) (s : State) : Out := .next (s.aluOp t w 0x00F remu)
/-- R128 alu 0x010: d = 1 if a < b signed. -/
def execAluSlt (t : TileId) (w : BitVec 32) (s : State) : Out := .next (s.aluOp t w 0x010 sltW)
/-- R128 alu 0x011: d = 1 if a < b unsigned. -/
def execAluSltu (t : TileId) (w : BitVec 32) (s : State) : Out := .next (s.aluOp t w 0x011 sltuW)
/-- R128 alu 0x012: signed minimum. -/
def execAluMin (t : TileId) (w : BitVec 32) (s : State) : Out := .next (s.aluOp t w 0x012 minW)
/-- R128 alu 0x013: signed maximum. -/
def execAluMax (t : TileId) (w : BitVec 32) (s : State) : Out := .next (s.aluOp t w 0x013 maxW)

/-- R128 op 0x01: d = a + sext(imm). -/
def execAddi (t : TileId) (w : BitVec 32) (s : State) : Out := .next (s.immOp t w 0x01 (· + immS w))
/-- R128 op 0x02: d = a and zext(imm). -/
def execAndi (t : TileId) (w : BitVec 32) (s : State) : Out := .next (s.immOp t w 0x02 (· &&& immZ w))
/-- R128 op 0x03. -/
def execOri (t : TileId) (w : BitVec 32) (s : State) : Out := .next (s.immOp t w 0x03 (· ||| immZ w))
/-- R128 op 0x04. -/
def execXori (t : TileId) (w : BitVec 32) (s : State) : Out := .next (s.immOp t w 0x04 (· ^^^ immZ w))
/-- R128 op 0x05. -/
def execShi (t : TileId) (w : BitVec 32) (s : State) : Out := .next (s.immOp t w 0x05 (shiW w))
/-- R128 op 0x06. -/
def execSlti (t : TileId) (w : BitVec 32) (s : State) : Out := .next (s.immOp t w 0x06 fun a => sltW a (immS w))
/-- R128 op 0x07. -/
def execSltiu (t : TileId) (w : BitVec 32) (s : State) : Out := .next (s.immOp t w 0x07 fun a => sltuW a (immS w))
/-- R128 op 0x08: d = sext(imm) × 2^16. -/
def execLui (t : TileId) (w : BitVec 32) (s : State) : Out := .next (s.immOp t w 0x08 fun _ => immS w <<< 16)

/-- R128 op 0x3A: d = sext(bits 63:32); bits 20:0 are zero. -/
def execLimm (t : TileId) (x : BitVec 64) (s : State) : Out :=
  .next (s.issue64 t x (opOf (lowWord x) = 0x3A) (bits x.toNat 20 0 = 0) fun s =>
    s.writeReg t (fD (lowWord x)) ((highWord x).signExtend 64) 8)

end Sys2Proof.Machine
end

