-- ==== Sys2Proof/Machine/TileMem.lean ====
section
/-! DEFINITION. Scalar loads and stores in the tile's own scratchpad (R130), and the fills of the
instruction store (R124, R126). -/

namespace Sys2Proof.Machine

/-- The fault of a scalar access outside R130 or misaligned (R145 cause 0x02). -/
def State.addrFault (s : State) (t : TileId) : State := s.tileFault t 0x02 0x2003 0 (s.tile t).seq.pc engSeq

/-- Whether a scalar access is in range and aligned (R130). -/
def scalarOk (a : Word) (n : Nat) : Bool := a.toNat + n ≤ scratchSize && a.toNat % n = 0

/-- A scalar load of `n` bytes: `ext` extends the loaded value to the register (R128, R130, R174). -/
def State.load (s : State) (t : TileId) (w : BitVec 32) (code n : Nat) (ext : Nat → Word) : State :=
  s.issue32 t w (opOf w = code) fun s =>
    let a := s.reg t (fA w) + immS w
    if !scalarOk a n then s.addrFault t
    else
      match (s.tile t).scratchRead a.toNat n with
      | .error e => s.failTile t { e with die := some (logicOfDie (dieOf t)) } engSeq
      | .ok b => s.writeReg t (fD w) (ext (leNat b)) 4

/-- A scalar store of the low `n` bytes of d (R128, R130). -/
def State.store (s : State) (t : TileId) (w : BitVec 32) (code n : Nat) : State :=
  s.issue32 t w (opOf w = code) fun s =>
    let a := s.reg t (fA w) + immS w
    if !scalarOk a n then s.addrFault t
    else (s.updTile t fun x => x.scratchWrite a.toNat (natLe (s.reg t (fD w)).toNat n)).advance t 4

/-- Extensions of a loaded value. -/
def zext (v : Nat) : Word := BitVec.ofNat 64 v
def sextN (n v : Nat) : Word := BitVec.ofInt 64 (signed (8 * n) v)

/-- R130 op 0x10. -/
def execLd8u (t : TileId) (w : BitVec 32) (s : State) : Out := .next (s.load t w 0x10 1 zext)
/-- R130 op 0x11. -/
def execLd16u (t : TileId) (w : BitVec 32) (s : State) : Out := .next (s.load t w 0x11 2 zext)
/-- R130 op 0x12. -/
def execLd32u (t : TileId) (w : BitVec 32) (s : State) : Out := .next (s.load t w 0x12 4 zext)
/-- R130 op 0x13. -/
def execLd64 (t : TileId) (w : BitVec 32) (s : State) : Out := .next (s.load t w 0x13 8 zext)
/-- R130 op 0x14. -/
def execLd8s (t : TileId) (w : BitVec 32) (s : State) : Out := .next (s.load t w 0x14 1 (sextN 1))
/-- R130 op 0x15. -/
def execLd16s (t : TileId) (w : BitVec 32) (s : State) : Out := .next (s.load t w 0x15 2 (sextN 2))
/-- R130 op 0x16. -/
def execLd32s (t : TileId) (w : BitVec 32) (s : State) : Out := .next (s.load t w 0x16 4 (sextN 4))
/-- R130 op 0x18. -/
def execSt8 (t : TileId) (w : BitVec 32) (s : State) : Out := .next (s.store t w 0x18 1)
/-- R130 op 0x19. -/
def execSt16 (t : TileId) (w : BitVec 32) (s : State) : Out := .next (s.store t w 0x19 2)
/-- R130 op 0x1A. -/
def execSt32 (t : TileId) (w : BitVec 32) (s : State) : Out := .next (s.store t w 0x1A 4)
/-- R130 op 0x1B. -/
def execSt64 (t : TileId) (w : BitVec 32) (s : State) : Out := .next (s.store t w 0x1B 8)

/-- Blocks that the kernel may hold: 32 in preload mode, 64 otherwise (R124, R126). -/
def Seq.capacity (q : Seq) : Nat := if q.halved then 32 else 64

/-- The block that the next fetch misses: the first word's, or that of a 64-bit instruction's second word. -/
def Seq.missing (q : Seq) : Option Nat :=
  match q.fetch32 with
  | .missing b => some b
  | .outside _ => none
  | .word w =>
    if 0x38 ≤ opOf w then
      match q.fetch64 with
      | .missing b => some b
      | _ => none
    else none

/-- Bytes of a block of the program image; bytes past the image's end are not part of it (R124). -/
def Tile.imageBlock (x : Tile) (b : Nat) : Bytes :=
  bytesAt x.scratch (x.seq.imgBase + 4096 * b) (min 4096 (x.seq.imgLen - 4096 * b))

/-- R124: the block a fetch misses is filled from the image in scratchpad; the least recently used block
gives way. A poisoned word of the image fails the fill (R174). -/
def State.fillStore (s : State) (t : TileId) : State :=
  let x := s.tile t
  if !x.canIssue then s
  else
    match x.seq.missing with
    | none => s
    | some b =>
      match x.scratchRead (x.seq.imgBase + 4096 * b) (min 4096 (x.seq.imgLen - 4096 * b)) with
      | .error e => s.failTile t { e with die := some (logicOfDie (dieOf t)) } engSeq
      | .ok bytes =>
        (s.updSeq t fun q =>
          let keep := q.store.drop (q.store.length + 1 - q.capacity)
          { q with store := keep ++ [⟨b, putBytes [] 0 bytes⟩] }).perfAdd (srcTile t) 0x09 1

/-- R124: fill of a missed block. -/
def execInstructionStoreFill (t : TileId) (s : State) : Out := .next (s.fillStore t)

end Sys2Proof.Machine
end

