-- ==== Sys2Proof/Machine/VecReg.lean ====
section
/-! DEFINITION. The register operations of the vector engine (R152 to R158), one command each: the head
of the tile's vector queue begins and writes its results. -/

namespace Sys2Proof.Machine

/-- An operation of the lane type, its rounding and its sources alone. -/
def State.vecOp (s : State) (t : TileId) (vop : Nat) (op : Lane → RCtl → VArgs → Nat × BitVec 16) : State :=
  s.vecElems t vop fun _ _ l c x => op l c x

/-- vop 0x00. -/
def execVecAdd (t : TileId) (s : State) : Out := .next (s.vecOp t 0x00 (addE false))
/-- vop 0x01. -/
def execVecSub (t : TileId) (s : State) : Out := .next (s.vecOp t 0x01 (addE true))
/-- vop 0x02. -/
def execVecMul (t : TileId) (s : State) : Out := .next (s.vecOp t 0x02 mulE)
/-- vop 0x03. -/
def execFma (t : TileId) (s : State) : Out := .next (s.vecOp t 0x03 (fmaE false))
/-- vop 0x04. -/
def execFnma (t : TileId) (s : State) : Out := .next (s.vecOp t 0x04 (fmaE true))
/-- vop 0x05. -/
def execDiv (t : TileId) (s : State) : Out := .next (s.vecOp t 0x05 divE)
/-- vop 0x06. -/
def execSqrt (t : TileId) (s : State) : Out := .next (s.vecOp t 0x06 sqrtE)
/-- vop 0x07. -/
def execVecMin (t : TileId) (s : State) : Out := .next (s.vecOp t 0x07 (minMaxE false false))
/-- vop 0x08. -/
def execVecMax (t : TileId) (s : State) : Out := .next (s.vecOp t 0x08 (minMaxE true false))
/-- vop 0x09. -/
def execMinnum (t : TileId) (s : State) : Out := .next (s.vecOp t 0x09 (minMaxE false true))
/-- vop 0x0A. -/
def execMaxnum (t : TileId) (s : State) : Out := .next (s.vecOp t 0x0A (minMaxE true true))
/-- vop 0x0B. -/
def execAbs (t : TileId) (s : State) : Out := .next (s.vecOp t 0x0B absE)
/-- vop 0x0C. -/
def execNeg (t : TileId) (s : State) : Out := .next (s.vecOp t 0x0C negE)

/-- A mask of 256 bits from its low bits and the free bits above the last element
(notes/assumptions/34.md). -/
def packMask (n : Nat) (lows : List Bool) (free : Nat → BitVec 64) : BitVec 256 :=
  let hi := (free 0).toNat + 2 ^ 64 * (free 1).toNat + 2 ^ 128 * (free 2).toNat + 2 ^ 192 * (free 3).toNat
  BitVec.ofNat 256 (packBits (lows.map fun b => (1, bnat b)) + 2 ^ n * hi)

/-- vop 0x0D: bit i of k[vd[2:0]] = predicate aux of va, vb; masked-off bits are written 0. -/
def State.vecCmp (s : State) (t : TileId) : State :=
  s.vecRun t 0 0x0D fun s i =>
    let f := vecFields i.word
    let v := (s.tile t).vec
    let l := f.lane
    let rs : List (Bool × BitVec 16) := (upTo l.count).map fun e =>
      if v.on f.mreg e then cmpE l f.aux (v.elem l f.va e) (v.elem l f.vb e) else (false, 0)
    let m := packMask l.count (rs.map Prod.fst) fun j => Config.free64 (s.fresh + j)
    let fl : BitVec 16 := rs.foldl (fun a r => a ||| r.2) 0
    ({ s with fresh := s.fresh + 4 }.updTile t fun x => { x with vec := x.vec.setMask (bits f.vd 2 0) m }.raise fl, some [])

def execCmp (t : TileId) (s : State) : Out := .next (s.vecCmp t)

/-- vop 0x0E: bit i of k[mk] is 1: va; else vb. It writes every element (R149). -/
def State.vecSel (s : State) (t : TileId) : State :=
  s.vecRun t 0 0x0E fun s i =>
    let f := vecFields i.word
    let v := (s.tile t).vec
    let l := f.lane
    let v1 := (upTo l.count).foldl (fun a e => a.setElem l f.vd e (v.elem l (if v.on f.mreg e then f.va else f.vb) e)) v
    (s.updTile t fun x => { x with vec := v1 }, some [])

def execSel (t : TileId) (s : State) : Out := .next (s.vecSel t)

/-- vop 0x0F: va, read as lane type aux[2:0], converted to ety. -/
def execCvt (t : TileId) (s : State) : Out :=
  .next (s.vecElems t 0x0F fun f v l c x =>
    let src := (laneOf (bits f.aux 2 0)).getD .fp32
    cvtE src l c (if x.i < src.count then some (v.elem src f.va x.i) else none))

/-- vop 0x10: function aux[5:0] of va. -/
def State.vecFun (s : State) (t : TileId) : State :=
  s.vecElems t 0x10 fun f _ l c x => funE s.boot.fnTables (bits f.aux 5 0) l c x.a

def execFunOp (t : TileId) (s : State) : Out := .next (s.vecFun t)

/-- vop 0x11. -/
def execVecAnd (t : TileId) (s : State) : Out := .next (s.vecOp t 0x11 (bitE (· &&& ·)))
/-- vop 0x12. -/
def execVecOr (t : TileId) (s : State) : Out := .next (s.vecOp t 0x12 (bitE (· ||| ·)))
/-- vop 0x13. -/
def execVecXor (t : TileId) (s : State) : Out := .next (s.vecOp t 0x13 (bitE (· ^^^ ·)))
/-- vop 0x14. -/
def execVecShl (t : TileId) (s : State) : Out := .next (s.vecOp t 0x14 shlE)
/-- vop 0x15. -/
def execVecShr (t : TileId) (s : State) : Out := .next (s.vecOp t 0x15 shrE)
/-- vop 0x16. -/
def execVecSar (t : TileId) (s : State) : Out := .next (s.vecOp t 0x16 sarE)
/-- vop 0x17. -/
def execMov (t : TileId) (s : State) : Out := .next (s.vecOp t 0x17 fun _ _ x => (x.a, 0))
/-- vop 0x18: va[vb_i mod E]. -/
def execPerm (t : TileId) (s : State) : Out :=
  .next (s.vecElems t 0x18 fun f v l _ x => (v.elem l f.va (x.idx % (l.count : Int)).toNat, 0))
/-- vop 0x19: i. -/
def execIota (t : TileId) (s : State) : Out := .next (s.vecOp t 0x19 fun _ _ x => (x.i, 0))

end Sys2Proof.Machine
end

