-- ==== Sys2Proof/Machine/Dispatch.lean ====
section
/-! DEFINITION. One arm for every command: the direct call of its meaning. -/

namespace Sys2Proof.Machine

def exec (i : Instr) (s : State) : Host.Outcome State Fault Refusal :=
  match i with
  | .aluAdd t w => Sys2Proof.Machine.execAluAdd t w s
  | .aluSub t w => Sys2Proof.Machine.execAluSub t w s
  | .aluAnd t w => Sys2Proof.Machine.execAluAnd t w s
  | .aluOr t w => Sys2Proof.Machine.execAluOr t w s
  | .aluXor t w => Sys2Proof.Machine.execAluXor t w s
  | .aluShl t w => Sys2Proof.Machine.execAluShl t w s
  | .aluShr t w => Sys2Proof.Machine.execAluShr t w s
  | .aluSar t w => Sys2Proof.Machine.execAluSar t w s
  | .aluMul t w => Sys2Proof.Machine.execAluMul t w s
  | .aluMulhs t w => Sys2Proof.Machine.execAluMulhs t w s
  | .aluMulhu t w => Sys2Proof.Machine.execAluMulhu t w s
  | .aluDivs t w => Sys2Proof.Machine.execAluDivs t w s
  | .aluDivu t w => Sys2Proof.Machine.execAluDivu t w s
  | .aluRems t w => Sys2Proof.Machine.execAluRems t w s
  | .aluRemu t w => Sys2Proof.Machine.execAluRemu t w s
  | .aluSlt t w => Sys2Proof.Machine.execAluSlt t w s
  | .aluSltu t w => Sys2Proof.Machine.execAluSltu t w s
  | .aluMin t w => Sys2Proof.Machine.execAluMin t w s
  | .aluMax t w => Sys2Proof.Machine.execAluMax t w s
  | .addi t w => Sys2Proof.Machine.execAddi t w s
  | .andi t w => Sys2Proof.Machine.execAndi t w s
  | .ori t w => Sys2Proof.Machine.execOri t w s
  | .xori t w => Sys2Proof.Machine.execXori t w s
  | .shi t w => Sys2Proof.Machine.execShi t w s
  | .slti t w => Sys2Proof.Machine.execSlti t w s
  | .sltiu t w => Sys2Proof.Machine.execSltiu t w s
  | .lui t w => Sys2Proof.Machine.execLui t w s
  | .limm t x => Sys2Proof.Machine.execLimm t x s
  | .ld8u t w => Sys2Proof.Machine.execLd8u t w s
  | .ld16u t w => Sys2Proof.Machine.execLd16u t w s
  | .ld32u t w => Sys2Proof.Machine.execLd32u t w s
  | .ld64 t w => Sys2Proof.Machine.execLd64 t w s
  | .ld8s t w => Sys2Proof.Machine.execLd8s t w s
  | .ld16s t w => Sys2Proof.Machine.execLd16s t w s
  | .ld32s t w => Sys2Proof.Machine.execLd32s t w s
  | .st8 t w => Sys2Proof.Machine.execSt8 t w s
  | .st16 t w => Sys2Proof.Machine.execSt16 t w s
  | .st32 t w => Sys2Proof.Machine.execSt32 t w s
  | .st64 t w => Sys2Proof.Machine.execSt64 t w s
  | .beq t w => Sys2Proof.Machine.execBeq t w s
  | .bne t w => Sys2Proof.Machine.execBne t w s
  | .blt t w => Sys2Proof.Machine.execBlt t w s
  | .bge t w => Sys2Proof.Machine.execBge t w s
  | .bltu t w => Sys2Proof.Machine.execBltu t w s
  | .bgeu t w => Sys2Proof.Machine.execBgeu t w s
  | .jmp t w => Sys2Proof.Machine.execJmp t w s
  | .call t w => Sys2Proof.Machine.execCall t w s
  | .jr t w => Sys2Proof.Machine.execJr t w s
  | .evsig t w => Sys2Proof.Machine.execEvsig t w s
  | .evwait t w => Sys2Proof.Machine.execEvwait t w s
  | .evwaitRelease t => Sys2Proof.Machine.execEvwaitRelease t s
  | .srrd t w => Sys2Proof.Machine.execSrrd t w s
  | .srwr t w => Sys2Proof.Machine.execSrwr t w s
  | .sync t w => Sys2Proof.Machine.execSync t w s
  | .syncRelease t => Sys2Proof.Machine.execSyncRelease t s
  | .endProgram t w => Sys2Proof.Machine.execEndProgram t w s
  | .tileDone t => Sys2Proof.Machine.execTileDone t s
  | .trap t w => Sys2Proof.Machine.execTrap t w s
  | .wdone t w => Sys2Proof.Machine.execWdone t w s
  | .mma t x => Sys2Proof.Machine.execMma t x s
  | .vec t x => Sys2Proof.Machine.execVec t x s
  | .dma t x => Sys2Proof.Machine.execDma t x s
  | .issueStallRelease t => Sys2Proof.Machine.execIssueStallRelease t s
  | .semSignal t x => Sys2Proof.Machine.execSemSignal t x s
  | .semWait t x => Sys2Proof.Machine.execSemWait t x s
  | .semTake t x => Sys2Proof.Machine.execSemTake t x s
  | .semRead t x => Sys2Proof.Machine.execSemRead t x s
  | .semSet t x => Sys2Proof.Machine.execSemSet t x s
  | .semWaitRelease t => Sys2Proof.Machine.execSemWaitRelease t s
  | .semBudgetExpiry t => Sys2Proof.Machine.execSemBudgetExpiry t s
  | .instructionStoreFill t => Sys2Proof.Machine.execInstructionStoreFill t s
  | .matrixInstructionStart t => Sys2Proof.Machine.execMatrixInstructionStart t s
  | .paneReconfigure t => Sys2Proof.Machine.execPaneReconfigure t s
  | .stationarySetLoaded t p => Sys2Proof.Machine.execStationarySetLoaded t p s
  | .swap t p => Sys2Proof.Machine.execSwap t p s
  | .passEnd t p c => Sys2Proof.Machine.execPassEnd t p c s
  | .readout t p c => Sys2Proof.Machine.execReadout t p c s
  | .spill t p c => Sys2Proof.Machine.execSpill t p c s
  | .reload t p => Sys2Proof.Machine.execReload t p s
  | .operationComplete t e c => Sys2Proof.Machine.execOperationComplete t e c s
  | .vecAdd t => Sys2Proof.Machine.execVecAdd t s
  | .vecSub t => Sys2Proof.Machine.execVecSub t s
  | .vecMul t => Sys2Proof.Machine.execVecMul t s
  | .fma t => Sys2Proof.Machine.execFma t s
  | .fnma t => Sys2Proof.Machine.execFnma t s
  | .div t => Sys2Proof.Machine.execDiv t s
  | .sqrt t => Sys2Proof.Machine.execSqrt t s
  | .vecMin t => Sys2Proof.Machine.execVecMin t s
  | .vecMax t => Sys2Proof.Machine.execVecMax t s
  | .minnum t => Sys2Proof.Machine.execMinnum t s
  | .maxnum t => Sys2Proof.Machine.execMaxnum t s
  | .abs t => Sys2Proof.Machine.execAbs t s
  | .neg t => Sys2Proof.Machine.execNeg t s
  | .cmp t => Sys2Proof.Machine.execCmp t s
  | .sel t => Sys2Proof.Machine.execSel t s
  | .cvt t => Sys2Proof.Machine.execCvt t s
  | .funOp t => Sys2Proof.Machine.execFunOp t s
  | .vecAnd t => Sys2Proof.Machine.execVecAnd t s
  | .vecOr t => Sys2Proof.Machine.execVecOr t s
  | .vecXor t => Sys2Proof.Machine.execVecXor t s
  | .vecShl t => Sys2Proof.Machine.execVecShl t s
  | .vecShr t => Sys2Proof.Machine.execVecShr t s
  | .vecSar t => Sys2Proof.Machine.execVecSar t s
  | .mov t => Sys2Proof.Machine.execMov t s
  | .perm t => Sys2Proof.Machine.execPerm t s
  | .iota t => Sys2Proof.Machine.execIota t s
  | .vld t => Sys2Proof.Machine.execVld t s
  | .vst t => Sys2Proof.Machine.execVst t s
  | .gather t => Sys2Proof.Machine.execGather t s
  | .scatter t => Sys2Proof.Machine.execScatter t s
  | .bcast t => Sys2Proof.Machine.execBcast t s
  | .ext t => Sys2Proof.Machine.execExt t s
  | .kld t => Sys2Proof.Machine.execKld t s
  | .kst t => Sys2Proof.Machine.execKst t s
  | .cbind t => Sys2Proof.Machine.execCbind t s
  | .tmap t => Sys2Proof.Machine.execTmap t s
  | .treduce t => Sys2Proof.Machine.execTreduce t s
  | .ttopk t => Sys2Proof.Machine.execTtopk t s
  | .dmaCopy t => Sys2Proof.Machine.execDmaCopy t s
  | .dmaGather t => Sys2Proof.Machine.execDmaGather t s
  | .dmaScatter t => Sys2Proof.Machine.execDmaScatter t s
  | .segmentComplete t n => Sys2Proof.Machine.execSegmentComplete t n s
  | .scratchpadScrub t e => Sys2Proof.Machine.execScratchpadScrub t e s
  | .zeroingDone t => Sys2Proof.Machine.execZeroingDone t s
  | .dieCacheEviction d line => Sys2Proof.Machine.execDieCacheEviction d line s
  | .cacheClearingDone d => Sys2Proof.Machine.execCacheClearingDone d s
  | .stackRead k a e => Sys2Proof.Machine.execStackRead k a e s
  | .stackWrite k a data e => Sys2Proof.Machine.execStackWrite k a data e s
  | .stackScrub k e => Sys2Proof.Machine.execStackScrub k e s
  | .atomicAdd a => Sys2Proof.Machine.execAtomicAdd a s
  | .atomicSmin a => Sys2Proof.Machine.execAtomicSmin a s
  | .atomicSmax a => Sys2Proof.Machine.execAtomicSmax a s
  | .atomicUmin a => Sys2Proof.Machine.execAtomicUmin a s
  | .atomicUmax a => Sys2Proof.Machine.execAtomicUmax a s
  | .atomicAnd a => Sys2Proof.Machine.execAtomicAnd a s
  | .atomicOr a => Sys2Proof.Machine.execAtomicOr a s
  | .atomicXor a => Sys2Proof.Machine.execAtomicXor a s
  | .atomicSwap a => Sys2Proof.Machine.execAtomicSwap a s
  | .atomicCas a => Sys2Proof.Machine.execAtomicCas a s
  | .atomicFret64Add a => Sys2Proof.Machine.execAtomicFret64Add a s
  | .atomicFret128Add a => Sys2Proof.Machine.execAtomicFret128Add a s
  | .atomicFp32Add a => Sys2Proof.Machine.execAtomicFp32Add a s
  | .counterWindowWrite q seq k c v => Sys2Proof.Machine.execCounterWindowWrite q seq k c v s
  | .counterPoll k => Sys2Proof.Machine.execCounterPoll k s
  | .doorbellTailWrite f q v => Sys2Proof.Machine.execDoorbellTailWrite f q v s
  | .cplHeadWrite f q v => Sys2Proof.Machine.execCplHeadWrite f q v s
  | .commandFetch q => Sys2Proof.Machine.execCommandFetch q s
  | .nop q => Sys2Proof.Machine.execNop q s
  | .matmul q => Sys2Proof.Machine.execMatmul q s
  | .kernel q => Sys2Proof.Machine.execKernel q s
  | .dmaCommand q => Sys2Proof.Machine.execDmaCommand q s
  | .allReduce q => Sys2Proof.Machine.execAllReduce q s
  | .reduceScatter q => Sys2Proof.Machine.execReduceScatter q s
  | .allGather q => Sys2Proof.Machine.execAllGather q s
  | .broadcast q => Sys2Proof.Machine.execBroadcast q s
  | .reduce q => Sys2Proof.Machine.execReduce q s
  | .allToAll q => Sys2Proof.Machine.execAllToAll q s
  | .topKMerge q => Sys2Proof.Machine.execTopKMerge q s
  | .barrier q => Sys2Proof.Machine.execBarrier q s
  | .waitSemaphore q => Sys2Proof.Machine.execWaitSemaphore q s
  | .takeSemaphore q => Sys2Proof.Machine.execTakeSemaphore q s
  | .counterWait q => Sys2Proof.Machine.execCounterWait q s
  | .waitSatisfied q => Sys2Proof.Machine.execWaitSatisfied q s
  | .signalSemaphoreAdd q => Sys2Proof.Machine.execSignalSemaphoreAdd q s
  | .signalSemaphoreSet q => Sys2Proof.Machine.execSignalSemaphoreSet q s
  | .signalDoorbell q => Sys2Proof.Machine.execSignalDoorbell q s
  | .signalWriteValue q => Sys2Proof.Machine.execSignalWriteValue q s
  | .fence q => Sys2Proof.Machine.execFence q s
  | .fenceAcquire q => Sys2Proof.Machine.execFenceAcquire q s
  | .fenceFlush q => Sys2Proof.Machine.execFenceFlush q s
  | .cond q => Sys2Proof.Machine.execCond q s
  | .loop q => Sys2Proof.Machine.execLoop q s
  | .callBuffer q => Sys2Proof.Machine.execCallBuffer q s
  | .ptinval q => Sys2Proof.Machine.execPtinval q s
  | .fwpass q => Sys2Proof.Machine.execFwpass q s
  | .endOfCommandRelease q seq => Sys2Proof.Machine.execEndOfCommandRelease q seq s
  | .completionPublish q => Sys2Proof.Machine.execCompletionPublish q s
  | .queueTimeout q => Sys2Proof.Machine.execQueueTimeout q s
  | .preemption q => Sys2Proof.Machine.execPreemption q s
  | .arrayStopped t => Sys2Proof.Machine.execArrayStopped t s
  | .vectorStopped t => Sys2Proof.Machine.execVectorStopped t s
  | .dmaStopped t => Sys2Proof.Machine.execDmaStopped t s
  | .contextSaveDone q => Sys2Proof.Machine.execContextSaveDone q s
  | .queueRestore q => Sys2Proof.Machine.execQueueRestore q s
  | .partitionCreate r => Sys2Proof.Machine.execPartitionCreate r s
  | .partitionLend r => Sys2Proof.Machine.execPartitionLend r s
  | .partitionReturn r => Sys2Proof.Machine.execPartitionReturn r s
  | .partitionDelete r => Sys2Proof.Machine.execPartitionDelete r s
  | .partitionConfigure r => Sys2Proof.Machine.execPartitionConfigure r s
  | .becomeRoot q => Sys2Proof.Machine.execBecomeRoot q s
  | .resign q => Sys2Proof.Machine.execResign q s
  | .stepForward q => Sys2Proof.Machine.execStepForward q s
  | .setClockCeiling q => Sys2Proof.Machine.execSetClockCeiling q s
  | .enterMatchedClock q => Sys2Proof.Machine.execEnterMatchedClock q s
  | .leaveMatchedClock q => Sys2Proof.Machine.execLeaveMatchedClock q s
  | .getIdentity m => Sys2Proof.Machine.execGetIdentity m s
  | .getReadinessRecord m => Sys2Proof.Machine.execGetReadinessRecord m s
  | .createQueue m => Sys2Proof.Machine.execCreateQueue m s
  | .destroyQueue m => Sys2Proof.Machine.execDestroyQueue m s
  | .resumeQueue m => Sys2Proof.Machine.execResumeQueue m s
  | .haltQueue m => Sys2Proof.Machine.execHaltQueue m s
  | .resumeCompletionPath m => Sys2Proof.Machine.execResumeCompletionPath m s
  | .setCheckedArithmetic m => Sys2Proof.Machine.execSetCheckedArithmetic m s
  | .getPartitionConfiguration m => Sys2Proof.Machine.execGetPartitionConfiguration m s
  | .setTranslationRoot m => Sys2Proof.Machine.execSetTranslationRoot m s
  | .setScrubPeriod m => Sys2Proof.Machine.execSetScrubPeriod m s
  | .getStackHealth m => Sys2Proof.Machine.execGetStackHealth m s
  | .getDieCapacities m => Sys2Proof.Machine.execGetDieCapacities m s
  | .enterIdleReady m => Sys2Proof.Machine.execEnterIdleReady m s
  | .enterDrowse m => Sys2Proof.Machine.execEnterDrowse m s
  | .enterDormant m => Sys2Proof.Machine.execEnterDormant m s
  | .enterActive m => Sys2Proof.Machine.execEnterActive m s
  | .setPowerCap m => Sys2Proof.Machine.execSetPowerCap m s
  | .getPowerState m => Sys2Proof.Machine.execGetPowerState m s
  | .installLicence m => Sys2Proof.Machine.execInstallLicence m s
  | .listLicences m => Sys2Proof.Machine.execListLicences m s
  | .stageFirmwareChunk m => Sys2Proof.Machine.execStageFirmwareChunk m s
  | .verifyStagedImage m => Sys2Proof.Machine.execVerifyStagedImage m s
  | .commitStagedImage m => Sys2Proof.Machine.execCommitStagedImage m s
  | .startStagedImage m => Sys2Proof.Machine.execStartStagedImage m s
  | .restartFromFlash m => Sys2Proof.Machine.execRestartFromFlash m s
  | .readCounters m => Sys2Proof.Machine.execReadCounters m s
  | .configureTrace m => Sys2Proof.Machine.execConfigureTrace m s
  | .readAgeing m => Sys2Proof.Machine.execReadAgeing m s
  | .setModuleIdentifier m => Sys2Proof.Machine.execSetModuleIdentifier m s
  | .loadRoutingTable m => Sys2Proof.Machine.execLoadRoutingTable m s
  | .getPortStatus m => Sys2Proof.Machine.execGetPortStatus m s
  | .readPostMortemArea m => Sys2Proof.Machine.execReadPostMortemArea m s
  | .getOpenStringReason m => Sys2Proof.Machine.execGetOpenStringReason m s
  | .runDiagnostic m => Sys2Proof.Machine.execRunDiagnostic m s
  | .readFirmwareTrace m => Sys2Proof.Machine.execReadFirmwareTrace m s
  | .readHubMemory m => Sys2Proof.Machine.execReadHubMemory m s
  | .removeLicence m => Sys2Proof.Machine.execRemoveLicence m s
  | .rollFirmwareBack m => Sys2Proof.Machine.execRollFirmwareBack m s
  | .resetDisabledUnitRecord m => Sys2Proof.Machine.execResetDisabledUnitRecord m s
  | .debugUnlock m => Sys2Proof.Machine.execDebugUnlock m s
  | .mailboxResponseExpiry f => Sys2Proof.Machine.execMailboxResponseExpiry f s
  | .bar0InvalidAccess f write off size => Sys2Proof.Machine.execBar0InvalidAccess f write off size s
  | .bar2Read f off n => Sys2Proof.Machine.execBar2Read f off n s
  | .bar2Write f off data => Sys2Proof.Machine.execBar2Write f off data s
  | .ringBaseWrite f ring v => Sys2Proof.Machine.execRingBaseWrite f ring v s
  | .ringCfgWrite f ring v => Sys2Proof.Machine.execRingCfgWrite f ring v s
  | .ringConsWrite f ring v => Sys2Proof.Machine.execRingConsWrite f ring v s
  | .kevMaskWrite f v => Sys2Proof.Machine.execKevMaskWrite f v s
  | .msixUnmask f entry => Sys2Proof.Machine.execMsixUnmask f entry s
  | .registerWrite f off data => Sys2Proof.Machine.execRegisterWrite f off data s
  | .flrPhysicalFunction => Sys2Proof.Machine.execFlrPhysicalFunction s
  | .flrVirtualFunction v => Sys2Proof.Machine.execFlrVirtualFunction v s
  | .perstNAssert => Sys2Proof.Machine.execPerstNAssert s
  | .perstNDeassert => Sys2Proof.Machine.execPerstNDeassert s
  | .setEndpointId eid => Sys2Proof.Machine.execSetEndpointId eid s
  | .pldmRequest type sensor => Sys2Proof.Machine.execPldmRequest type sensor s
  | .getVersion v => Sys2Proof.Machine.execGetVersion v s
  | .getCapabilities v => Sys2Proof.Machine.execGetCapabilities v s
  | .negotiateAlgorithms v ecdsaP384 sha384 => Sys2Proof.Machine.execNegotiateAlgorithms v ecdsaP384 sha384 s
  | .getDigests v => Sys2Proof.Machine.execGetDigests v s
  | .getCertificate v slot off len => Sys2Proof.Machine.execGetCertificate v slot off len s
  | .challenge v slot nonce => Sys2Proof.Machine.execChallenge v slot nonce s
  | .getMeasurements v index signed nonce => Sys2Proof.Machine.execGetMeasurements v index signed nonce s
  | .portTrained p pass => Sys2Proof.Machine.execPortTrained p pass s
  | .portRetrainAttempt p => Sys2Proof.Machine.execPortRetrainAttempt p s
  | .codewordReceive p c => Sys2Proof.Machine.execCodewordReceive p c s
  | .laneUnfit p lane retrains => Sys2Proof.Machine.execLaneUnfit p lane retrains s
  | .lossOfSignal p => Sys2Proof.Machine.execLossOfSignal p s
  | .routeThrough p k => Sys2Proof.Machine.execRouteThrough p k s
  | .writePacket k => Sys2Proof.Machine.execWritePacket k s
  | .writeAcknowledgement k => Sys2Proof.Machine.execWriteAcknowledgement k s
  | .readRequest k => Sys2Proof.Machine.execReadRequest k s
  | .readData k => Sys2Proof.Machine.execReadData k s
  | .refusal k => Sys2Proof.Machine.execRefusal k s
  | .resynchronise k => Sys2Proof.Machine.execResynchronise k s
  | .resynchroniseAcknowledgement k => Sys2Proof.Machine.execResynchroniseAcknowledgement k s
  | .retransmissionTimer dst vc seq => Sys2Proof.Machine.execRetransmissionTimer dst vc seq s
  | .packetAbandon dst vc seq => Sys2Proof.Machine.execPacketAbandon dst vc seq s
  | .resynchronisationRepeat dst vc => Sys2Proof.Machine.execResynchronisationRepeat dst vc s
  | .managementPacket p m => Sys2Proof.Machine.execManagementPacket p m s
  | .holdLapse p peer => Sys2Proof.Machine.execHoldLapse p peer s
  | .routingTableLoad detours => Sys2Proof.Machine.execRoutingTableLoad detours s
  | .timeFlit p v => Sys2Proof.Machine.execTimeFlit p v s
  | .timebaseAligned => Sys2Proof.Machine.execTimebaseAligned s
  | .collectiveData k => Sys2Proof.Machine.execCollectiveData k s
  | .chunkSend q seq strand => Sys2Proof.Machine.execChunkSend q seq strand s
  | .collectiveOpening k => Sys2Proof.Machine.execCollectiveOpening k s
  | .closingRound q seq => Sys2Proof.Machine.execClosingRound q seq s
  | .collectiveClosing k => Sys2Proof.Machine.execCollectiveClosing k s
  | .collectiveCredit k => Sys2Proof.Machine.execCollectiveCredit k s
  | .collectiveAbort k => Sys2Proof.Machine.execCollectiveAbort k s
  | .abortCompletion q seq => Sys2Proof.Machine.execAbortCompletion q seq s
  | .progressTimeout q seq => Sys2Proof.Machine.execProgressTimeout q seq s
  | .collectiveDamp k => Sys2Proof.Machine.execCollectiveDamp k s
  | .dampBoundary q seq => Sys2Proof.Machine.execDampBoundary q seq s
  | .collectiveUndamp k => Sys2Proof.Machine.execCollectiveUndamp k s
  | .stagingRestore q seq => Sys2Proof.Machine.execStagingRestore q seq s
  | .barrierRelease q seq => Sys2Proof.Machine.execBarrierRelease q seq s
  | .hashRecord part r blocks => Sys2Proof.Machine.execHashRecord part r blocks s
  | .peerLost part => Sys2Proof.Machine.execPeerLost part s
  | .engineWatchdog e => Sys2Proof.Machine.execEngineWatchdog e s
  | .firmwareHeartbeat => Sys2Proof.Machine.execFirmwareHeartbeat s
  | .heartbeatExpiry => Sys2Proof.Machine.execHeartbeatExpiry s
  | .hubLockstepMismatch fail0 fail1 => Sys2Proof.Machine.execHubLockstepMismatch fail0 fail1 s
  | .crossingQueueMismatch x => Sys2Proof.Machine.execCrossingQueueMismatch x s
  | .bridgeFlitReceive l crcOk => Sys2Proof.Machine.execBridgeFlitReceive l crcOk s
  | .regulatorFault a b => Sys2Proof.Machine.execRegulatorFault a b s
  | .tileReset t => Sys2Proof.Machine.execTileReset t s
  | .dieReset d => Sys2Proof.Machine.execDieReset d s
  | .moduleWarmReset => Sys2Proof.Machine.execModuleWarmReset s
  | .moduleColdReset => Sys2Proof.Machine.execModuleColdReset s
  | .tileResetEscalation t => Sys2Proof.Machine.execTileResetEscalation t s
  | .dieResetEscalation d => Sys2Proof.Machine.execDieResetEscalation d s
  | .capoModuleLoop m => Sys2Proof.Machine.execCapoModuleLoop m s
  | .dieLoop d r => Sys2Proof.Machine.execDieLoop d r s
  | .inputCeilingStretch avg => Sys2Proof.Machine.execInputCeilingStretch avg s
  | .inputCeilingRelease avg => Sys2Proof.Machine.execInputCeilingRelease avg s
  | .droopStretch d det => Sys2Proof.Machine.execDroopStretch d det s
  | .droopRelease d => Sys2Proof.Machine.execDroopRelease d s
  | .sagWarningAssert => Sys2Proof.Machine.execSagWarningAssert s
  | .sagWarningDeassert => Sys2Proof.Machine.execSagWarningDeassert s
  | .sagLimitRelease => Sys2Proof.Machine.execSagLimitRelease s
  | .sagReset => Sys2Proof.Machine.execSagReset s
  | .sagRecovery => Sys2Proof.Machine.execSagRecovery s
  | .sagRecoveryFailure => Sys2Proof.Machine.execSagRecoveryFailure s
  | .thermalTrip u => Sys2Proof.Machine.execThermalTrip u s
  | .energyInterval e => Sys2Proof.Machine.execEnergyInterval e s
  | .wake addr => Sys2Proof.Machine.execWake addr s
  | .prsntNLow => Sys2Proof.Machine.execPrsntNLow s
  | .pwrEnAssert => Sys2Proof.Machine.execPwrEnAssert s
  | .pwrEnDeassert => Sys2Proof.Machine.execPwrEnDeassert s
  | .inputOvervoltage => Sys2Proof.Machine.execInputOvervoltage s
  | .inputLoss => Sys2Proof.Machine.execInputLoss s
  | .overcurrent => Sys2Proof.Machine.execOvercurrent s
  | .aux3v3Loss => Sys2Proof.Machine.execAux3v3Loss s
  | .refclkLoss => Sys2Proof.Machine.execRefclkLoss s
  | .refclkReturn => Sys2Proof.Machine.execRefclkReturn s
  | .moduleStart o => Sys2Proof.Machine.execModuleStart o s
  | .ready => Sys2Proof.Machine.execReady s
  | .startWatchdogExpiry => Sys2Proof.Machine.execStartWatchdogExpiry s
  | .sealOpening => Sys2Proof.Machine.execSealOpening s
  | .presencePress => Sys2Proof.Machine.execPresencePress s
  | .presenceWindowClose => Sys2Proof.Machine.execPresenceWindowClose s
  | .maintJumperChange fitted => Sys2Proof.Machine.execMaintJumperChange fitted s
  | .traceMove fifo => Sys2Proof.Machine.execTraceMove fifo s
  | .ageingSample a => Sys2Proof.Machine.execAgeingSample a s
  | .inputReturn => Sys2Proof.Machine.execInputReturn s
  | .offTimeElapsed => Sys2Proof.Machine.execOffTimeElapsed s
  | .aux3v3Return => Sys2Proof.Machine.execAux3v3Return s
  | .slotIdStrapChange straps => Sys2Proof.Machine.execSlotIdStrapChange straps s
  | .holdRenewal => Sys2Proof.Machine.execHoldRenewal s

end Sys2Proof.Machine
end

