-- ==== Sys2Proof/Machine/Tick.lean ====
section
/-! DEFINITION. What one nanosecond without a command does (notes/assumptions/4.md): the timebase, the clocks of kernels,
the timers of queues and collectives, and firmware's unfinished work go on (R30, R131, R269, R329, R330, R353). -/

namespace Sys2Proof.Machine

/-- The timebase moves by one, by two or not at all, as its rate correction has run up; a held one stands still. -/
def Timebase.tick (t : Timebase) (now : Nat) : Timebase :=
  if t.holdUntil.any fun u => now < u then t
  else
    let r := t.slewed + t.ratePpm
    if 1000000 ≤ r then { t with value := t.value + 2, slewed := r - 1000000 }
    else if r ≤ -1000000 then { t with slewed := r + 1000000 }
    else { t with value := t.value + 1, slewed := r }

/-- CYCLES of a tile that a command occupies, in fortieths of an array cycle: 25 MHz units of its die's clock (R131). -/
def State.tileTick (s : State) (t : Nat) (x : Tile) : Tile :=
  if x.cmd.isNone then x
  else
    let clk := match DieId.ofNat? (t / 8) with
      | some d => (s.die d).clk.toNat
      | none => 0
    { x with seq := { x.seq with cycles := x.seq.cycles + clk } }

/-- One nanosecond. -/
def State.tick (s : State) : State :=
  let s1 := { s with time := s.time + 1 }
  if s.pow.mode ≠ .powered then s1
  else
    let s2 := { s1 with
      tb := s1.tb.tick s1.time
      tiles := s1.tiles.map fun (e : Nat × Tile) => (e.1, s1.tileTick e.1 e.2)
      queues := s1.queues.map fun (e : Nat × Queue) => (e.1, e.2.age 1)
      colls := s1.colls.map fun (k : Coll) => if s1.collTimed k then { k with elapsed := k.elapsed + 1 } else k }
    let s3 := s2.maskedDue
    if s3.boot.running then s3.workJobs else s3

end Sys2Proof.Machine
end

