-- ==== Sys2Proof/Safety.lean ====
section
/-! DEFINITION. What counts as a safe state and a safe run: the canonical forms that every step keeps, and steps that
neither fault nor refuse. -/

namespace Sys2Proof.Machine

/-- A memory in canonical form: addresses strictly rising, no entry equal to what an unlisted address reads as, zero
(notes/assumptions/2.md). -/
abbrev Memory.wf (m : List Host.Cell) : Prop := mapWf (0 : Byte) m

/-- Device memory and host memory are in canonical form. -/
def State.Inv (s : State) : Prop := Memory.wf s.mem ∧ Memory.wf s.host

/-- The block goes on: its next step neither faults nor refuses. -/
def State.goesOn (s : State) : Prop := ∃ t, step s = .next t

end Sys2Proof.Machine
end

