-- ==== Sys2Proof/Safety/Frames.lean ====
section
/-! DEFINITION. The words the statements are written in: what a command leaves unchanged, and what a tile's sequencer
has before it. -/

namespace Sys2Proof.Machine

/-! ## Frames -/

/-- Nothing but tile `t` differs. -/
def State.onlyTile (t : TileId) (s s' : State) : Prop :=
  s' = { s with tiles := s'.tiles } ∧ ∀ u, u ≠ t → s'.tile u = s.tile u

/-- Nothing but the sequencer of tile `t` differs. -/
def State.onlySeq (t : TileId) (s s' : State) : Prop :=
  s.onlyTile t s' ∧ s'.tile t = { s.tile t with seq := (s'.tile t).seq }

/-- What reporting may change: counters and rings of records, and what rings are written into. -/
def State.reportsTo (s s' : State) : Prop :=
  s' = { s with mem := s'.mem, poison := s'.poison, host := s'.host, ctrs := s'.ctrs, ctrWaits := s'.ctrWaits, fns := s'.fns
                msixSent := s'.msixSent, fresh := s'.fresh
                tel := { s.tel with evSeq := s'.tel.evSeq, evAt := s'.tel.evAt, perf := s'.tel.perf, err := s'.tel.err }
                flt := { s.flt with nextNo := s'.flt.nextNo, masked := s'.flt.masked } }

/-- The instruction store holds the same blocks, whatever their order of use (R124). -/
def Seq.sameStore (q q' : Seq) : Prop := ∀ b, q'.held b = q.held b

/-- The sequencer wrote `v` to register `d` and moved `n` bytes on; a write to s0 is discarded (R122). Its status
registers, events and image stay. -/
def Seq.wrote (q q' : Seq) (d : BitVec 5) (v : Word) (n : Word) : Prop :=
  (∀ r, q'.reg r = if r = d ∧ r ≠ 0 then v else q.reg r) ∧ q'.pc = q.pc + n ∧ q.sameStore q'
    ∧ q' = { q with regs := q'.regs, pc := q'.pc, store := q'.store }

/-- The sequencer went to `pc` and changed nothing else. -/
def Seq.wentTo (q q' : Seq) (pc : Word) : Prop :=
  q'.pc = pc ∧ q.sameStore q' ∧ q' = { q with pc := q'.pc, store := q'.store }

/-! ## What a sequencer has before it -/

/-- Tile `t` runs a program and has the 32-bit instruction `w`, an encoding of R128, at its pc. -/
abbrev State.at32 (s : State) (t : TileId) (w : BitVec 32) : Prop :=
  (s.tile t).canIssue = true ∧ (s.tile t).seq.fetch32 = .word w ∧ legal32 w = true

/-- Tile `t` runs a program and has the 64-bit instruction `x` at its pc. -/
abbrev State.at64 (s : State) (t : TileId) (x : BitVec 64) : Prop :=
  (s.tile t).canIssue = true ∧ (s.tile t).seq.fetch64 = .word x ∧ legal32 (lowWord x) = true

end Sys2Proof.Machine
end

