-- ==== Sys2Proof/Certificates/Slice0/Obligations.lean ====
section
/-! DEFINITION. The statements for the provers, family by family of the command table. Each is a closed proposition over
the model's own functions; the tables beside them list the commands of one shape. -/

open Sys2Proof Sys2Proof.Machine

/-! ## The step -/

/-- The block takes the command at the front of its queue (notes/assumptions/4.md). -/
def Obligations.StepTakesFrontCommand : Prop :=
  ∀ (c : Instr) (rest : List Instr) (s : State),
    step { s with pending := c :: rest } = exec c { s with pending := rest }

/-- No command stops the block: every step of every state answers a next state. -/
def Obligations.EveryStepGoesOn : Prop := ∀ s : State, s.goesOn

/-- On an empty queue a nanosecond passes: the model's own choice (notes/assumptions/4.md). The timebase moves on, by one
where no correction is under way and nothing holds it (R30); CYCLES of each occupied tile rises by its die's clock (R131);
queue timers and the progress timers of collectives rise; nothing else changes while firmware has no work left and no masked
error awaits its record. While the module is not powered nothing but the model's clock moves. -/
def Obligations.IdleStepLetsNanosecondPass : Prop :=
  ∀ s : State, s.pending = [] →
    (s.pow.mode ≠ .powered → step s = .next { s with time := s.time + 1 }) ∧
    (s.pow.mode = .powered → s.jobs = [] → (∀ m ∈ s.flt.masked, m.count = 0) →
      ∃ s', step s = .next s'
        ∧ s' = { s with time := s.time + 1, tb := s'.tb, tiles := s'.tiles, queues := s'.queues, colls := s'.colls }
        ∧ (s.tb.holdUntil = none → s.tb.ratePpm = 0 → s.tb.slewed = 0 → s'.tb = { s.tb with value := s.tb.value + 1 })
        ∧ (∀ t, s'.tile t = if (s.tile t).cmd = none then s.tile t else
            { s.tile t with seq := { (s.tile t).seq with cycles := (s.tile t).seq.cycles + (s.die (dieOf t)).clk.toNat } })
        ∧ (∀ q, s'.queue q = { s.queue q with timer := (s'.queue q).timer, timerOf := (s'.queue q).timerOf })
        ∧ s'.colls = s.colls.map fun k => if s.collTimed k then { k with elapsed := k.elapsed + 1 } else k)

/-! ## Tile sequencer: arithmetic (spec/05_tile_programs.md) -/

/-- The alu functions of R128 with the results of R128 and R129: function code, command, value. -/
def Sys2Proof.Machine.aluRules : List (Nat × (TileId → BitVec 32 → Instr) × (Word → Word → Word)) :=
  [(0x000, .aluAdd, fun a b => a + b), (0x001, .aluSub, fun a b => a - b), (0x002, .aluAnd, fun a b => a &&& b),
   (0x003, .aluOr, fun a b => a ||| b), (0x004, .aluXor, fun a b => a ^^^ b),
   (0x005, .aluShl, fun a b => a <<< (b.toNat % 64)), (0x006, .aluShr, fun a b => a >>> (b.toNat % 64)),
   (0x007, .aluSar, fun a b => a.sshiftRight (b.toNat % 64)), (0x008, .aluMul, fun a b => a * b),
   (0x00A, .aluMulhs, fun a b => (a.signExtend 128 * b.signExtend 128).extractLsb' 64 64),
   (0x00B, .aluMulhu, fun a b => (a.setWidth 128 * b.setWidth 128).extractLsb' 64 64),
   (0x00C, .aluDivs, fun a b => if b = 0 then 0xFFFFFFFFFFFFFFFF else a.sdiv b),
   (0x00D, .aluDivu, fun a b => if b = 0 then 0xFFFFFFFFFFFFFFFF else a / b),
   (0x00E, .aluRems, fun a b => a.srem b), (0x00F, .aluRemu, fun a b => a % b),
   (0x010, .aluSlt, fun a b => if a.toInt < b.toInt then 1 else 0),
   (0x011, .aluSltu, fun a b => if a.toNat < b.toNat then 1 else 0),
   (0x012, .aluMin, fun a b => if a.toInt ≤ b.toInt then a else b),
   (0x013, .aluMax, fun a b => if a.toInt ≤ b.toInt then b else a)]


/-- The immediate instructions of R128: opcode, command, value from a and the 16-bit immediate. -/
def Sys2Proof.Machine.immRules : List (Nat × (TileId → BitVec 32 → Instr) × (Word → BitVec 16 → Word)) :=
  [(0x01, .addi, fun a i => a + i.signExtend 64), (0x02, .andi, fun a i => a &&& i.setWidth 64),
   (0x03, .ori, fun a i => a ||| i.setWidth 64), (0x04, .xori, fun a i => a ^^^ i.setWidth 64),
   (0x05, .shi, fun a i =>
     if i.extractLsb' 6 2 = 0 then a <<< (i.toNat % 64)
     else if i.extractLsb' 6 2 = 1 then a >>> (i.toNat % 64) else a.sshiftRight (i.toNat % 64)),
   (0x06, .slti, fun a i => if a.toInt < i.toInt then 1 else 0),
   (0x07, .sltiu, fun a i => if a.toNat < (i.signExtend 64).toNat then 1 else 0),
   (0x08, .lui, fun _ i => i.signExtend 64 * 65536)]

/-- R128, R129: an alu instruction, an immediate instruction and limm give d their value, move on, and change nothing else. -/
def Obligations.ScalarArithmeticWritesDestination : Prop :=
  (∀ r ∈ aluRules, ∀ (s : State) (t : TileId) (w : BitVec 32), s.at32 t w → opOf w = 0x00 → fFn w = r.1 →
    ∃ s', exec (r.2.1 t w) s = .next s' ∧ s.onlySeq t s'
      ∧ (s.tile t).seq.wrote (s'.tile t).seq (fD w) (r.2.2 (s.reg t (fA w)) (s.reg t (fB w))) 4) ∧
  ((∀ r ∈ immRules, ∀ (s : State) (t : TileId) (w : BitVec 32), s.at32 t w → opOf w = r.1 →
    ∃ s', exec (r.2.1 t w) s = .next s' ∧ s.onlySeq t s'
      ∧ (s.tile t).seq.wrote (s'.tile t).seq (fD w) (r.2.2 (s.reg t (fA w)) (fImm w)) 4) ∧
  (∀ (s : State) (t : TileId) (x : BitVec 64), s.at64 t x → opOf (lowWord x) = 0x3A → x.extractLsb' 0 21 = 0 →
    ∃ s', exec (.limm t x) s = .next s' ∧ s.onlySeq t s'
      ∧ (s.tile t).seq.wrote (s'.tile t).seq (x.extractLsb' 21 5) ((x.extractLsb' 32 32).signExtend 64) 8))

/-! ## Tile sequencer: scratchpad accesses -/

/-- The loads of R128: opcode, command, bytes, extension of the little-endian value. -/
def Sys2Proof.Machine.loadRules : List (Nat × (TileId → BitVec 32 → Instr) × Nat × (Nat → Word)) :=
  [(0x10, .ld8u, 1, fun v => BitVec.ofNat 64 v), (0x11, .ld16u, 2, fun v => BitVec.ofNat 64 v),
   (0x12, .ld32u, 4, fun v => BitVec.ofNat 64 v), (0x13, .ld64, 8, fun v => BitVec.ofNat 64 v),
   (0x14, .ld8s, 1, fun v => (BitVec.ofNat 8 v).signExtend 64), (0x15, .ld16s, 2, fun v => (BitVec.ofNat 16 v).signExtend 64),
   (0x16, .ld32s, 4, fun v => (BitVec.ofNat 32 v).signExtend 64)]

/-- The address of a scalar access: a + sext(imm). -/
def Sys2Proof.Machine.State.scalarAddr (s : State) (t : TileId) (w : BitVec 32) : Word := s.reg t (fA w) + (fImm w).signExtend 64


/-- The stores of R128: opcode, command, bytes. -/
def Sys2Proof.Machine.storeRules : List (Nat × (TileId → BitVec 32 → Instr) × Nat) :=
  [(0x18, .st8, 1), (0x19, .st16, 2), (0x1A, .st32, 4), (0x1B, .st64, 8)]

/-- R145: a tile program that faults leaves its cause, trap code and offset in FAULT_INFO, and runs no more. -/
def Sys2Proof.Machine.State.faultedWith (s : State) (t : TileId) (cause trap : Nat) (off : Word) : Prop :=
  (s.tile t).seq.run = .faulted
    ∧ (s.tile t).seq.faultInfo = BitVec.ofNat 64 (cause + trap * 2 ^ 8 + off.toNat % 2 ^ 32 * 2 ^ 32)

/-- R128, R130, R174: an aligned load inside the scratchpad, of a word without poison, gives d the bytes there, extended; an
aligned store writes the low bytes of d there and no other byte, clears the poison of a word that it replaces whole, and moves
4 bytes on. A misaligned access, or one outside the scratchpad, faults the program with cause 0x02 (R145). -/
def Obligations.ScalarLoadsAndStores : Prop :=
  (∀ r ∈ loadRules, ∀ (s : State) (t : TileId) (w : BitVec 32), s.at32 t w → opOf w = r.1 →
    (s.scalarAddr t w).toNat + r.2.2.1 ≤ 0x1800000 → (s.scalarAddr t w).toNat % r.2.2.1 = 0 →
    (s.scalarAddr t w).toNat / 8 ∉ (s.tile t).spoison →
    ∃ s', exec (r.2.1 t w) s = .next s' ∧ s.onlySeq t s'
      ∧ (s.tile t).seq.wrote (s'.tile t).seq (fD w)
          (r.2.2.2 (leNat (bytesAt (s.tile t).scratch (s.scalarAddr t w).toNat r.2.2.1))) 4) ∧
  (∀ r ∈ storeRules, ∀ (s : State) (t : TileId) (w : BitVec 32), s.at32 t w → opOf w = r.1 →
    (s.scalarAddr t w).toNat + r.2.2 ≤ 0x1800000 → (s.scalarAddr t w).toNat % r.2.2 = 0 →
    ∃ s', exec (r.2.1 t w) s = .next s' ∧ s.onlyTile t s'
      ∧ s'.tile t = { s.tile t with
          seq := (s'.tile t).seq, scratch := (s'.tile t).scratch, spoison := (s'.tile t).spoison }
      ∧ (s.tile t).seq.wentTo (s'.tile t).seq ((s.tile t).seq.pc + 4)
      ∧ (∀ i, byteAt (s'.tile t).scratch i =
          if (s.scalarAddr t w).toNat ≤ i ∧ i < (s.scalarAddr t w).toNat + r.2.2
          then (s.reg t (fD w)).extractLsb' (8 * (i - (s.scalarAddr t w).toNat)) 8 else byteAt (s.tile t).scratch i)
      ∧ (∀ i, i ∈ (s'.tile t).spoison ↔ i ∈ (s.tile t).spoison ∧ ¬ (r.2.2 = 8 ∧ i = (s.scalarAddr t w).toNat / 8))) ∧
  (∀ r ∈ loadRules, ∀ (s : State) (t : TileId) (w : BitVec 32), s.at32 t w → opOf w = r.1 →
    (0x1800000 < (s.scalarAddr t w).toNat + r.2.2.1 ∨ (s.scalarAddr t w).toNat % r.2.2.1 ≠ 0) →
    ∃ s', exec (r.2.1 t w) s = .next s' ∧ s'.faultedWith t 0x02 0 (s.tile t).seq.pc) ∧
  (∀ r ∈ storeRules, ∀ (s : State) (t : TileId) (w : BitVec 32), s.at32 t w → opOf w = r.1 →
    (0x1800000 < (s.scalarAddr t w).toNat + r.2.2 ∨ (s.scalarAddr t w).toNat % r.2.2 ≠ 0) →
    ∃ s', exec (r.2.1 t w) s = .next s' ∧ s'.faultedWith t 0x02 0 (s.tile t).seq.pc)

/-! ## Tile sequencer: control flow -/

/-- The branches of R128: opcode, command, condition on the registers in bits 25:21 and 20:16. -/
def Sys2Proof.Machine.branchRules : List (Nat × (TileId → BitVec 32 → Instr) × (Word → Word → Prop)) :=
  [(0x20, .beq, fun a b => a = b), (0x21, .bne, fun a b => a ≠ b), (0x22, .blt, fun a b => a.toInt < b.toInt),
   (0x23, .bge, fun a b => b.toInt ≤ a.toInt), (0x24, .bltu, fun a b => a.toNat < b.toNat),
   (0x25, .bgeu, fun a b => b.toNat ≤ a.toNat)]


/-- R128, R137: a branch adds four times its offset to the pc where its condition holds and 4 elsewhere; jmp adds four times its
26-bit offset; call does so after it put pc + 4 in s31; jr goes to the value that a held and puts pc + 4 in d. evsig raises its event
by its count; evwait lowers it where it has reached the count and waits elsewhere; a waiting evwait goes on once the event has
reached its count. -/
def Obligations.BranchesJumpsAndEvents : Prop :=
  ((∀ r ∈ branchRules, ∀ (s : State) (t : TileId) (w : BitVec 32), s.at32 t w → opOf w = r.1 →
    ∃ s', exec (r.2.1 t w) s = .next s' ∧ s.onlySeq t s'
      ∧ (r.2.2 (s.reg t (w.extractLsb' 21 5)) (s.reg t (w.extractLsb' 16 5)) →
          (s.tile t).seq.wentTo (s'.tile t).seq ((s.tile t).seq.pc + 4 * (fImm w).signExtend 64))
      ∧ (¬ r.2.2 (s.reg t (w.extractLsb' 21 5)) (s.reg t (w.extractLsb' 16 5)) →
          (s.tile t).seq.wentTo (s'.tile t).seq ((s.tile t).seq.pc + 4))) ∧
  (∀ (s : State) (t : TileId) (w : BitVec 32), s.at32 t w → opOf w = 0x26 →
    ∃ s', exec (.jmp t w) s = .next s' ∧ s.onlySeq t s'
      ∧ (s.tile t).seq.wentTo (s'.tile t).seq ((s.tile t).seq.pc + 4 * (w.extractLsb' 0 26).signExtend 64)) ∧
  (∀ (s : State) (t : TileId) (w : BitVec 32), s.at32 t w → opOf w = 0x27 →
    ∃ s', exec (.call t w) s = .next s' ∧ s.onlySeq t s'
      ∧ (s.tile t).seq.wrote (s'.tile t).seq 31 ((s.tile t).seq.pc + 4) (4 * (w.extractLsb' 0 26).signExtend 64)) ∧
  (∀ (s : State) (t : TileId) (w : BitVec 32), s.at32 t w → opOf w = 0x28 → (s.reg t (fA w)).toNat % 4 = 0 →
    ∃ s', exec (.jr t w) s = .next s' ∧ s.onlySeq t s'
      ∧ (s.tile t).seq.wrote (s'.tile t).seq (fD w) ((s.tile t).seq.pc + 4) (s.reg t (fA w) - (s.tile t).seq.pc))) ∧
  ((∀ (s : State) (t : TileId) (w : BitVec 32), s.at32 t w → opOf w = 0x2C →
    ((s.tile t).seq.event (w.extractLsb' 0 4)).toNat + (w.extractLsb' 4 12).toNat ≤ 0xFFFF →
    ∃ s', exec (.evsig t w) s = .next s' ∧ s.onlySeq t s' ∧ (s.tile t).seq.sameStore (s'.tile t).seq
      ∧ (∀ e, (s'.tile t).seq.event e = if e = w.extractLsb' 0 4
          then (s.tile t).seq.event e + (w.extractLsb' 4 12).setWidth 16 else (s.tile t).seq.event e)
      ∧ (s'.tile t).seq = { (s.tile t).seq with
          pc := (s.tile t).seq.pc + 4, events := (s'.tile t).seq.events, store := (s'.tile t).seq.store }) ∧
  (∀ (s : State) (t : TileId) (w : BitVec 32), s.at32 t w → opOf w = 0x2D →
    ∃ s', exec (.evwait t w) s = .next s' ∧ s.onlySeq t s' ∧ (s.tile t).seq.sameStore (s'.tile t).seq
      ∧ (if (w.extractLsb' 4 12).toNat ≤ ((s.tile t).seq.event (w.extractLsb' 0 4)).toNat then
          (s'.tile t).seq = { (s.tile t).seq with
              pc := (s.tile t).seq.pc + 4, events := (s'.tile t).seq.events, store := (s'.tile t).seq.store }
            ∧ (∀ e, (s'.tile t).seq.event e = if e = w.extractLsb' 0 4
                then (s.tile t).seq.event e - (w.extractLsb' 4 12).setWidth 16 else (s.tile t).seq.event e)
        else (s'.tile t).seq = { (s.tile t).seq with
              run := .waitEvent (w.extractLsb' 0 4) (w.extractLsb' 4 12), store := (s'.tile t).seq.store })) ∧
  (∀ (s : State) (t : TileId) (ev : BitVec 4) (n : BitVec 12), (s.tile t).seq.run = .waitEvent ev n →
    n.toNat ≤ ((s.tile t).seq.event ev).toNat → (s.tile t).inReset = false →
    ∃ s', exec (.evwaitRelease t) s = .next s' ∧ s.onlySeq t s'
      ∧ (s'.tile t).seq = { (s.tile t).seq with
          run := .running, pc := (s.tile t).seq.pc + 4, events := (s'.tile t).seq.events }
      ∧ (∀ e, (s'.tile t).seq.event e =
          if e = ev then (s.tile t).seq.event e - n.setWidth 16 else (s.tile t).seq.event e)))

/-- The status registers of R131: index, and what srrd reads there. -/
def Sys2Proof.Machine.statusRules : List (Nat × (State → TileId → Word)) :=
  [(0x000, fun _ t => BitVec.ofNat 64 t.val), (0x001, fun s t => (s.tile t).seq.rank), (0x002, fun s t => (s.tile t).seq.count),
   (0x003, fun s t => match (s.die (dieOf t)).owner with | some p => BitVec.ofNat 64 p.val | none => 0),
   (0x004, fun s t => (s.seqOf t).setWidth 64 + ((s.tile t).seq.queue.setWidth 64 : Word) <<< (32 : Nat)),
   (0x008, fun s t => BitVec.ofNat 64 ((s.tile t).seq.cycles / 40)), (0x009, fun s _ => s.tb.value),
   (0x020, fun s t => BitVec.ofNat 64 ((s.tile t).aq.length % 256 + 256 * ((s.tile t).vq.length % 256)
     + 65536 * ((s.tile t).dq.length % 256))),
   (0x021, fun s t => (s.tile t).flags.setWidth 64), (0x022, fun s t => (s.tile t).fret),
   (0x028, fun s t => (s.tile t).seq.workRing.setWidth 64), (0x030, fun s t => (s.tile t).seq.faultInfo)]
  ++ (List.range 16).map fun i => (0x010 + i, fun s t => ((s.tile t).seq.event (BitVec.ofNat 4 i)).setWidth 64)


/-- R131: srrd gives d the status register it names; an index that the table does not list reads zero. srwr sets an event counter,
clears the bits written 1 of ARITH_FLAGS, and changes no other status register; the command keeps the flags that its tile clears (the
model's reading, notes/assumptions/70.md). -/
def Obligations.StatusRegistersReadAndWrite : Prop :=
  (∀ (s : State) (t : TileId) (w : BitVec 32), s.at32 t w → opOf w = 0x2E →
    ∃ s', exec (.srrd t w) s = .next s' ∧ s.onlySeq t s'
      ∧ (∀ r ∈ statusRules, (w.extractLsb' 0 12).toNat = r.1 → (s.tile t).seq.wrote (s'.tile t).seq (fD w) (r.2 s t) 4)
      ∧ ((∀ r ∈ statusRules, (w.extractLsb' 0 12).toNat ≠ r.1) →
          (s.tile t).seq.wrote (s'.tile t).seq (fD w) 0 4)) ∧
  (∀ (s : State) (t : TileId) (w : BitVec 32), s.at32 t w → opOf w = 0x2F →
    ∃ s', exec (.srwr t w) s = .next s'
      ∧ s' = { s with tiles := s'.tiles, queues := s'.queues } ∧ (∀ u, u ≠ t → s'.tile u = s.tile u)
      ∧ ((w.extractLsb' 0 12).toNat ≠ 0x021 → s'.queues = s.queues)
      ∧ (∀ q, s'.queue q = { s.queue q with cmds := (s'.queue q).cmds })
      ∧ s'.tile t = { s.tile t with seq := (s'.tile t).seq, flags := (s'.tile t).flags }
      ∧ (s'.tile t).flags = (if (w.extractLsb' 0 12).toNat = 0x021
          then (s.tile t).flags &&& ~~~((s.reg t (fA w)).setWidth 16) else (s.tile t).flags)
      ∧ (s.tile t).seq.sameStore (s'.tile t).seq
      ∧ (s'.tile t).seq = { (s.tile t).seq with
          pc := (s.tile t).seq.pc + 4, events := (s'.tile t).seq.events, store := (s'.tile t).seq.store }
      ∧ (∀ e, (s'.tile t).seq.event e = if (w.extractLsb' 0 12).toNat = 0x010 + e.toNat
          then (s.reg t (fA w)).setWidth 16 else (s.tile t).seq.event e))

/-! ## Tile sequencer: sync, end, faults, wdone -/

/-- R128, R125: sync goes on once the engines of fn[2:0] have drained, dropping every held block with isync, and waits
elsewhere; a waiting sync goes on once they have; end leaves the program waiting for its operations (R142). -/
def Obligations.SyncWaitsForEngines : Prop :=
  (∀ (s : State) (t : TileId) (w : BitVec 32), s.at32 t w → opOf w = 0x30 →
    ∃ s', exec (.sync t w) s = .next s' ∧ s.onlySeq t s'
      ∧ (if (s.tile t).drainedAll (w.extractLsb' 0 3) = true then
          (s'.tile t).seq = { (s.tile t).seq with pc := (s.tile t).seq.pc + 4, store := (s'.tile t).seq.store }
            ∧ (w.getLsbD 3 = true → (s'.tile t).seq.store = [])
            ∧ (w.getLsbD 3 = false → (s.tile t).seq.sameStore (s'.tile t).seq)
        else (s'.tile t).seq = { (s.tile t).seq with
              run := .waitSync (w.extractLsb' 0 3), store := (s'.tile t).seq.store }
            ∧ (s.tile t).seq.sameStore (s'.tile t).seq)) ∧
  (∀ (s : State) (t : TileId) (w : BitVec 32) (m : BitVec 3), (s.tile t).seq.run = .waitSync m →
    (s.tile t).seq.fetch32 = .word w → (s.tile t).drainedAll m = true → (s.tile t).inReset = false →
    ∃ s', exec (.syncRelease t) s = .next s' ∧ s.onlySeq t s'
      ∧ (s'.tile t).seq = { (s.tile t).seq with
          run := .running, pc := (s.tile t).seq.pc + 4, store := if w.getLsbD 3 then [] else (s.tile t).seq.store }) ∧
  (∀ (s : State) (t : TileId) (w : BitVec 32), s.at32 t w → opOf w = 0x31 →
    ∃ s', exec (.endProgram t w) s = .next s' ∧ s.onlySeq t s' ∧ (s.tile t).seq.sameStore (s'.tile t).seq
      ∧ (s'.tile t).seq = { (s.tile t).seq with run := .ended, store := (s'.tile t).seq.store })

/-- R145: trap, a misaligned jr and an overflowing evsig fault the program, each with its cause; the overflowing counter stays at 0xFFFF (R137). -/
def Obligations.ProgramFaultsFillFaultInfo : Prop :=
  (∀ (s : State) (t : TileId) (w : BitVec 32), s.at32 t w → opOf w = 0x32 →
    ∃ s', exec (.trap t w) s = .next s' ∧ s'.faultedWith t 0x05 (fImm w).toNat (s.tile t).seq.pc) ∧
  (∀ (s : State) (t : TileId) (w : BitVec 32), s.at32 t w → opOf w = 0x28 → (s.reg t (fA w)).toNat % 4 ≠ 0 →
    ∃ s', exec (.jr t w) s = .next s' ∧ s'.faultedWith t 0x03 0 (s.tile t).seq.pc) ∧
  (∀ (s : State) (t : TileId) (w : BitVec 32), s.at32 t w → opOf w = 0x2C →
    0xFFFF < ((s.tile t).seq.event (w.extractLsb' 0 4)).toNat + (w.extractLsb' 4 12).toNat →
    ∃ s', exec (.evsig t w) s = .next s' ∧ s'.faultedWith t 0x04 0 (s.tile t).seq.pc
      ∧ (s'.tile t).seq.event (w.extractLsb' 0 4) = 0xFFFF)

/-- R142: an ended tile whose operations have completed reports done to its command; the last tile to do so ends the
command's work, which then waits for its release with the flag status of R271. R144, R265: wdone moves on and completes its
entry for its tile, with the status in a; outside persistent mode it completes no entry (notes/assumptions/29.md). -/
def Obligations.TilesReportDone : Prop :=
  (∀ (s : State) (t : TileId) (c : CmdId) (x : Cmd), (s.tile t).cmd = some c → (s.tile t).seq.run = .ended →
    (s.tile t).seq.issued = 0 → (s.tile t).inReset = false → (s.tile t).seq.resident = false →
    (s.tile t).vec.blkCount = 0 → (s.tile t).vec.slots = [] → s.cmd? c = some x → x.live = true → s.matmulOn t = none →
    ∃ s', exec (.tileDone t) s = .next s' ∧
      (if x.tiles.filter (· ≠ t) ≠ [] then
        s'.cmd? c = some { x with tiles := x.tiles.filter (· ≠ t) } ∧ (s'.tile t).seq.run = .done
      else x.stage = .begun → ∃ y, s'.cmd? c = some y ∧ y.stage = .worked ∧ y.tiles = [] ∧ y.doneAt = s.tb.value
        ∧ y.status = flagStatus (x.flags ||| s.tileFlags x) (((s.queue c.queue).cfg.map fun g => g.flagMask).getD 0))) ∧
  (∀ (s : State) (t : TileId) (w : BitVec 32), s.at32 t w → opOf w = 0x34 → (s.tile t).seq.issued ≠ 0 →
    ∃ s', exec (.wdone t w) s = .next s' ∧ s.onlySeq t s' ∧ (s.tile t).seq.sameStore (s'.tile t).seq
      ∧ (s'.tile t).seq = { (s.tile t).seq with
          run := .waitWdone (w.extractLsb' 0 6) ((s.reg t (fA w)).setWidth 16), store := (s'.tile t).seq.store }) ∧
  (∀ (s : State) (t : TileId) (w : BitVec 32), s.at32 t w → opOf w = 0x34 → (s.tile t).seq.issued = 0 →
    (s.tile t).vec.slots = [] → (s.tile t).seq.resident = false →
    ∃ s', exec (.wdone t w) s = .next s' ∧ s.onlySeq t s'
      ∧ (s.tile t).seq.wentTo (s'.tile t).seq ((s.tile t).seq.pc + 4)) ∧
  (∀ (s : State) (t : TileId) (w : BitVec 32) (r : CmdId) (x : Cmd), s.at32 t w → opOf w = 0x34 → (s.tile t).seq.issued = 0 →
    (s.tile t).vec.slots = [] → (s.tile t).vec.blkCount = 0 → (s.tile t).seq.resident = true → (s.tile t).cmd = some r →
    s.entryOf t r.queue (w.extractLsb' 0 6) = some ⟨r.queue, x.id⟩ → s.cmd? ⟨r.queue, x.id⟩ = some x →
    x.tiles.filter (· ≠ t) ≠ [] →
    ∃ s', exec (.wdone t w) s = .next s' ∧ (s'.tile t).seq.pc = (s.tile t).seq.pc + 4 ∧ (s'.tile t).seq.run = .running
      ∧ (s'.tile t).flags = 0
      ∧ s'.cmd? ⟨r.queue, x.id⟩ = some { x with
          tiles := x.tiles.filter (· ≠ t), flags := x.flags ||| (s.tile t).flags
          wdone := ((s.tile t).seq.rank.toNat, (s.reg t (fA w)).setWidth 16) :: x.wdone })

/-- R124: a fetch that misses fills its block from the image in scratchpad; the store never holds more blocks than the
kernel may use, and of the blocks it held it keeps the most recently used. -/
def Obligations.StoreFillCopiesImageBlock : Prop :=
  ∀ (s : State) (t : TileId) (b : Nat) (bytes : Bytes), (s.tile t).canIssue = true → (s.tile t).seq.missing = some b →
    (s.tile t).scratchRead ((s.tile t).seq.imgBase + 4096 * b) (min 4096 ((s.tile t).seq.imgLen - 4096 * b)) = .ok bytes →
    (s.tile t).seq.store.length ≤ (s.tile t).seq.capacity →
    ∃ s', exec (.instructionStoreFill t) s = .next s' ∧ (∀ u, u ≠ t → s'.tile u = s.tile u)
      ∧ (s'.tile t).seq.held b = some ⟨b, putBytes [] 0 bytes⟩
      ∧ (s'.tile t).seq.store.length ≤ (s.tile t).seq.capacity
      ∧ (s'.tile t).seq.store.dropLast = (s.tile t).seq.store.drop
          (if (s.tile t).seq.store.length < (s.tile t).seq.capacity then 0 else 1)
      ∧ s'.tile t = { s.tile t with seq := { (s.tile t).seq with store := (s'.tile t).seq.store } }

/-! ## Issue and completion of engine operations -/

/-- The engines of R132 with their issue instructions: opcode, command, engine, queue depth, legality of the encoding, and
the scalar register that the instruction names. -/
def Sys2Proof.Machine.issueRules :
    List (Nat × (TileId → BitVec 64 → Instr) × Engine × Nat × (BitVec 64 → Bool) × (BitVec 64 → BitVec 5)) :=
  [(0x38, .mma, .array, 8, mmaLegal, fun x => x.extractLsb' 21 5), (0x39, .vec, .vector, 32, vecLegal, fun x => x.extractLsb' 16 5),
   (0x3B, .dma, .dma, 16, dmaLegal, fun x => x.extractLsb' 21 5)]

/-- What entering an issue queue does to a tile (R132): the instruction stands last, with its pc and the register it names as
they are (notes/assumptions/10.md), and the sequencer moves 8 bytes on. -/
def Sys2Proof.Machine.Tile.entered (y y' : Tile) (e : Engine) (x : BitVec 64) (r : BitVec 5) : Prop :=
  y'.queueOf e = y.queueOf e ++ [⟨x, y.seq.pc, y.seq.reg r⟩] ∧ (∀ f, f ≠ e → y'.queueOf f = y.queueOf f)
    ∧ y.seq.sameStore y'.seq
    ∧ y'.seq = { y.seq with pc := y.seq.pc + 8, issued := y.seq.issued + 1, run := .running, store := y'.seq.store }
    ∧ y' = { y with seq := y'.seq, aq := y'.aq, vq := y'.vq, dq := y'.dq }


/-- R132: a legal issue instruction enters its engine's queue, or the sequencer stalls where the queue is full; a stalled
instruction enters once an entry is free. Beside the tile, only the trace may take a record (R515). R133, R137: the oldest finished operation of an engine completes: it is counted off, and where it signals an event the
event rises by one. R170: a check that finds the vector engine wrong leaves the operation uncompleted and asks for the tile's
reset (R412). -/
def Obligations.EngineQueuesIssueAndComplete : Prop :=
  ((∀ r ∈ issueRules, ∀ (s : State) (t : TileId) (x : BitVec 64), s.at64 t x → opOf (lowWord x) = r.1 →
    r.2.2.2.2.1 x = true →
    ∃ s', exec (r.2.1 t x) s = .next s' ∧ s' = { s with tiles := s'.tiles, tel := s'.tel, xqs := s'.xqs }
      ∧ (∀ u, u ≠ t → s'.tile u = s.tile u)
      ∧ (if ((s.tile t).queueOf r.2.2.1).length < r.2.2.2.1
          then (s.tile t).entered (s'.tile t) r.2.2.1 x (r.2.2.2.2.2 x)
          else s'.tile t = { s.tile t with seq := { (s.tile t).seq with
                run := .waitIssue r.2.2.1, store := (s'.tile t).seq.store } }
              ∧ (s.tile t).seq.sameStore (s'.tile t).seq)) ∧
  (∀ r ∈ issueRules, ∀ (s : State) (t : TileId) (x : BitVec 64), (s.tile t).seq.run = .waitIssue r.2.2.1 →
    (s.tile t).seq.fetch64 = .word x → opOf (lowWord x) = r.1 → ((s.tile t).queueOf r.2.2.1).length < r.2.2.2.1 →
    (s.tile t).inReset = false →
    ∃ s', exec (.issueStallRelease t) s = .next s' ∧ s' = { s with tiles := s'.tiles, tel := s'.tel, xqs := s'.xqs }
      ∧ (∀ u, u ≠ t → s'.tile u = s.tile u) ∧ (s.tile t).entered (s'.tile t) r.2.2.1 x (r.2.2.2.2.2 x))) ∧
  ((∀ (s : State) (t : TileId) (e : Engine) (o : DoneOp), (s.tile t).finished.find? (fun p => p.engine = e) = some o →
    (s.tile t).inService = true → (∀ k st, (s.tile t).seq.run ≠ .waitWdone k st) →
    (fSv o.word = true → (s.tile t).seq.event (fSev o.word) ≠ 0xFFFF) →
    ∃ s', exec (.operationComplete t e .good) s = .next s' ∧ s.onlyTile t s'
      ∧ (s'.tile t).finished = (s.tile t).finished.erase o
      ∧ (s'.tile t).seq = { (s.tile t).seq with issued := (s.tile t).seq.issued - 1, events := (s'.tile t).seq.events }
      ∧ (∀ v, (s'.tile t).seq.event v =
          if fSv o.word = true ∧ v = fSev o.word then (s.tile t).seq.event v + 1 else (s.tile t).seq.event v)
      ∧ s'.tile t = { s.tile t with seq := (s'.tile t).seq, finished := (s'.tile t).finished }) ∧
  (∀ (s : State) (t : TileId) (o : DoneOp) (k : UnitCheck), (s.tile t).finished.find? (fun p => p.engine = .vector) = some o →
    (s.tile t).inService = true → k ≠ .good →
    ∃ s', exec (.operationComplete t .vector k) s = .next s' ∧ (s'.tile t).inReset = true ∧ (s'.tile t).mechLog ≠ []))

/-! ## Semaphores (R138 to R141) -/

/-- No wait or take is still unmet on a semaphore. -/
abbrev Sys2Proof.Machine.State.noneWaits (s : State) (n : BitVec 14) : Prop := ∀ w ∈ s.semWaits, w.sem = n → w.met = true

/-- The count of a sem instruction: the low 32 bits of b. -/
def Sys2Proof.Machine.State.countOf (s : State) (t : TileId) (x : BitVec 64) : BitVec 32 :=
  (s.reg t (x.extractLsb' 16 5)).extractLsb' 0 32


/-- R139, R140: signal adds its count, set stores it, read leaves the value; each gives d the value before, and nothing but
the semaphore, the sequencer and the trace changes. R139, R141: a wait or take stands last among the pending ones and its sequencer waits; it is met at once where the value
has reached its count, which a take subtracts. A met one ends with 0 after a whole-cache acquire on its die (R209), an unmet
one whose budget has run out with 1 (R139). -/
def Obligations.SemaphoresSignalAndWait : Prop :=
  (∀ r ∈ ([(0, .semSignal, fun v k => v + k), (3, .semRead, fun v _ => v), (4, .semSet, fun _ k => k)] :
      List (Nat × (TileId → BitVec 64 → Instr) × (BitVec 32 → BitVec 32 → BitVec 32))),
    ∀ (s : State) (t : TileId) (x : BitVec 64) (p : PartId), s.at64 t x → opOf (lowWord x) = 0x3C →
      (x.extractLsb' 13 3).toNat = r.1 → x.extractLsb' 0 13 = 0 → x.extractLsb' 46 2 = 0 →
      s.tilePart t = some p → s.semOwned p (x.extractLsb' 32 14) = true → s.noneWaits (x.extractLsb' 32 14) →
      (r.1 = 0 → (s.sem (x.extractLsb' 32 14)).toNat + (s.countOf t x).toNat < 2 ^ 32) →
      ∃ s', exec (r.2.1 t x) s = .next s'
        ∧ s' = { s with tiles := s'.tiles, sems := s'.sems, tel := s'.tel, xqs := s'.xqs }
        ∧ (∀ u, u ≠ t → s'.tile u = s.tile u) ∧ s'.tile t = { s.tile t with seq := (s'.tile t).seq }
        ∧ (s.tile t).seq.wrote (s'.tile t).seq (x.extractLsb' 21 5) ((s.sem (x.extractLsb' 32 14)).setWidth 64) 8
        ∧ ∀ n, s'.sem n = if n = x.extractLsb' 32 14 then r.2.2 (s.sem n) (s.countOf t x) else s.sem n) ∧
  ((∀ r ∈ ([(1, .semWait, false), (2, .semTake, true)] : List (Nat × (TileId → BitVec 64 → Instr) × Bool)),
    ∀ (s : State) (t : TileId) (x : BitVec 64) (p : PartId), s.at64 t x → opOf (lowWord x) = 0x3C →
      (x.extractLsb' 13 3).toNat = r.1 → x.extractLsb' 0 13 = 0 → x.extractLsb' 46 2 = 0 →
      s.tilePart t = some p → s.semOwned p (x.extractLsb' 32 14) = true → s.noneWaits (x.extractLsb' 32 14) →
      ∃ s', exec (r.2.1 t x) s = .next s'
        ∧ s' = { s with tiles := s'.tiles, sems := s'.sems, semWaits := s'.semWaits, tel := s'.tel, xqs := s'.xqs }
        ∧ (∀ u, u ≠ t → s'.tile u = s.tile u) ∧ s'.tile t = { s.tile t with seq := (s'.tile t).seq }
        ∧ (s'.tile t).seq = { (s.tile t).seq with run := .waitSem, store := (s'.tile t).seq.store }
        ∧ s'.semWaits = s.semWaits ++ [⟨x.extractLsb' 32 14, r.2.2, s.countOf t x,
            .tile t (x.extractLsb' 21 5) (x.extractLsb' 48 16).toNat s.time,
            decide ((s.countOf t x).toNat ≤ (s.sem (x.extractLsb' 32 14)).toNat)⟩]
        ∧ ∀ n, s'.sem n = if n = x.extractLsb' 32 14 ∧ r.2.2 = true ∧ (s.countOf t x).toNat ≤ (s.sem n).toNat
            then s.sem n - s.countOf t x else s.sem n) ∧
  (∀ (s : State) (t : TileId) (w : SemWait) (d : BitVec 5) (b since : Nat), w ∈ s.semWaits → w.who = .tile t d b since →
    (∀ y ∈ s.semWaits, y.ofTile t = true → y = w) → (s.tile t).inReset = false →
    (w.met = true → ∃ s', exec (.semWaitRelease t) s = .next s'
      ∧ s'.semWaits = s.semWaits.filter (fun y => !y.ofTile t) ∧ s'.sems = s.sems
      ∧ (s.tile t).seq.wrote { (s'.tile t).seq with run := (s.tile t).seq.run } d 0 8 ∧ (s'.tile t).seq.run = .running
      ∧ s'.die (dieOf t) = { s.die (dieOf t) with gen := (s.die (dieOf t)).gen + 1, clearing := true }) ∧
    (w.met = false → b ≠ 0 → since + 1000 * b ≤ s.time → ∃ s', exec (.semBudgetExpiry t) s = .next s'
      ∧ s'.semWaits = s.semWaits.filter (fun y => !y.ofTile t) ∧ s'.sems = s.sems ∧ s'.dies = s.dies
      ∧ (s.tile t).seq.wrote { (s'.tile t).seq with run := (s.tile t).seq.run } d 1 8 ∧ (s'.tile t).seq.run = .running)))

/-! ## Vector engine (spec/06_vector_engine.md) -/

/-- The tile after the head `i` of its vector queue has begun and written its results (R132, R133): the head has left the
queue, the event it waited on is lowered by one, the operation stands among the finished ones with the spans it wrote, and
of the tile only the named parts differ. -/
def Sys2Proof.Machine.Tile.vectorDone (y y' : Tile) (i : Issue) (spans : List (Nat × Nat)) : Prop :=
  y'.vq = y.vq.drop 1 ∧ y'.finished = y.finished ++ [⟨.vector, i.word, i.pc, spans⟩]
    ∧ (∀ e, y'.seq.event e = if fWv i.word = true ∧ e = fWev i.word then y.seq.event e - 1 else y.seq.event e)
    ∧ y'.seq = { y.seq with events := y'.seq.events, regs := y'.seq.regs }
    ∧ y' = { y with vq := y'.vq, finished := y'.finished, seq := y'.seq, vec := y'.vec, flags := y'.flags
                    scratch := y'.scratch, spoison := y'.spoison }

/-- Register operations that give vd a value element by element: vop, command, and the value with its flags from the
instruction's fields, the registers, the lane type, the rounding and the sources (R152 to R158). -/
def Sys2Proof.Machine.vecRules :
    List (Nat × (TileId → Instr) × (BitVec 32 → VF → Vec → Lane → RCtl → VArgs → Nat × BitVec 16)) :=
  [(0x00, .vecAdd, fun _ _ _ l c x => addE false l c x), (0x01, .vecSub, fun _ _ _ l c x => addE true l c x),
   (0x02, .vecMul, fun _ _ _ l c x => mulE l c x), (0x03, .fma, fun _ _ _ l c x => fmaE false l c x),
   (0x04, .fnma, fun _ _ _ l c x => fmaE true l c x), (0x05, .div, fun _ _ _ l c x => divE l c x),
   (0x06, .sqrt, fun _ _ _ l c x => sqrtE l c x), (0x07, .vecMin, fun _ _ _ l c x => minMaxE false false l c x),
   (0x08, .vecMax, fun _ _ _ l c x => minMaxE true false l c x), (0x09, .minnum, fun _ _ _ l c x => minMaxE false true l c x),
   (0x0A, .maxnum, fun _ _ _ l c x => minMaxE true true l c x), (0x0B, .abs, fun _ _ _ l c x => absE l c x),
   (0x0C, .neg, fun _ _ _ l c x => negE l c x),
   (0x0F, .cvt, fun _ f v l c x =>
     let src := (laneOf (bits f.aux 2 0)).getD .fp32
     cvtE src l c (if x.i < src.count then some (v.elem src f.va x.i) else none)),
   (0x10, .funOp, fun tables f _ l c x => funE tables (bits f.aux 5 0) l c x.a),
   (0x11, .vecAnd, fun _ _ _ _ _ x => (x.a &&& x.b, 0)), (0x12, .vecOr, fun _ _ _ _ _ x => (x.a ||| x.b, 0)),
   (0x13, .vecXor, fun _ _ _ _ _ x => (x.a ^^^ x.b, 0)),
   (0x14, .vecShl, fun _ _ _ l _ x => (x.a * 2 ^ (x.b % 64) % 2 ^ l.width, 0)),
   (0x15, .vecShr, fun _ _ _ _ _ x => (x.a / 2 ^ (x.b % 64), 0)),
   (0x16, .vecSar, fun _ _ _ l _ x => (unsigned l.width (signed l.width x.a / (2 ^ (x.b % 64) : Nat)), 0)),
   (0x17, .mov, fun _ _ _ _ _ x => (x.a, 0)),
   (0x18, .perm, fun _ f v l _ x => (v.elem l f.va (x.idx % (l.count : Int)).toNat, 0)),
   (0x19, .iota, fun _ _ _ _ _ x => (x.i, 0))]


/-- R149, R152: a register operation at the head of the vector queue writes every element of vd whose mask bit is set, from
the registers as they were, leaves every other element of every register and every mask, and raises the flags of the
elements it wrote. R61, R62, R154: what the integer lane types give: INT32 addition, subtraction and multiplication wrap; fret64 addition
saturates with overflow and narrow_sat; minimum and maximum are signed; iota, mov and the bitwise operations stand in the
table above. -/
def Obligations.VectorOperationsWriteElements : Prop :=
  (∀ r ∈ vecRules, ∀ (s : State) (t : TileId) (i : Issue), s.vecHead t 0 r.1 = some i →
    ∃ s', exec (r.2.1 t) s = .next s'
      ∧ s' = { s with tiles := s'.tiles, fresh := s.fresh + (vecFields i.word).lane.count }
      ∧ (∀ u, u ≠ t → s'.tile u = s.tile u) ∧ (s.tile t).vectorDone (s'.tile t) i []
      ∧ (s'.tile t).scratch = (s.tile t).scratch ∧ (s'.tile t).seq.regs = (s.tile t).seq.regs
      ∧ (s'.tile t).vec = { (s.tile t).vec with
          regs := (s'.tile t).vec.regs, ordinal := (s.tile t).vec.ordinal + 1 }
      ∧ ∃ val : Nat → Nat × BitVec 16,
          (∀ e, val e = r.2.2 s.boot.fnTables (vecFields i.word) (s.tile t).vec (vecFields i.word).lane
            (vecFields i.word).rctl (s.vargs (s.tile t).vec (vecFields i.word) (vecFields i.word).lane e))
          ∧ (∀ p e, p < 32 → e < (vecFields i.word).lane.count →
              (s'.tile t).vec.elem (vecFields i.word).lane p e =
                if p = (vecFields i.word).vd ∧ (s.tile t).vec.on (vecFields i.word).mreg e = true
                then (val e).1 % 2 ^ (vecFields i.word).lane.width
                else (s.tile t).vec.elem (vecFields i.word).lane p e)
          ∧ (∀ b, (s'.tile t).flags.getLsbD b = ((s.tile t).flags.getLsbD b ||
              ((s.tile t).vec.lanesOn (vecFields i.word).lane (vecFields i.word).mreg).any fun e => (val e).2.getLsbD b))) ∧
  (∀ (c : RCtl) (x : VArgs), x.a < 2 ^ 32 → x.b < 2 ^ 32 →
    (addE false .int32 c x = ((x.a + x.b) % 2 ^ 32, 0))
    ∧ ((addE true .int32 c x).1 + x.b) % 2 ^ 32 = x.a
    ∧ (mulE .int32 c x = (x.a * x.b % 2 ^ 32, 0))
    ∧ (minMaxE false false .int32 c x).1 = (if signed 32 x.a ≤ signed 32 x.b then x.a else x.b)
    ∧ (minMaxE true false .int32 c x).1 = (if signed 32 x.a ≤ signed 32 x.b then x.b else x.a)
    ∧ (∀ n : Int, satFret n = if n < -2 ^ 63 then (2 ^ 63, flOverflow ||| flNarrowSat)
        else if 2 ^ 63 ≤ n then (2 ^ 63 - 1, flOverflow ||| flNarrowSat) else ((n % 2 ^ 64).toNat, 0)))

/-- R149, R152: cmp writes the mask k[vd[2:0]]: a masked-off element's bit is 0, any other's its predicate, and raises
their flags; sel writes every element of vd from va or vb by the mask. -/
def Obligations.VectorCompareAndSelect : Prop :=
  (∀ (s : State) (t : TileId) (i : Issue), s.vecHead t 0 0x0D = some i → bits (vecFields i.word).vd 2 0 ≠ 0 →
    ∃ s', exec (.cmp t) s = .next s' ∧ s' = { s with tiles := s'.tiles, fresh := s.fresh + 4 }
      ∧ (∀ u, u ≠ t → s'.tile u = s.tile u) ∧ (s.tile t).vectorDone (s'.tile t) i []
      ∧ (s'.tile t).scratch = (s.tile t).scratch
      ∧ (s'.tile t).vec = { (s.tile t).vec with masks := (s'.tile t).vec.masks, ordinal := (s.tile t).vec.ordinal + 1 }
      ∧ (∀ k, k ≠ bits (vecFields i.word).vd 2 0 → mapGet 0 (s'.tile t).vec.masks k = mapGet 0 (s.tile t).vec.masks k)
      ∧ ∀ e, e < (vecFields i.word).lane.count → (s'.tile t).vec.on (bits (vecFields i.word).vd 2 0) e =
          ((s.tile t).vec.on (vecFields i.word).mreg e &&
            (cmpE (vecFields i.word).lane (vecFields i.word).aux
              ((s.tile t).vec.elem (vecFields i.word).lane (vecFields i.word).va e)
              ((s.tile t).vec.elem (vecFields i.word).lane (vecFields i.word).vb e)).1)) ∧
  (∀ (s : State) (t : TileId) (i : Issue), s.vecHead t 0 0x0E = some i →
    ∃ s', exec (.sel t) s = .next s' ∧ s' = { s with tiles := s'.tiles }
      ∧ (∀ u, u ≠ t → s'.tile u = s.tile u) ∧ (s.tile t).vectorDone (s'.tile t) i []
      ∧ (s'.tile t).scratch = (s.tile t).scratch ∧ (s'.tile t).flags = (s.tile t).flags
      ∧ (s'.tile t).vec = { (s.tile t).vec with regs := (s'.tile t).vec.regs, ordinal := (s.tile t).vec.ordinal + 1 }
      ∧ ∀ p e, p < 32 → e < (vecFields i.word).lane.count →
          (s'.tile t).vec.elem (vecFields i.word).lane p e =
            if p = (vecFields i.word).vd then
              (s.tile t).vec.elem (vecFields i.word).lane
                (if (s.tile t).vec.on (vecFields i.word).mreg e = true then (vecFields i.word).va else (vecFields i.word).vb) e
            else (s.tile t).vec.elem (vecFields i.word).lane p e)

/-- R159: bcast gives the masked-on elements of vd the low bits of s[va]; ext gives s[vd] element aux of va; kld and kst move
a mask register from and to 32 aligned bytes of scratchpad, kst writing no other byte; cbind binds its ceiling slot to the
tensor descriptor that s[va] names, with no ceiling folded yet (R167). -/
def Obligations.VectorScalarMaskAndSlotOperations : Prop :=
  (∀ (s : State) (t : TileId) (i : Issue), s.vecHead t 2 0x04 = some i →
    ∃ s', exec (.bcast t) s = .next s' ∧ s.onlyTile t s' ∧ (s.tile t).vectorDone (s'.tile t) i []
      ∧ (s'.tile t).scratch = (s.tile t).scratch ∧ (s'.tile t).flags = (s.tile t).flags
      ∧ ∀ p e, p < 32 → e < (vecFields i.word).lane.count →
          (s'.tile t).vec.elem (vecFields i.word).lane p e =
            if p = (vecFields i.word).vd ∧ (s.tile t).vec.on (vecFields i.word).mreg e = true
            then i.arg.toNat % 2 ^ (vecFields i.word).lane.width else (s.tile t).vec.elem (vecFields i.word).lane p e) ∧
  (∀ (s : State) (t : TileId) (i : Issue), s.vecHead t 2 0x05 = some i →
    ∃ s', exec (.ext t) s = .next s' ∧ s.onlyTile t s' ∧ (s.tile t).vectorDone (s'.tile t) i []
      ∧ (s'.tile t).scratch = (s.tile t).scratch ∧ (s'.tile t).flags = (s.tile t).flags
      ∧ (s'.tile t).vec = { (s.tile t).vec with ordinal := (s.tile t).vec.ordinal + 1 }
      ∧ ∀ p, (s'.tile t).seq.reg p = if p ≠ 0 ∧ p.toNat = (vecFields i.word).vd
          then BitVec.ofNat 64 ((s.tile t).vec.elem (vecFields i.word).lane (vecFields i.word).va (vecFields i.word).aux)
          else (s.tile t).seq.reg p) ∧
  (∀ (s : State) (t : TileId) (i : Issue), s.vecHead t 2 0x06 = some i → i.arg.toNat % 32 = 0 → i.arg.toNat + 32 ≤ 0x1800000 →
    (∀ w, w < 4 → i.arg.toNat / 8 + w ∉ (s.tile t).spoison) →
    ∃ s', exec (.kld t) s = .next s' ∧ s.onlyTile t s' ∧ (s.tile t).vectorDone (s'.tile t) i []
      ∧ (s'.tile t).scratch = (s.tile t).scratch ∧ (s'.tile t).flags = (s.tile t).flags
      ∧ ∀ k, (s'.tile t).vec.maskValue k = if k = bits (vecFields i.word).vd 2 0 ∧ k ≠ 0
          then BitVec.ofNat 256 (leNat (bytesAt (s.tile t).scratch i.arg.toNat 32)) else (s.tile t).vec.maskValue k) ∧
  (∀ (s : State) (t : TileId) (i : Issue), s.vecHead t 2 0x07 = some i → i.arg.toNat % 32 = 0 → i.arg.toNat + 32 ≤ 0x1800000 →
    ∃ s', exec (.kst t) s = .next s' ∧ s.onlyTile t s' ∧ (s.tile t).vectorDone (s'.tile t) i [(i.arg.toNat, 32)]
      ∧ (s'.tile t).vec = { (s.tile t).vec with ordinal := (s.tile t).vec.ordinal + 1 } ∧ (s'.tile t).flags = (s.tile t).flags
      ∧ ∀ a, byteAt (s'.tile t).scratch a = if i.arg.toNat ≤ a ∧ a < i.arg.toNat + 32
          then ((s.tile t).vec.maskValue (bits (vecFields i.word).vd 2 0)).extractLsb' (8 * (a - i.arg.toNat)) 8
          else byteAt (s.tile t).scratch a) ∧
  (∀ (s : State) (t : TileId) (i : Issue) (d : Tensor), s.vecHead t 2 0x08 = some i →
    mapGet none (s.tile t).vec.slots ((vecFields i.word).aux % 8) = none →
    (s.leaveQueue t .vector i).readTensor (dieOf t) ((s.tilePart t).getD 0) i.arg = .ok d →
    ∃ s', exec (.cbind t) s = .next s' ∧ s' = { s with tiles := s'.tiles, queues := s'.queues }
      ∧ (∀ u, u ≠ t → s'.tile u = s.tile u) ∧ (s.tile t).vectorDone (s'.tile t) i []
      ∧ (s'.tile t).scratch = (s.tile t).scratch ∧ (s'.tile t).flags = (s.tile t).flags
      ∧ (∃ sl, mapGet none (s'.tile t).vec.slots ((vecFields i.word).aux % 8) = some sl ∧ sl.tdesc = i.arg ∧ sl.ceiling = 0)
      ∧ ∀ n, n ≠ (vecFields i.word).aux % 8 →
          mapGet none (s'.tile t).vec.slots n = mapGet none (s.tile t).vec.slots n)

/-- The lanes that an instruction operates on. -/
def Sys2Proof.Machine.State.lanesOf (s : State) (t : TileId) (f : VF) : List Nat := (s.tile t).vec.lanesOn f.lane f.mreg


/-- R159, R160: a load gives the masked-on elements of vd the elements of its format at s[va], or at s[va] + index × size for
a gather, converted to the lane type, and changes no other element and no byte of scratchpad. A format without a scale plane
is read as it stands; a fret64 element of a floating lane type takes a free base (notes/assumptions/32.md, 33.md). R159, R161: a store writes the masked-on elements of vd, converted to its format, at s[va] onward, or at s[va] + index ×
size for a scatter, and no byte outside their units; of elements that a scatter sends to one place the highest lane's
remains. The stored bytes are stated for a format of whole bytes. -/
def Obligations.VectorMemoryAccesses : Prop :=
  (∀ r ∈ ([(0x00, .vld, false), (0x02, .gather, true)] : List (Nat × (TileId → Instr) × Bool)),
    ∀ (s : State) (t : TileId) (i : Issue) (f : VF) (g : Format) (at_ : Nat → Int), s.vecHead t 2 r.1 = some i →
      f = vecFields i.word → g = f.format →
      (∀ e, at_ e = (i.arg.toNat : Int) + (if r.2.2 = true then s.laneIndex t f e else ((e / g.unitElems : Nat) : Int)) * g.unitBytes) →
      i.arg.toNat % g.align = 0 →
      (∀ e ∈ s.lanesOf t f, 0 ≤ at_ e ∧ at_ e + g.unitBytes ≤ 0x1800000
        ∧ ∀ w ∈ wordsOf (at_ e).toNat g.unitBytes, w ∉ (s.tile t).spoison) →
      ∃ s', exec (r.2.1 t) s = .next s' ∧ s' = { s with tiles := s'.tiles, fresh := s'.fresh }
        ∧ (∀ u, u ≠ t → s'.tile u = s.tile u) ∧ (s.tile t).vectorDone (s'.tile t) i []
        ∧ (s'.tile t).scratch = (s.tile t).scratch ∧ (s'.tile t).seq.regs = (s.tile t).seq.regs
        ∧ (s'.tile t).vec = { (s.tile t).vec with regs := (s'.tile t).vec.regs, ordinal := (s.tile t).vec.ordinal + 1 }
        ∧ ∃ base : Int, ∀ p e, p < 32 → e < f.lane.count →
            (p = f.vd ∧ (s.tile t).vec.on f.mreg e = true →
              ∃ sc : Bytes, (g.blk ≠ .b32 → sc = []) ∧ (s'.tile t).vec.elem f.lane p e =
                (loadElem f.lane g f.rctl base (g.rawAt (bytesAt (s.tile t).scratch (at_ e).toNat g.unitBytes) sc
                  (if r.2.2 = true then 0 else e % g.unitElems))).1 % 2 ^ f.lane.width)
            ∧ (¬ (p = f.vd ∧ (s.tile t).vec.on f.mreg e = true) →
              (s'.tile t).vec.elem f.lane p e = (s.tile t).vec.elem f.lane p e)) ∧
  (∀ r ∈ ([(0x01, .vst, false), (0x03, .scatter, true)] : List (Nat × (TileId → Instr) × Bool)),
    ∀ (s : State) (t : TileId) (i : Issue) (f : VF) (g : Format) (at_ : Nat → Int), s.vecHead t 2 r.1 = some i →
      f = vecFields i.word → g = f.format →
      (∀ e, at_ e = (i.arg.toNat : Int) + (if r.2.2 = true then s.laneIndex t f e else ((e / g.unitElems : Nat) : Int)) * g.unitBytes) →
      i.arg.toNat % g.align = 0 → (s.tile t).vec.slotOk f.cslot = true →
      (∀ e ∈ s.lanesOf t f, 0 ≤ at_ e ∧ at_ e + g.unitBytes ≤ 0x1800000) →
      ∃ s', exec (r.2.1 t) s = .next s' ∧ s' = { s with tiles := s'.tiles, fresh := s'.fresh, queues := s'.queues }
        ∧ (∀ u, u ≠ t → s'.tile u = s.tile u)
        ∧ (s'.tile t).vq = (s.tile t).vq.drop 1 ∧ (s'.tile t).vec.regs = (s.tile t).vec.regs
        ∧ (s'.tile t).vec.masks = (s.tile t).vec.masks ∧ (s'.tile t).seq.regs = (s.tile t).seq.regs
        ∧ (∃ spans, (s'.tile t).finished = (s.tile t).finished ++ [⟨.vector, i.word, i.pc, spans⟩])
        ∧ (∀ a : Nat, (∀ e ∈ s.lanesOf t f, ¬ (at_ e ≤ (a : Int) ∧ (a : Int) < at_ e + g.unitBytes)) →
            byteAt (s'.tile t).scratch a = byteAt (s.tile t).scratch a)
        ∧ (g.blk = .none → g.elem.width % 8 = 0 → ∃ base : Int, ∀ e ∈ s.lanesOf t f,
            (∀ e' ∈ s.lanesOf t f, e < e' → at_ e' + g.unitBytes ≤ at_ e ∨ at_ e + g.unitBytes ≤ at_ e') →
            bytesAt (s'.tile t).scratch (at_ e).toNat (g.elem.width / 8)
              = natLe (storeElem f.lane g f.rctl base ((s.tile t).vec.elem f.lane f.vd e)).1 (g.elem.width / 8)))

/-- The output of each tile operation from the rows of its source, as rows are stored, and the positions that ttopk writes
(R163 to R165): function, command, output rows, positions. -/
def Sys2Proof.Machine.tileOutputs : List (Nat × (TileId → Instr)
    × (State → TileId → VOp → List (List (Nat × Nat)) → List OutRow) × (VOp → List (List (Nat × Nat)) → List (List Nat))) :=
  [(0x00, .tmap, fun s t o rows => rows.mapIdx fun i r => o.encodeLanes o.f.rctl i (r.mapIdx fun j raw =>
      (tmapElem s.boot.fnTables o (s.tile t).vec o.f.rctl s.fresh i j raw).1), fun _ _ => []),
   (0x02, .treduce, fun _ _ o rows => (o.reduce o.f.rctl rows).1, fun _ _ => []),
   (0x03, .ttopk, fun _ _ o rows => (rows.mapIdx o.topRow).map Prod.fst, fun o rows => (rows.mapIdx o.topRow).map Prod.snd)]

/-- Rows of output and elements in each. -/
def Sys2Proof.Machine.outShape (vop : Nat) (o : VOp) : Nat × Nat :=
  if vop = 2 then (if o.d.axis then (1, o.d.cols) else (o.d.rows, 1)) else (o.d.rows, if vop = 3 then o.d.k else o.d.cols)

/-- R162 to R165: a tile operation at the head of the vector queue, whose descriptor names no output tensor and no format
with a scale plane, writes its output rows at their pitch, ttopk its positions too, and no other byte of scratchpad. The
bytes of a row are stated for a format of whole bytes and rows that do not overlap. -/
def Obligations.TileOperationsWriteRows : Prop :=
  ∀ r ∈ tileOutputs, ∀ (s s1 : State) (t : TileId) (i : Issue) (o : VOp) (rows : List (List (Nat × Nat))) (rs : List OutRow),
    s.vecHead t 1 r.1 = some i → i.arg.toNat % 64 = 0 → i.arg.toNat + 64 ≤ 0x1800000 →
    s1 = { s.leaveQueue t .vector i with fresh := s.fresh + 1 } →
    (s.leaveQueue t .vector i).vopOf t i = .ok o → o.d.tsrc = 0 → o.d.tdst = 0 → o.f.rctl.rnd ≠ .stochastic →
    o.d.srcFmt.blk ≠ .b32 → o.d.dstFmt.blk ≠ .b32 →
    rowsIn o.d.src o.d.srcPitch (o.d.srcFmt.rowBytes (o.d.srcFmt.padded o.d.cols)) o.d.rows = true →
    rs = r.2.2.1 s1 t o rows →
    rowsIn o.d.dst o.d.dstPitch (o.d.dstFmt.rowBytes (o.d.dstFmt.padded (outShape r.1 o).2)) (outShape r.1 o).1 = true →
    (r.1 = 3 → o.d.posAddr + 4 * o.d.k * o.d.rows ≤ 0x1800000) →
    (s1.sourceRows t o (List.range o.d.rows)).2 = .ok rows →
    ∃ s', exec (r.2.1 t) s = .next s' ∧ s' = { s with tiles := s'.tiles, fresh := s'.fresh, queues := s'.queues }
      ∧ (∀ u, u ≠ t → s'.tile u = s.tile u) ∧ (s'.tile t).vq = (s.tile t).vq.drop 1
      ∧ (s'.tile t).vec.regs = (s.tile t).vec.regs ∧ (s'.tile t).vec.masks = (s.tile t).vec.masks
      ∧ (s'.tile t).finished = (s.tile t).finished
          ++ [⟨.vector, i.word, i.pc, rs.map fun w => (o.d.dst + w.row * o.d.dstPitch, w.enc.row.length)⟩]
      ∧ (∀ a, (∀ w ∈ rs, ¬ (o.d.dst + w.row * o.d.dstPitch ≤ a ∧ a < o.d.dst + w.row * o.d.dstPitch + w.enc.row.length)) →
          (∀ m ps, (r.2.2.2 o rows)[m]? = some ps → ¬ (o.d.posAddr + 4 * o.d.k * m ≤ a ∧ a < o.d.posAddr + 4 * o.d.k * m + 4 * ps.length)) →
          byteAt (s'.tile t).scratch a = byteAt (s.tile t).scratch a)
      ∧ (o.d.dstFmt.elem.width % 8 = 0 →
          (rs.Pairwise fun v w => o.d.dst + v.row * o.d.dstPitch + v.enc.row.length ≤ o.d.dst + w.row * o.d.dstPitch) →
          ∀ w ∈ rs, bytesAt (s'.tile t).scratch (o.d.dst + w.row * o.d.dstPitch) w.enc.row.length = w.enc.row)
      ∧ (∀ m ps, (r.2.2.2 o rows)[m]? = some ps →
          (∀ w ∈ rs, o.d.dst + w.row * o.d.dstPitch + w.enc.row.length ≤ o.d.posAddr + 4 * o.d.k * m
            ∨ o.d.posAddr + 4 * o.d.k * m + 4 * ps.length ≤ o.d.dst + w.row * o.d.dstPitch) →
          bytesAt (s'.tile t).scratch (o.d.posAddr + 4 * o.d.k * m) (4 * ps.length) = (ps.map fun p => natLe p 4).flatten)

/-! ## Matrix array -/

/-- Nothing but pane `p` of tile `t` differs. -/
def Sys2Proof.Machine.State.onlyPane (t : TileId) (p : PaneId) (s s' : State) : Prop :=
  s.onlyTile t s' ∧ s'.tile t = { s.tile t with arr := { (s.tile t).arr with panes := (s'.tile t).arr.panes } }
    ∧ ∀ o, o ≠ p → (s'.tile t).pane o = (s.tile t).pane o

/-- Tile `t` has matrix instruction `i` of its own program on pane `p`, and nothing holds the array back: the tile is in
service, and its holder is not being pre-empted (R114). -/
abbrev Sys2Proof.Machine.State.folds (s : State) (t : TileId) (p : PaneId) (i : MatInstr) : Prop :=
  ((s.tile t).pane p).instr = some i ∧ (s.tile t).inService = true ∧ s.tileStopping t = false
    ∧ s.matmulOn t = none

/-- Side W of the panes of tile `t` (R102). -/
def Sys2Proof.Machine.State.paneSide (s : State) (t : TileId) : Nat := paneW (s.tile t).arr.cfg

/-- R136, R110: a first instruction without an addend and without named descriptors, whose checks pass, leaves the array
queue for its pane, which takes its mode and chain length and a clear block; it waits for a set unless it names the active
one (R105, R108). -/
def Obligations.MatrixInstructionEntersPane : Prop :=
  ∀ (s : State) (t : TileId) (h : Issue) (q : List Issue) (d : Bytes), (s.tile t).aq = h :: q → fWv h.word = false →
    (s.tile t).inService = true → s.tileStopping t = false → mmaCfg h.word = (s.tile t).arr.cfg →
    ((s.tile t).pane (mmaPane h.word)).instr = none → ((s.tile t).pane (mmaPane h.word)).resident = false →
    h.arg.toNat % 128 = 0 → (s.tile t).scratchRead h.arg.toNat 128 = .ok d →
    ∀ i c, i = matInstrOf h d ((s.tile t).pane (mmaPane h.word)).active (s.tile t).arr.serials (s.tile t).arr.ordinals →
      accCtlOf i.acc = some c → c.cont = false → c.auto = false → i.cAddr = 0xFFFFFFFF →
      bits (leNat d) 767 512 = 0 → (fmtOf i.aFmt).needsTensor = false → (i.act = true ∨ (fmtOf i.bFmt).needsTensor = false) →
      (fmtOf i.dFmt).needsTensor = false →
      matChecks i d (bits (leNat d) 351 320) ((s.tile t).pane (mmaPane h.word)).active = none →
      ∃ s', exec (.matrixInstructionStart t) s = .next s' ∧ (s'.tile t).aq = q
        ∧ (∃ j, ((s'.tile t).pane (mmaPane h.word)).instr = some j ∧ j.m = bits (leNat d) 271 256 ∧ j.n = bits (leNat d) 287 272
          ∧ j.k = bits (leNat d) 319 288 ∧ j.phase = (if i.act then .pass else j.phase))
        ∧ ((s'.tile t).pane (mmaPane h.word)).mode = c.fast ∧ ((s'.tile t).pane (mmaPane h.word)).acc = []
        ∧ ((s'.tile t).pane (mmaPane h.word)).chain = bits (leNat d) 351 320
        ∧ ((s'.tile t).pane (mmaPane h.word)).kDone = 0
        ∧ (∀ o, o ≠ mmaPane h.word → (s'.tile t).pane o = (s.tile t).pane o)
        ∧ (c.last = true → (s'.tile t).fret = 0) ∧ (s'.tile t).scratch = (s.tile t).scratch
        ∧ (s'.tile t).seq = (s.tile t).seq


/-- R104: with no instruction and no resident block on any pane the array takes the configuration of the head of its queue.
R106, R107: the shadow set that a pass needs is filled from B's rows, and a swap makes it the active one, which its pass
then uses. Nothing but the array changes. R109, R79: a pass adds its contributions to the accumulators of the rows it streams and the cursor moves to the next
pass of the block (R105). R189: a reload takes the accumulators, the base and the chain's progress from a sound image. -/
def Obligations.ArraySetsPassesAndReloads : Prop :=
  ((∀ (s : State) (t : TileId) (h : Issue) (q : List Issue), (s.tile t).aq = h :: q → fWv h.word = false →
    (s.tile t).inService = true → s.tileStopping t = false → mmaCfg h.word ≠ (s.tile t).arr.cfg →
    (∀ e ∈ (s.tile t).arr.panes, e.2.instr = none ∧ e.2.resident = false) →
    ∃ s', exec (.paneReconfigure t) s = .next s' ∧ s.onlyTile t s'
      ∧ s'.tile t = { s.tile t with arr := { (s.tile t).arr with cfg := mmaCfg h.word, panes := [] } }) ∧
  (∀ (s : State) (t : TileId) (p : PaneId) (i : MatInstr) (rows : List (List (Nat × Nat))), s.folds t p i → i.phase = .needSet →
    ((s.tile t).pane p).shadow = none →
    s.opRows t (fmtOf i.bFmt) i.bAddr i.bPitch i.bT (i.cursor.kSlice * s.paneSide t) (i.kLen (s.paneSide t))
      ((upTo (i.setCols (s.paneSide t))).map (· + (i.cursor.nBlock * (2 * s.paneSide t)
        + if i.path.halves = 2 then bnat i.cursor.half * s.paneSide t else 0))) = (s, .ok rows) →
    ∃ s' x, exec (.stationarySetLoaded t p) s = .next s' ∧ s.onlyPane t p s'
      ∧ (s'.tile t).pane p = { (s.tile t).pane p with shadow := some x }
      ∧ x.kSlice = i.cursor.kSlice ∧ x.nBlock = i.cursor.nBlock ∧ x.term = i.cursor.term ∧ x.half = i.cursor.half
      ∧ x.kLen = i.kLen (s.paneSide t) ∧ x.cols = i.setCols (s.paneSide t) ∧ x.fmt = i.bFmt ∧ i.servedBy x = true) ∧
  (∀ (s : State) (t : TileId) (p : PaneId) (i : MatInstr) (x : StatSet), s.folds t p i → i.phase = .needSet →
    ((s.tile t).pane p).shadow = some x →
    ∃ s', exec (.swap t p) s = .next s' ∧ s.onlyPane t p s'
      ∧ (s'.tile t).pane p = { (s.tile t).pane p with
          active := some x, shadow := none, instr := some { i with phase := .pass } })) ∧
  ((∀ (s : State) (t : TileId) (p : PaneId) (i : MatInstr) (x : StatSet) (cur : Cursor) (rows : List (List (Nat × Nat))),
    s.folds t p i → i.phase = .pass → ((s.tile t).pane p).active = some x → s.tel.trace.ovfEvent = false →
    s.opRows t (fmtOf i.aFmt) i.aAddr i.aPitch i.aT (i.cursor.kSlice * s.paneSide t)
      (if i.act then i.k else i.kLen (s.paneSide t))
      (((upTo (i.rows (s.paneSide t))).filter fun r => i.cursor.mRow ≤ r).map (· + i.cursor.mBlock * s.paneSide t)) = (s, .ok rows) →
    i.advance (s.paneSide t) = some cur →
    ∃ s', exec (.passEnd t p .good) s = .next s' ∧ s' = { s with tiles := s'.tiles, tel := s'.tel }
      ∧ (∀ u, u ≠ t → s'.tile u = s.tile u)
      ∧ (∀ o, o ≠ p → (s'.tile t).pane o = (s.tile t).pane o)
      ∧ ((s'.tile t).pane p).acc =
          (passElems i (s.paneSide t) (baseInt ((s.tile t).pane p).base) ((s.tile t).pane p).acc x
            (((upTo (i.rows (s.paneSide t))).filter fun r => i.cursor.mRow ≤ r).zip rows)).foldl
            (fun m e => mapPut {} m (2 * s.paneSide t * e.row + e.col) e.acc) ((s.tile t).pane p).acc
      ∧ (∃ j, ((s'.tile t).pane p).instr = some j ∧ j = { i with cursor := cur, phase := j.phase }
          ∧ (j.phase = .pass ↔ (i.act || ({ i with cursor := cur } : MatInstr).servedBy x) = true))
      ∧ (s'.tile t).seq = (s.tile t).seq ∧ (s'.tile t).scratch = (s.tile t).scratch) ∧
  (∀ (s : State) (t : TileId) (p : PaneId) (i : MatInstr) (a : Word) (h body : Bytes), s.folds t p i → i.phase = .reload →
    s.placeImage t i.image (s.paneSide t) (i.cursor.mBlock * i.nBlocks (s.paneSide t) + i.cursor.nBlock) = some a →
    s.reachRead t .bypass a 64 = (s, .ok h) →
    s.reachRead t .bypass (a + 4096) (40 * s.paneSide t * s.paneSide t) = (s, .ok body) →
    imageOk (s.tile t).arr.cfg i h body = true → s.tel.trace.ovfEvent = false →
    ∃ s', exec (.reload t p) s = .next s' ∧ s' = { s with tiles := s'.tiles, queues := s'.queues, tel := s'.tel }
      ∧ (∀ u, u ≠ t → s'.tile u = s.tile u) ∧ (∀ o, o ≠ p → (s'.tile t).pane o = (s.tile t).pane o)
      ∧ ((s'.tile t).pane p).acc = imageAccs (s.paneSide t) body
      ∧ ((s'.tile t).pane p).base = BitVec.ofNat 10 (bits (leNat h) 41 32)
      ∧ ((s'.tile t).pane p).kDone = bits (leNat h) 95 64 ∧ ((s'.tile t).pane p).chain = bits (leNat h) 127 96
      ∧ (∃ j, ((s'.tile t).pane p).instr = some j ∧ j = { i with phase := j.phase })
      ∧ (s'.tile t).seq = (s.tile t).seq ∧ (s'.tile t).scratch = (s.tile t).scratch))

/-- The bytes of row `r` of the first block of an instruction on a pane, as its readout gives them (R81, R94, R111). -/
def Sys2Proof.Machine.State.readoutRow (s : State) (t : TileId) (p : PaneId) (i : MatInstr) (r : Nat) : Bytes :=
  (readRow i (baseInt ((s.tile t).pane p).base) ((upTo (i.cols (s.paneSide t))).map fun k =>
    (mapGet {} ((s.tile t).pane p).acc (2 * s.paneSide t * r + k),
     drawFor i.rc i.seed ((Config.free64 s.fresh).setWidth 32) (r * i.n + k)))).row

/-- R110, R188: a resident block that makes way leaves its accumulators in the image it is given, and its pane empty.
R111, R81: the readout of an instruction of one block writes each row, rounded to D's format, at its place in the scratchpad,
clears the accumulators and finishes the instruction. -/
def Obligations.SpillsAndReadoutsLeaveThePane : Prop :=
  (∀ (s s1 s2 : State) (t : TileId) (p : PaneId) (a : Word), ((s.tile t).pane p).instr = none →
    ((s.tile t).pane p).resident = true → ((s.tile t).pane p).place = some a → (s.tile t).forcesSpill p = true →
    (s.tile t).inService = true → s2.tel.trace.ovfEvent = false →
    s.reachWrite t .noAllocate a (imageHeader (s.tile t).arr.cfg ((s.tile t).pane p)
      (imageBody (s.paneSide t) ((s.tile t).pane p).acc)) = (s1, none) →
    s1.reachWrite t .noAllocate (a + 4096) (imageBody (s.paneSide t) ((s.tile t).pane p).acc) = (s2, none) →
    ∃ s', exec (.spill t p .good) s = .next s' ∧ s'.mem = s2.mem ∧ s'.host = s2.host
      ∧ (s'.tile t).pane p = { (s2.tile t).pane p with acc := [], resident := false, place := none }
      ∧ (s'.tile t).scratch = (s2.tile t).scratch ∧ (s'.tile t).seq = (s2.tile t).seq
      ∧ s' = { s2 with tiles := s'.tiles, queues := s'.queues, tel := s'.tel, xqs := s'.xqs }) ∧
  (∀ (s : State) (t : TileId) (p : PaneId) (i : MatInstr), ((s.tile t).pane p).instr = some i → i.phase = .out →
    (s.tile t).inService = true → s.matmulOn t = none → i.dT = none → i.mBlocks (s.paneSide t) = 1 → i.nBlocks (s.paneSide t) = 1 →
    i.cursor = {} → (∀ c, s.tileCmd t = some c → s.paired c.queue = false) →
    (fmtOf i.dFmt).blk = .none →
    (∀ r < i.rows (s.paneSide t), i.dAddr.toNat + r * i.dPitch.toNat + (s.readoutRow t p i r).length ≤ 0x1800000) →
    ∃ s', exec (.readout t p .good) s = .next s' ∧ s'.mem = s.mem ∧ s'.host = s.host ∧ ((s'.tile t).pane p).acc = []
      ∧ (s'.tile t).scratch = (upTo (i.rows (s.paneSide t))).foldl (fun m r =>
          putBytes m (i.dAddr.toNat + r * i.dPitch.toNat) (s.readoutRow t p i r)) (s.tile t).scratch)
/-! ## DMA engine -/

/-- R179, R181, R182, R193: the descriptor at the head of the DMA queue, of the kind that its command names, whose checks
pass and which stays in this module, begins: it leaves the queue and stands last among the outstanding ones, with its fields
and no segment done. -/
def Obligations.DescriptorsBeginInOrder : Prop :=
  ∀ r ∈ ([(0, .dmaCopy), (1, .dmaGather), (2, .dmaScatter)] : List (Nat × (TileId → Instr))),
    ∀ (s : State) (t : TileId) (i : Issue) (q : List Issue) (b : Bytes), (s.tile t).dq = i :: q → fWv i.word = false →
      (s.tile t).inService = true → s.tileStopping t = false → (s.tile t).dma.ops.length < 64 →
      (∀ o ∈ (s.tile t).dma.ops, o.remote = false) →
      i.arg.toNat % 128 = 0 → (s.tile t).scratchRead i.arg.toNat 128 = .ok b → (dmaDescOf b).kind.toNat = r.1 →
      dmaCheck b (dmaDescOf b) = none → (dmaDescOf b).tdescSrc = 0 → (dmaDescOf b).tdescDst = 0 →
      spaceOf (dmaDescOf b).src ≠ 3 → spaceOf (dmaDescOf b).dst ≠ 3 → spaceOf (dmaDescOf b).scale ≠ 3 →
      ∃ s' o, exec (r.2 t) s = .next s' ∧ s' = { s with tiles := s'.tiles, queues := s'.queues }
        ∧ (∀ u, u ≠ t → s'.tile u = s.tile u) ∧ (s'.tile t).dq = q ∧ (s'.tile t).dma.ops = (s.tile t).dma.ops ++ [o]
        ∧ o.desc = dmaDescOf b ∧ o.next = 0 ∧ o.segs = (dmaDescOf b).segCount ∧ o.pc = i.pc ∧ o.word = i.word
        ∧ o.ordinal = (s.tile t).dma.ordinals
        ∧ s'.tile t = { s.tile t with dq := q, dma := (s'.tile t).dma }

/-- R182, R193: a segment of a tile's own descriptor that copies between its scratchpad and what it can read stores the
source's bytes at the destination, where neither overlaps the source; the descriptor completes with its last segment. -/
def Obligations.SegmentsMoveBytes : Prop :=
  ∀ (s : State) (t : TileId) (n : Nat) (o : DmaOp) (g : Seg) (src : Bytes) (a : Nat), (s.tile t).dma.ops[n]? = some o →
    (∀ p ∈ (s.tile t).dma.ops, p.serial = o.serial → p = o) →
    o.remote = false → o.next < o.segs → s.opStopping t o = false → (s.tile t).inReset = false → (s.tile t).zeroing = false →
    segOf (s.tile t) o.desc o.next = .ok g → g.srcScale = none → g.dstScale = none → o.desc.kind ≠ 2 → o.desc.same = true →
    o.desc.tdescDst = 0 → o.cmd = none → o.sent = [] → (∀ c, s.tileCmd t = some c → s.paired c.queue = false) →
    s.tel.trace.ovfEvent = false →
    s.reachRead t (policyNum o.desc.srcCache) g.srcA g.srcN = (s, .ok src) →
    reachOf g.dstA = .ok (.scratch a) → a + g.dstN ≤ 0x1800000 →
    (∀ k < g.dstN, o.readsByte (s.tile t) t (ownSpace t g.dstA + k) = false) →
    ∃ s', exec (.segmentComplete t n) s = .next s' ∧ (∀ u, u ≠ t → s'.tile u = s.tile u)
      ∧ s' = { s with tiles := s'.tiles, fresh := s.fresh + g.dstN, tel := s'.tel }
      ∧ (s'.tile t).scratch = putBytes (s.tile t).scratch a (slice src g.cut g.dstN)
      ∧ (if o.next + 1 < o.segs then ((s'.tile t).op? o.serial).map (fun p => p.next) = some (o.next + 1)
          ∧ (s'.tile t).finished = (s.tile t).finished
        else (s'.tile t).op? o.serial = none ∧ (s'.tile t).finished = (s.tile t).finished ++ [⟨.dma, o.word, o.pc, []⟩])
      ∧ (s'.tile t).seq = (s.tile t).seq ∧ (s'.tile t).vec = (s.tile t).vec ∧ (s'.tile t).arr = (s.tile t).arr

/-! ## Scratchpads, die caches, stacks -/


/-- R174, R175: a scrub passes one line and wraps after the last; a double-bit error poisons its 8-byte word, a corrected one
leaves the contents; zeroing ends with its command. Reports of what was found go to the rings alone. R196: an evicted line's dirty bytes reach memory, its other bytes do not, and the cache holds it no more. R211: the
clearing after an acquire ends; it drops the clean bytes of earlier generations and keeps every dirty one. -/
def Obligations.ScratchpadsAndCachesAreKept : Prop :=
  ((∀ (s : State) (t : TileId), ∃ s', exec (.scratchpadScrub t .clean) s = .next s' ∧ s.onlyTile t s'
    ∧ s'.tile t = { s.tile t with scrubPos := ((s.tile t).scrubPos + 1) % 393216 }) ∧
  (∀ (s : State) (t : TileId), ∃ s', exec (.scratchpadScrub t .single) s = .next s'
    ∧ (s.setTile t { s.tile t with scrubPos := ((s.tile t).scrubPos + 1) % 393216 }).reportsTo s') ∧
  (∀ (s : State) (t : TileId) (w : Fin 8), ∃ s', exec (.scratchpadScrub t (.double w)) s = .next s'
    ∧ 8 * (s.tile t).scrubPos + w.val ∈ (s'.tile t).spoison
    ∧ s'.tile t = { s.tile t with scrubPos := ((s.tile t).scrubPos + 1) % 393216, spoison := (s'.tile t).spoison }
    ∧ (∀ u, u ≠ t → s'.tile u = s.tile u) ∧ State.reportsTo { s with tiles := s'.tiles } s') ∧
  (∀ (s : State) (t : TileId), ∃ s', exec (.zeroingDone t) s = .next s' ∧ s.onlyTile t s'
    ∧ s'.tile t = { s.tile t with zeroing := false })) ∧
  ((∀ (s : State) (d : DieId) (line : Nat) (l : CLine), s.cline d line = some l → s.bridgeFail d (64 * line) = none →
    s.agentFenced (64 * line) = none → s.poison.contains line = false → s.tel.trace.ovfEvent = false →
    ∃ s', exec (.dieCacheEviction d line) s = .next s' ∧ s'.cline d line = none
      ∧ (∀ a, byteAt s'.mem a = if a / 64 = line ∧ l.dirty.getLsbD (a % 64) = true then byteAt l.bytes (a % 64) else byteAt s.mem a)
      ∧ (∀ k, k ≠ line → s'.cline d k = s.cline d k) ∧ (∀ e, e ≠ d → s'.die e = s.die e)
      ∧ s' = { s with mem := s'.mem, poison := s'.poison, dies := s'.dies, tel := s'.tel }) ∧
  (∀ (s : State) (d : DieId), (s.die d).clearing = true → mapWf none (s.die d).cache →
    ∃ s', exec (.cacheClearingDone d) s = .next s' ∧ (s'.die d).clearing = false ∧ (s'.die d).gen = (s.die d).gen
      ∧ (∀ e, e ≠ d → s'.die e = s.die e) ∧ s' = { s with dies := s'.dies }
      ∧ (∀ line, s.cline d line = none → s'.cline d line = none)
      ∧ (∀ line l, s.cline d line = some l → ∀ k : CLine, s'.cline d line = some k →
          k.dirty = l.dirty ∧ k.bytes = l.bytes ∧ (l.gen ≠ (s.die d).gen → k.valid = 0) ∧ (l.gen = (s.die d).gen → k.valid = l.valid))
      ∧ (∀ line l, s.cline d line = some l → s'.cline d line = none → l.dirty = 0)))

/-- R225, R226, R228: a stack agent serves a clean read and counts its bytes; a line found uncorrectable is poisoned; a
write stores its bytes and no others. R227: a scrub passes one line; a pass of the whole stack is counted, up to 255. -/
def Obligations.StackAgentsServeAccesses : Prop :=
  (∀ (s : State) (k : StackId) (a : StackAccess) (b : Bytes), s.agentServes k a.pa.toNat = true →
    s.agentRead a.pa.toNat a.bytes = .ok b → s.tel.trace.ovfEvent = false →
    mapGet 0 s.tel.perf (srcStack k).toNat = 0 → a.bytes < 2 ^ 48 →
    ∃ s', exec (.stackRead k a .clean) s = .next s' ∧ s' = { s with tel := { s.tel with perf := s'.tel.perf } }
      ∧ mapGet 0 s'.tel.perf (srcStack k).toNat = BitVec.ofNat 49 a.bytes) ∧
  (∀ (s : State) (k : StackId) (a : StackAccess), s.agentServes k a.pa.toNat = true → a.cmd = none →
    s.poison.contains (a.pa.toNat / 64) = false →
    ∃ s', exec (.stackRead k a .uncorrectable) s = .next s'
      ∧ (s'.stack k).uncorrected.toNat = min ((s.stack k).uncorrected.toNat + 1) 0xFFFFFFFF
      ∧ s'.tiles = s.tiles ∧ s'.queues = s.queues) ∧
  (∀ (s : State) (k : StackId) (a : StackAccess) (d : DieId) (o : Nat) (data : Bytes), s.agentServes k a.pa.toNat = true →
    s.agentFenced a.pa.toNat = none → s.paKind a.pa.toNat = .region d o → o + data.length ≤ s.regionSize d →
    (∀ l ∈ linesOf a.pa.toNat data.length, s.poison.contains l = false) → s.tel.trace.ovfEvent = false →
    ∃ s', exec (.stackWrite k a data .clean) s = .next s'
      ∧ s' = { s with mem := s'.mem, poison := s'.poison, tel := s'.tel }
      ∧ ∀ x, byteAt s'.mem x = if a.pa.toNat ≤ x ∧ x < a.pa.toNat + data.length then data.getD (x - a.pa.toNat) 0 else byteAt s.mem x) ∧
  (∀ (s : State) (k : StackId), (s.stack k).unavailable = false → (s.stack k).selfRefresh = false → s.tel.trace.ovfEvent = false →
    ∃ s', exec (.stackScrub k .clean) s = .next s' ∧ s' = { s with memStacks := s'.memStacks, tel := s'.tel }
      ∧ (∀ j, j ≠ k → s'.stack j = s.stack j)
      ∧ s'.stack k = { s.stack k with
          scrubPos := ((s.stack k).scrubPos + 1) % 2 ^ 31
          scrubPasses := if ((s.stack k).scrubPos + 1) % 2 ^ 31 = 0 ∧ (s.stack k).scrubPasses ≠ 0xFF
            then (s.stack k).scrubPasses + 1 else (s.stack k).scrubPasses })

/-! ## Atomics and counters -/

/-- The atomic commands (R231): code, command, and the new value for a width in bits, the value at the target, the operand
and the comparand, all as natural numbers; fp32_add is stated apart. -/
def Sys2Proof.Machine.atomRules : List (Nat × (AtomicRequest → Instr) × (Nat → Nat → Nat → Nat → Nat)) :=
  [(0x0, .atomicAdd, fun w v o _ => (v + o) % 2 ^ w),
   (0x1, .atomicSmin, fun w v o _ => if signed w o < signed w v then o else v),
   (0x2, .atomicSmax, fun w v o _ => if signed w v < signed w o then o else v),
   (0x3, .atomicUmin, fun _ v o _ => min v o), (0x4, .atomicUmax, fun _ v o _ => max v o),
   (0x5, .atomicAnd, fun _ v o _ => v &&& o), (0x6, .atomicOr, fun _ v o _ => v ||| o), (0x7, .atomicXor, fun _ v o _ => v ^^^ o),
   (0x8, .atomicSwap, fun _ _ o _ => o), (0x9, .atomicCas, fun _ v o e => if v = e then o else v),
   (0xA, .atomicFret64Add, fun _ v o _ => (v + o) % 2 ^ 64),
   (0xB, .atomicFret128Add, fun _ v o e => (v + (o + 2 ^ 64 * e)) % 2 ^ 128)]

/-- The width in bytes of an atomic's target (R231). -/
def Sys2Proof.Machine.atomWidth (op : Nat) (w64 : Bool) : Nat :=
  if op = 0xA then 8 else if op = 0xB then 16 else if op = 0xC then 4 else if w64 then 8 else 4

/-- The request of a command as its agent reads it. -/
def Sys2Proof.Machine.reqOf (a : AtomicRequest) (op : Nat) : AtomReq :=
  ⟨a.target, a.operand, a.extra, a.result, op, a.w64, a.reserved.toNat⟩

/-- The place in memory of a request whose checks pass, that no die cache holds, and whose line can be read and written. -/
abbrev Sys2Proof.Machine.State.atomAt (s : State) (a : AtomicRequest) (op pa : Nat) (x : Cmd) : Prop :=
  s.findSeq a.cmd.queue a.cmd.seq .begun = some x ∧ s.cmd? ⟨a.cmd.queue, x.id⟩ = some x ∧ (reqOf a op).check = none ∧
  (∃ l d o, s.translate (s.queuePart a.cmd.queue) (a.target.toNat % 2 ^ 48) = .ok l ∧ l.atomic = true ∧ l.pa = pa
    ∧ s.paKind pa = .region d o ∧ o + atomWidth op a.w64 ≤ s.regionSize d) ∧
  pa % 64 + atomWidth op a.w64 ≤ 64 ∧ s.cline a.die (pa / 64) = none ∧ s.bridgeFail a.die pa = none ∧
  s.agentFenced pa = none ∧ s.poison.contains (pa / 64) = false ∧ s.tel.trace.ovfEvent = false

/-- R212, R230, R231: an atomic of a command that asks for no old value puts the new value that its operation gives at its
target, and changes no other byte of memory. R213: an FP32 add marks its command fast and raises its flags on it. -/
def Obligations.AtomicsApplyTheirOperation : Prop :=
  (∀ r ∈ atomRules, ∀ (s : State) (a : AtomicRequest) (pa : Nat) (x : Cmd), s.atomAt a r.1 pa x → a.result = 0 →
    ∃ s', exec (r.2.1 a) s = .next s'
      ∧ leNat (bytesAt s'.mem pa (atomWidth r.1 a.w64)) = r.2.2 (8 * atomWidth r.1 a.w64)
          (leNat (bytesAt s.mem pa (atomWidth r.1 a.w64))) (a.operand.toNat % 2 ^ (8 * atomWidth r.1 a.w64)) a.extra.toNat
      ∧ (∀ y, y < pa ∨ pa + atomWidth r.1 a.w64 ≤ y → byteAt s'.mem y = byteAt s.mem y)
      ∧ s'.tiles = s.tiles ∧ s'.host = s.host ∧ s'.sems = s.sems ∧ s'.ctrs = s.ctrs) ∧
  (∀ (s : State) (a : AtomicRequest) (pa : Nat) (x : Cmd), s.atomAt a 0xC pa x → a.result = 0 →
    ∃ s', exec (.atomicFp32Add a) s = .next s'
      ∧ leNat (bytesAt s'.mem pa 4) = ((reqOf a 0xC).newValue (leNat (bytesAt s.mem pa 4))).1 % 2 ^ 32
      ∧ (∀ y, y < pa ∨ pa + 4 ≤ y → byteAt s'.mem y = byteAt s.mem y)
      ∧ (∃ y, s'.cmd? ⟨a.cmd.queue, x.id⟩ = some y ∧ y.fast = true
          ∧ y.flags = x.flags ||| ((reqOf a 0xC).newValue (leNat (bytesAt s.mem pa 4))).2)
      ∧ s'.tiles = s.tiles ∧ s'.host = s.host ∧ s'.sems = s.sems ∧ s'.ctrs = s.ctrs)

/-- R234: a command of a kernel queue sets an arrival counter of its own partition's stacks; R236: its registered waits are
then tested, and the front end's poll tests those that the agent has no room to register, which take what room there is. -/
def Obligations.CountersAreSetAndPolled : Prop :=
  (∀ (s : State) (q : QueueId) (seq : BitVec 32) (k : StackId) (c : BitVec 12) (v : BitVec 64) (x : Cmd),
    s.findSeq q seq .begun = some x → s.stackPart k = some (s.queuePart q) → s.queueKernel q = true →
    ∃ s', exec (.counterWindowWrite q seq k c v) s = .next s' ∧ s' = { s with ctrs := s'.ctrs, ctrWaits := s'.ctrWaits }
      ∧ (∀ j e, s'.ctr j e = if j = k ∧ e = c then v.setWidth 48 else s.ctr j e)
      ∧ s'.ctrWaits = s.ctrWaits.map fun w =>
          if w.stack = k ∧ w.ctr = c ∧ w.registered = true ∧ (v.setWidth 48 - w.target).toNat < 2 ^ 47 then { w with met := true } else w) ∧
  (∀ (s : State) (k : StackId), ∃ s', exec (.counterPoll k) s = .next s' ∧ s' = { s with ctrWaits := s'.ctrWaits }
    ∧ s'.ctrWaits.length = s.ctrWaits.length
    ∧ ∀ (i : Nat) (w : CtrWait), s.ctrWaits[i]? = some w →
        (w.stack ≠ k ∨ w.registered = true → s'.ctrWaits[i]? = some w) ∧
        (w.stack = k ∧ w.registered = false → ∃ r, s'.ctrWaits[i]? = some { w with
          registered := r, met := w.met || decide ((s.ctr k w.ctr - w.target).toNat < 2 ^ 47) }))
/-! ## The front end (R241 to R275) -/

/-- Command `x` of queue `q`, of this opcode, begins next (R262, R275); it has raised no flag yet and occupies no tile. -/
abbrev Sys2Proof.Machine.State.frontTurn (s : State) (q : QueueId) (op : Nat) (x : Cmd) : Prop :=
  s.readyCmd q op = some x ∧ s.cmd? ⟨q, x.id⟩ = some x ∧ x.flags = 0 ∧ x.holds = []

/-- A command as it stands once begun, and once its work has ended with a status at the moment it began (R203). -/
def Sys2Proof.Machine.Cmd.asBegun (x : Cmd) (now : Word) : Cmd := { x with stage := .begun, begunAt := now }
def Sys2Proof.Machine.Cmd.asWorked (x : Cmd) (st : BitVec 16) (now : Word) : Cmd :=
  { x with stage := .worked, status := st, tiles := [], descs := 0, begunAt := now, doneAt := now }

/-- Queue `q` stands as `z` but for its commands; of those, and of all queues', only number `i` of `q` differs: it is `y`. -/
def Sys2Proof.Machine.State.onlyCmd (s : State) (q : QueueId) (z : Queue) (i : Nat) (y : Cmd) (s' : State) : Prop :=
  s'.cmd? ⟨q, i⟩ = some y ∧ (∀ j, j ≠ i → s'.cmd? ⟨q, j⟩ = s.cmd? ⟨q, j⟩) ∧ (∀ r, r ≠ q → s'.queue r = s.queue r)
    ∧ s'.queue q = { z with cmds := (s'.queue q).cmds }

/-- The queues, and the trace with its fifos (R515). -/
def Sys2Proof.Machine.State.onlyQueues (s s' : State) : Prop :=
  s' = { s with queues := s'.queues, tel := { s.tel with trSeq := s'.tel.trSeq }, xqs := s'.xqs }

/-- What an acquire leaves of the dies' caches (R209, R211): on each die of the partition a new generation, and with a range
no clean copy in it. -/
def Sys2Proof.Machine.State.acquires (s : State) (p : PartId) (ps : Option (List (Nat × Nat))) (s' : State) : Prop :=
  ∀ d, if (s.die d).owner = some p then
      match ps with
      | none => s'.die d = { s.die d with gen := (s.die d).gen + 1, clearing := true }
      | some l => s'.die d = { s.die d with cache := (s'.die d).cache }
          ∧ ∀ line, s'.cline d line = (s.cline d line).bind fun x => x.dropClean (maskIn line l)
    else s'.die d = s.die d

/-- The dirty bytes of a line of a die's cache that a mask by line selects. -/
def Sys2Proof.Machine.State.dirtyIn (s : State) (m : Nat → BitVec 64) (d : DieId) (line : Nat) : BitVec 64 :=
  ((s.cline d line).elim 0 CLine.dirty) &&& m line

/-- What a flush does on a partition's dies (R203, R206): no selected byte is dirty any more; a byte of memory that no cache
held so is as it was, and any other is one that a cache held. -/
def Sys2Proof.Machine.State.flushes (s : State) (p : PartId) (m : Nat → BitVec 64) (s' : State) : Prop :=
  (∀ d line, (s.die d).owner = some p → s'.dirtyIn m d line = 0) ∧
  (∀ a, (∀ d, (s.die d).owner = some p → (s.dirtyIn m d (a / 64)).getLsbD (a % 64) = false) → byteAt s'.mem a = byteAt s.mem a) ∧
  (∀ a d, (s.die d).owner = some p → (s.dirtyIn m d (a / 64)).getLsbD (a % 64) = true →
    ∃ e l, (s.die e).owner = some p ∧ s.cline e (a / 64) = some l ∧ (s.dirtyIn m e (a / 64)).getLsbD (a % 64) = true
      ∧ byteAt s'.mem a = byteAt l.bytes (a % 64)) ∧
  (∀ d, s'.die d = { s.die d with cache := (s'.die d).cache }) ∧ (∀ d, (s.die d).owner ≠ some p → s'.die d = s.die d)

/-- The bytes that an optional range selects: all without one. -/
def Sys2Proof.Machine.rangeMask (ps : Option (List (Nat × Nat))) (line : Nat) : BitVec 64 :=
  match ps with
  | none => BitVec.allOnes 64
  | some l => maskIn line l

/-- R247, R201, R256, R206, R209: nop and ptinval end as they begin, and so does a fence, after its flush and its acquire of
the partition's caches. -/
def Obligations.PlainCommandsAndFencesComplete : Prop :=
  (∀ r ∈ ([(0, .nop), (0x10, .ptinval)] : List (Nat × (QueueId → Instr))), ∀ (s : State) (q : QueueId) (x : Cmd), s.frontTurn q r.1 x →
    ∃ s', exec (r.2 q) s = .next s' ∧ s.onlyQueues s' ∧ s.onlyCmd q (s.queue q) x.id (x.asWorked 0 s.stamp) s') ∧
  (∀ (s : State) (q : QueueId) (x : Cmd) (ps : Option (List (Nat × Nat))), s.frontTurn q 7 x → x.field 64 64 = 0 → x.field 65 65 = 0 →
    s.fenceRange ⟨q, x.id⟩ x = .ok ps →
    ∃ s', exec (.fence q) s = .next s' ∧ s.onlyQueues s' ∧ s.onlyCmd q (s.queue q) x.id (x.asWorked 0 s.stamp) s') ∧
  (∀ (s : State) (q : QueueId) (x : Cmd) (ps : Option (List (Nat × Nat))), s.frontTurn q 7 x → x.field 64 64 = 1 → x.field 65 65 = 0 →
    s.fenceRange ⟨q, x.id⟩ x = .ok ps → (∀ d, mapWf none (s.die d).cache) →
    ∃ s', exec (.fenceAcquire q) s = .next s' ∧ s.onlyQueues { s' with dies := s.dies } ∧ s.acquires (s.queuePart q) ps s'
      ∧ s.onlyCmd q (s.queue q) x.id (x.asWorked 0 s.stamp) s') ∧
  (∀ (s : State) (q : QueueId) (x : Cmd) (ps : Option (List (Nat × Nat))), s.frontTurn q 7 x → x.field 64 64 = 0 → x.field 65 65 = 1 →
    x.field 66 66 = 0 → s.fenceRange ⟨q, x.id⟩ x = .ok ps → (∀ d, mapWf none (s.die d).cache) → s.flt.linksDown = [] → s.poison = [] →
    (∀ a, s.agentFenced a = none) →
    ∃ s', exec (.fenceFlush q) s = .next s' ∧ s.onlyQueues { s' with dies := s.dies, mem := s.mem }
      ∧ s.flushes (s.queuePart q) (rangeMask ps) s' ∧ s.onlyCmd q (s.queue q) x.id (x.asWorked 0 s.stamp) s')


/-- R140, R245, R255: a signal adds to a semaphore, sets one, moves a queue's tail, or stores eight bytes in device or host
memory, and ends. -/
def Obligations.SignalsReachTheirTargets : Prop :=
  (∀ (s : State) (q : QueueId) (x : Cmd) (n : BitVec 14) (k : BitVec 32), s.frontTurn q 6 x → x.field 66 64 = 0 → n.toNat = x.field 93 80 →
    k.toNat = x.field 159 128 → (s.sem n).toNat + k.toNat < 2 ^ 32 → s.noneWaits n →
    ∃ s', exec (.signalSemaphoreAdd q) s = .next s' ∧ s.onlyQueues { s' with sems := s.sems } ∧ s'.sem n = s.sem n + k
      ∧ (∀ m, m ≠ n → s'.sem m = s.sem m) ∧ s.onlyCmd q (s.queue q) x.id (x.asWorked 0 s.stamp) s') ∧
  (∀ (s : State) (q : QueueId) (x : Cmd) (n : BitVec 14) (k : BitVec 32), s.frontTurn q 6 x → x.field 66 64 = 1 → n.toNat = x.field 93 80 →
    k.toNat = x.field 159 128 → s.noneWaits n →
    ∃ s', exec (.signalSemaphoreSet q) s = .next s' ∧ s.onlyQueues { s' with sems := s.sems } ∧ s'.sem n = k
      ∧ (∀ m, m ≠ n → s'.sem m = s.sem m) ∧ s.onlyCmd q (s.queue q) x.id (x.asWorked 0 s.stamp) s') ∧
  (∀ (s : State) (q r : QueueId) (x : Cmd) (g : QueueCfg) (v : BitVec 32), s.frontTurn q 6 x → x.field 66 64 = 2 → r.val = x.field 107 96 →
    v.toNat = x.field 159 128 → r ≠ q → (s.queue r).cfg = some g → g.partition = s.queuePart q → (s.queue r).state ≠ qDestroying →
    v ≠ (s.queue r).tail → (v - (s.queue r).tail).toNat < 2 ^ 31 → (v - (s.queue r).head).toNat ≤ 2 ^ g.ringLog2 →
    g.persist = false ∨ s.residentUp r = true →
    ∃ s', exec (.signalDoorbell q) s = .next s' ∧ s.onlyQueues s' ∧ (∀ u, u ≠ q → u ≠ r → s'.queue u = s.queue u)
      ∧ s'.cmd? ⟨q, x.id⟩ = some (x.asWorked 0 s.stamp) ∧ (∀ j, j ≠ x.id → s'.cmd? ⟨q, j⟩ = s.cmd? ⟨q, j⟩)
      ∧ s'.queue q = { s.queue q with cmds := (s'.queue q).cmds }
      ∧ s'.queue r = { s.queue r with
          tail := v, acquirePending := true
          state := if (s.queue r).state = qIdle then (if s.lending g.partition then qPreempted else qRunning) else (s.queue r).state }) ∧
  (∀ (s : State) (q : QueueId) (x : Cmd) (h : Nat), s.frontTurn q 6 x → x.field 66 64 = 3 →
    reachOf (BitVec.ofNat 64 (x.field 255 192)) = .ok (.host h) → s.atsOn = true →
    ∃ s', exec (.signalWriteValue q) s = .next s' ∧ (Config.atsTranslates s.fresh h = true →
      s.onlyQueues { s' with host := s.host, fresh := s.fresh } ∧ s'.host = putBytes s.host h (natLe (x.field 191 128) 8)
        ∧ s.onlyCmd q (s.queue q) x.id (x.asWorked 0 s.stamp) s')) ∧
  (∀ (s : State) (q : QueueId) (x : Cmd) (h : Nat), s.frontTurn q 6 x → x.field 66 64 = 3 →
    reachOf (BitVec.ofNat 64 (x.field 255 192)) = .ok (.host h) → s.atsOn = false →
    ∃ s', exec (.signalWriteValue q) s = .next s' ∧ s.onlyQueues { s' with host := s.host }
      ∧ s'.host = putBytes s.host h (natLe (x.field 191 128) 8) ∧ s.onlyCmd q (s.queue q) x.id (x.asWorked 0 s.stamp) s') ∧
  (∀ (s : State) (q : QueueId) (x : Cmd) (va o : Nat) (g : Xlat) (d : DieId), s.frontTurn q 6 x → x.field 66 64 = 3 →
    reachOf (BitVec.ofNat 64 (x.field 255 192)) = .ok (.device va) → va % 8 = 0 → s.translateWrite (s.queuePart q) va = .ok g →
    g.pa % 8 = 0 → s.paKind g.pa = .region d o → o + 8 ≤ s.regionSize d → s.agentFenced g.pa = none → s.poison = [] →
    ∃ s', exec (.signalWriteValue q) s = .next s' ∧ s.onlyQueues { s' with mem := s.mem }
      ∧ s'.mem = putBytes s.mem g.pa (natLe (x.field 191 128) 8) ∧ s.onlyCmd q (s.queue q) x.id (x.asWorked 0 s.stamp) s')

/-- R244, R272, R281: a doorbell of an owned page in an open BAR0 sets its queue's tail, or counts completion slots as consumed;
elsewhere it changes nothing. R242, R258, R266: the record at the head of the ring is fetched into the queue, a failed check completes it with its status
and halts the queue, a skipped one completes with 0x0001; inside a buffer the next record of the buffer is fetched. -/
def Obligations.DoorbellsAndRecordFetch : Prop :=
  ((∀ (s : State) (f : FnId) (q : QueueId) (v : BitVec 32), (s.bar0Open && s.ownsPage f q) = false →
    exec (.doorbellTailWrite f q v) s = .next s ∧ exec (.cplHeadWrite f q v) s = .next s) ∧
  (∀ (s : State) (f : FnId) (q : QueueId) (v : BitVec 32) (c : QueueCfg), (s.bar0Open && s.ownsPage f q) = true →
    (s.queue q).cfg = some c → (s.queue q).state ≠ qDestroying → v ≠ (s.queue q).tail → (v - (s.queue q).tail).toNat < 2 ^ 31 →
    (v - (s.queue q).head).toNat ≤ 2 ^ c.ringLog2 → s.partAwake c.partition = true → (c.persist = false ∨ s.residentUp q = true) →
    ∃ s', exec (.doorbellTailWrite f q v) s = .next s' ∧ s' = { s with queues := s'.queues } ∧ (∀ r, r ≠ q → s'.queue r = s.queue r)
      ∧ s'.queue q = { s.queue q with
          tail := v, acquirePending := true
          state := if (s.queue q).state = qIdle then (if s.lending c.partition then qPreempted else qRunning) else (s.queue q).state }) ∧
  (∀ (s : State) (f : FnId) (q : QueueId) (v : BitVec 32) (c : QueueCfg), (s.bar0Open && s.ownsPage f q) = true →
    (s.queue q).cfg = some c → (s.queue q).state ≠ qDestroying → v ≠ (s.queue q).tail → (v - (s.queue q).tail).toNat < 2 ^ 31 →
    2 ^ c.ringLog2 < (v - (s.queue q).head).toNat → (s.queue q).cmds ≠ [] →
    ∃ s', exec (.doorbellTailWrite f q v) s = .next s' ∧ (∀ r, r ≠ q → s'.queue r = s.queue r)
      ∧ s'.queue q = { s.queue q with halting := (s.queue q).halting <|> some 0x02 }) ∧
  (∀ (s : State) (f : FnId) (q : QueueId) (v : BitVec 32), (s.bar0Open && s.ownsPage f q) = true →
    ∃ s', exec (.cplHeadWrite f q v) s = .next s' ∧ s' = { s with queues := s'.queues } ∧ (∀ r, r ≠ q → s'.queue r = s.queue r)
      ∧ s'.queue q = { s.queue q with cplHead := v }) ∧
  (∀ (s : State) (f : FnId) (q : QueueId) (v : BitVec 32),
    (s.queue q).state = qDestroying ∨ v = (s.queue q).tail ∨ 2 ^ 31 ≤ (v - (s.queue q).tail).toNat →
    exec (.doorbellTailWrite f q v) s = .next s)) ∧
  ((∀ (s : State) (q : QueueId) (c : QueueCfg) (b : Bytes), s.settleBuffers q = s → (s.queue q).cfg = some c → s.mayFetch q = true →
    (s.queue q).frames = [] → (s.queue q).head ≠ (s.queue q).tail → (s.queue q).inFlight < c.maxInflight → s.moduleInFlight < 16384 →
    (s.queue q).acquirePending = false → c.persist = false → c.nopre = true →
    s.vread c.partition (c.ring.toNat + 64 * ((s.queue q).head.toNat % 2 ^ c.ringLog2)) 64 = .ok b →
    (s.queue q).skip = 0 → s.recordCheck q 0 (s.queue q).head b = 0 →
    ∃ s', exec (.commandFetch q) s = .next s' ∧ s' = { s with queues := s'.queues } ∧ (∀ r, r ≠ q → s'.queue r = s.queue r)
      ∧ s'.queue q = { s.queue q with
          head := (s.queue q).head + 1, nextId := (s.queue q).nextId + 1
          cmds := (s.queue q).cmds ++ [{ id := (s.queue q).nextId, seq := (s.queue q).head, record := b }] }) ∧
  (∀ (s : State) (q : QueueId) (c : QueueCfg) (b : Bytes), s.settleBuffers q = s → (s.queue q).cfg = some c → s.mayFetch q = true →
    (s.queue q).frames = [] → (s.queue q).head ≠ (s.queue q).tail → (s.queue q).inFlight < c.maxInflight → s.moduleInFlight < 16384 →
    (s.queue q).acquirePending = false → c.persist = false →
    s.vread c.partition (c.ring.toNat + 64 * ((s.queue q).head.toNat % 2 ^ c.ringLog2)) 64 = .ok b →
    (s.queue q).skip ≠ 0 → bits (leNat b) 63 32 = (s.queue q).head.toNat →
    ∃ s', exec (.commandFetch q) s = .next s' ∧ s' = { s with queues := s'.queues } ∧ (∀ r, r ≠ q → s'.queue r = s.queue r)
      ∧ s'.queue q = { s.queue q with
          head := (s.queue q).head + 1, nextId := (s.queue q).nextId + 1, skip := (s.queue q).skip - 1
          cmds := (s.queue q).cmds ++ [{ id := (s.queue q).nextId, seq := (s.queue q).head, record := b, status := 1, stage := .released, doneAt := s.stamp }] }) ∧
  (∀ (s : State) (q : QueueId) (c : QueueCfg) (f : Frame) (fs : List Frame) (b : Bytes), s.settleBuffers q = s →
    (s.queue q).cfg = some c → s.mayFetch q = true → (s.queue q).frames = f :: fs → f.index < f.len → c.persist = false → c.nopre = true →
    s.vread c.partition (f.buf.toNat + 64 * f.index) 64 = .ok b → s.recordCheck q (fs.length + 1) 0 b = 0 →
    ∃ s', exec (.commandFetch q) s = .next s' ∧ s' = { s with queues := s'.queues } ∧ (∀ r, r ≠ q → s'.queue r = s.queue r)
      ∧ s'.queue q = { s.queue q with
          frames := { f with index := f.index + 1 } :: fs, nextId := (s.queue q).nextId + 1
          cmds := (s.queue q).cmds ++ [{ id := (s.queue q).nextId, seq := (s.queue q).ringSeq, record := b, depth := fs.length + 1 }] }) ∧
  (∀ (s : State) (q : QueueId) (c : QueueCfg) (b : Bytes) (st : BitVec 16), s.settleBuffers q = s → (s.queue q).cfg = some c →
    s.mayFetch q = true → (s.queue q).frames = [] → (s.queue q).head ≠ (s.queue q).tail → (s.queue q).inFlight < c.maxInflight →
    s.moduleInFlight < 16384 → (s.queue q).acquirePending = false → c.persist = false →
    s.vread c.partition (c.ring.toNat + 64 * ((s.queue q).head.toNat % 2 ^ c.ringLog2)) 64 = .ok b →
    (s.queue q).skip = 0 → s.recordCheck q 0 (s.queue q).head b = st → st ≠ 0 → st ≠ 1 → (s.queue q).cmds = [] →
    ∃ s', exec (.commandFetch q) s = .next s' ∧ (∀ r, r ≠ q → s'.queue r = s.queue r)
      ∧ s'.queue q = { s.queue q with
          head := (s.queue q).head + 1, nextId := (s.queue q).nextId + 1, halting := some 0x01
          cmds := [{ id := (s.queue q).nextId, seq := (s.queue q).head, record := b, status := st, stage := .released
                     doneAt := s.stamp, engine := engFront }] }))

/-- Nothing keeps command `x` of queue `q` from taking the tiles it names (R262, R263, R413, R414). -/
abbrev Sys2Proof.Machine.State.takes (s : State) (q : QueueId) (op : Nat) (x : Cmd) (l : List TileId) : Prop :=
  s.frontTurn q op x ∧ x.span = some l ∧ l.any s.tileFenced = false ∧ s.outranked q l = false

/-- R123, R147, R248, R251, R252, R264, R265: a matmul and a kernel take their tiles, each with its rank and count; a dma command
hands its descriptors to its tile's engine in order; a persistent kernel record enters the work rings. -/
def Obligations.TileCommandsTakeTheirTiles : Prop :=
  (∀ (s : State) (q : QueueId) (x : Cmd) (t : TileId) (l : List TileId) (bs : List Bytes) (j : MatJob), s.takes q 1 x (t :: l) →
    (t :: l).all s.tileReady = true → s.matBytes t (leNat x.record) = .ok bs → matJob t (leNat x.record) bs = .ok j → j.check = none →
    ∃ s', exec (.matmul q) s = .next s' ∧ s.onlyQueues { s' with tiles := s.tiles }
      ∧ s.onlyCmd q (s.queue q) x.id { x.asBegun s.stamp with
          dests := [j.dAt], fast := x.fast || j.ctl.fast, ranges := j.d.ranges, outs := j.d.outs, job := bs, tiles := t :: l
          holds := t :: l } s'
      ∧ (∀ u, u ∉ t :: l → s'.tile u = s.tile u)
      ∧ ∀ i u, (t :: l)[i]? = some u → s'.tile u = (s.tile u).startMatmul ⟨q, x.id⟩ x.seq i (l.length + 1)) ∧
  (∀ (s : State) (q : QueueId) (x : Cmd) (l : List TileId) (g : QueueCfg) (b : Launch) (img args : Bytes), s.takes q 2 x l →
    (s.queue q).cfg = some g → g.persist = false → l.all s.tileReady = true → (g.nopre || !(s.queue q).kernelAhead x l) = true →
    s.readLaunch q (x.field 127 64) false = .ok b → s.readImage q b = .ok (img, args) → (∀ t ∈ l, (s.tile t).seq.preload = none) →
    ∃ s', exec (.kernel q) s = .next s' ∧ s.onlyQueues { s' with tiles := s.tiles }
      ∧ s.onlyCmd q (s.queue q) x.id { x.asBegun s.stamp with tiles := l, holds := l, ranges := b.ranges } s'
      ∧ (∀ u, u ∉ l → s'.tile u = s.tile u)
      ∧ ∀ i t, l[i]? = some t →
          (s'.tile t).seq = { (s.tile t).seq with
            run := .running, pc := BitVec.ofNat 64 b.entry, regs := mapPut 0 [] 1 (BitVec.ofNat 64 b.argDst), events := []
            rank := BitVec.ofNat 64 i, count := BitVec.ofNat 64 l.length, queue := BitVec.ofNat 12 q.val, seq := x.seq, cycles := 0
            workRing := BitVec.ofNat 32 b.wring, faultInfo := 0, imgBase := b.imgDst, imgLen := b.imgLen, store := []
            half := if g.nopre then (s.tile t).seq.half else !(s.tile t).seq.half, halved := !g.nopre, resident := false, issued := 0 }
          ∧ (s'.tile t).scratch = putBytes (putBytes (s.tile t).scratch b.imgDst img) b.argDst args
          ∧ s'.tile t = { s.tile t with
              seq := (s'.tile t).seq, scratch := (s'.tile t).scratch, spoison := (s'.tile t).spoison, flags := 0, fret := 0, aq := []
              vq := [], dq := [], finished := [], vec := {}, cmd := some ⟨q, x.id⟩
              arr := { (s.tile t).arr with ordinals := 0, stopped := false }
              dma := { (s.tile t).dma with stopped := false, ordinals := 0 } }) ∧
  (∀ (s : State) (q : QueueId) (x : Cmd) (g : QueueCfg) (b : Launch), s.frontTurn q 2 x → (s.queue q).cfg = some g → g.persist = true →
    s.residentUp q = true → (∀ d ∈ (s.queue q).cmds, d.opcode = 2 → d.stage = .begun → d.seq.toNat % 64 ≠ x.seq.toNat % 64) →
    s.readLaunch q g.pLaunch.toNat true = .ok b → (∀ t ∈ g.residents, (s.tile t).seq.event 15 ≠ 0xFFFF) →
    ∃ s', exec (.kernel q) s = .next s' ∧ s.onlyQueues { s' with tiles := s.tiles }
      ∧ s.onlyCmd q (s.queue q) x.id { x.asBegun s.stamp with tiles := g.residents, ranges := b.ranges } s'
      ∧ (∀ t, t ∉ g.residents → s'.tile t = s.tile t)
      ∧ ∀ t ∈ g.residents, (s'.tile t).seq = { (s.tile t).seq with events := (s'.tile t).seq.events }
          ∧ (∀ e, (s'.tile t).seq.event e = if e = 15 then (s.tile t).seq.event 15 + 1 else (s.tile t).seq.event e)
          ∧ (s'.tile t).scratch = putBytes (s.tile t).scratch ((s.tile t).seq.workRing.toNat + 64 * (x.seq.toNat % 64)) x.record
          ∧ s'.tile t = { s.tile t with seq := (s'.tile t).seq, scratch := (s'.tile t).scratch, spoison := (s'.tile t).spoison }) ∧
  (∀ (s : State) (q : QueueId) (x : Cmd) (t : TileId), s.takes q 3 x [t] → (s.tile t).inReset = false →
    ∃ s', exec (.dmaCommand q) s = .next s' ∧ s.onlyQueues { s' with tiles := s.tiles } ∧ (∀ u, u ≠ t → s'.tile u = s.tile u)
      ∧ s.onlyCmd q (s.queue q) x.id { x.asBegun s.stamp with descs := x.field 143 128 } s'
      ∧ s'.tile t = { s.tile t with dma := { (s.tile t).dma with
          handed := (s.tile t).dma.handed ++ (List.range (x.field 143 128)).map fun i =>
            (⟨q, x.id⟩, BitVec.ofNat 64 (x.field 127 64 + 128 * i), i) } })

/-- R235, R236, R254: a wait begins and is pending, met at once where its condition holds; a met wait acquires and ends. -/
def Obligations.WaitCommandsPendAndEnd : Prop :=
  (∀ r ∈ ([(0, .waitSemaphore, false), (1, .takeSemaphore, true)] : List (Nat × (QueueId → Instr) × Bool)),
    ∀ (s : State) (q : QueueId) (x : Cmd) (n : BitVec 14) (k : BitVec 32) (ps : Option (List (Nat × Nat))), s.frontTurn q 5 x →
    x.field 65 64 = r.1 → s.waitRange ⟨q, x.id⟩ x = .ok ps → n.toNat = x.field 93 80 → k.toNat = x.field 159 128 → s.noneWaits n →
    ∃ s', exec (r.2.1 q) s = .next s' ∧ s.onlyQueues { s' with sems := s.sems, semWaits := s.semWaits }
      ∧ s.onlyCmd q (s.queue q) x.id (x.asBegun s.stamp) s'
      ∧ s'.semWaits = s.semWaits ++ [⟨n, r.2.2, k, .cmd ⟨q, x.id⟩, decide (k.toNat ≤ (s.sem n).toNat)⟩]
      ∧ (∀ m, s'.sem m = if m = n ∧ r.2.2 = true ∧ k.toNat ≤ (s.sem n).toNat then s.sem n - k else s.sem m)) ∧
  (∀ (s : State) (q : QueueId) (x : Cmd) (k : StackId) (n : BitVec 12) (t : BitVec 48) (ps : Option (List (Nat × Nat))),
    s.frontTurn q 5 x → x.field 65 64 = 2 → s.waitRange ⟨q, x.id⟩ x = .ok ps → k.val = x.field 112 108 → n.toNat = x.field 107 96 →
    t.toNat = x.field 175 128 → (t - s.ctr k n).toNat ≠ 2 ^ 47 →
    ∃ s', exec (.counterWait q) s = .next s' ∧ s.onlyQueues { s' with ctrWaits := s.ctrWaits }
      ∧ s.onlyCmd q (s.queue q) x.id (x.asBegun s.stamp) s'
      ∧ s'.ctrWaits = s.ctrWaits ++ [⟨k, n, t, ⟨q, x.id⟩, decide ((s.ctrWaits.filter fun w => w.stack = k && w.registered).length < 512),
          decide ((s.ctrWaits.filter fun w => w.stack = k && w.registered).length < 512) && ctrReached (s.ctr k n) t⟩]) ∧
  (∀ (s : State) (q : QueueId) (x : Cmd) (ps : Option (List (Nat × Nat))),
    ((s.queue q).cmds.find? fun y => y.opcode = 5 && y.stage = .begun && s.waitMet ⟨q, y.id⟩) = some x → s.cmd? ⟨q, x.id⟩ = some x →
    x.flags = 0 → x.holds = [] → s.waitRange ⟨q, x.id⟩ x = .ok ps → (∀ d, mapWf none (s.die d).cache) →
    ∃ s', exec (.waitSatisfied q) s = .next s' ∧ s.onlyQueues { s' with dies := s.dies, semWaits := s.semWaits, ctrWaits := s.ctrWaits }
      ∧ s'.semWaits = s.semWaits.filter (fun w => w.who ≠ .cmd ⟨q, x.id⟩) ∧ s'.ctrWaits = s.ctrWaits.filter (fun w => w.cmd ≠ ⟨q, x.id⟩)
      ∧ s.acquires (s.queuePart q) ps s'
      ∧ s.onlyCmd q (s.queue q) x.id { x with stage := .worked, status := 0, tiles := [], descs := 0, doneAt := s.stamp } s')

/-- R257 to R260: a cond whose test holds skips records of its ring or buffer; a loop or call starts its buffer one level deeper,
and a loop whose first test fails ends at once. -/
def Obligations.BuffersRunAndRecordsAreSkipped : Prop :=
  (∀ (s : State) (q : QueueId) (x : Cmd), s.frontTurn q 8 x → s.iterates q x.condFrame = .ok false →
    ∃ s', exec (.cond q) s = .next s' ∧ s.onlyQueues s' ∧ s.onlyCmd q (s.queue q) x.id (x.asWorked 0 s.stamp) s') ∧
  (∀ (s : State) (q : QueueId) (x : Cmd), s.frontTurn q 8 x → s.iterates q x.condFrame = .ok true → x.depth = 0 →
    ∃ s', exec (.cond q) s = .next s' ∧ s.onlyQueues s'
      ∧ s.onlyCmd q { s.queue q with skip := x.field 95 80 } x.id (x.asWorked 0 s.stamp) s') ∧
  (∀ (s : State) (q : QueueId) (x : Cmd) (f : Frame) (fs : List Frame), s.frontTurn q 8 x → s.iterates q x.condFrame = .ok true →
    x.depth ≠ 0 → (s.queue q).frames = f :: fs → f.index + x.field 95 80 ≤ f.len →
    ∃ s', exec (.cond q) s = .next s' ∧ s.onlyQueues s'
      ∧ s.onlyCmd q { s.queue q with frames := { f with index := f.index + x.field 95 80 } :: fs } x.id (x.asWorked 0 s.stamp) s') ∧
  (∀ r ∈ ([(9, .loop), (10, .callBuffer)] : List (Nat × (QueueId → Instr))), ∀ (s : State) (q : QueueId) (x : Cmd), s.frontTurn q r.1 x →
    x.depth < 8 → s.iterates q x.bufferFrame = .ok true →
    ∃ s', exec (r.2 q) s = .next s' ∧ s.onlyQueues s'
      ∧ s.onlyCmd q { s.queue q with frames := x.bufferFrame :: (s.queue q).frames } x.id (x.asBegun s.stamp) s') ∧
  (∀ (s : State) (q : QueueId) (x : Cmd), s.frontTurn q 9 x → x.depth < 8 → s.iterates q x.bufferFrame = .ok false →
    ∃ s', exec (.loop q) s = .next s' ∧ s.onlyQueues s' ∧ s.onlyCmd q (s.queue q) x.id (x.asWorked 0 s.stamp) s')

/-- No buffer stands or is being run in a queue. -/
abbrev Sys2Proof.Machine.Queue.flat (x : Queue) : Prop := ∀ c ∈ x.cmds, c.depth = 0 ∧ c.opcode ≠ 9 ∧ c.opcode ≠ 10

/-- R203, R272, R273, R269: the end-of-command release writes its output range back and stamps the command; the oldest released
command is published to its slot of the completion ring; an overdue command ends with 0x7001 and halts its queue.
R271: completing a command's work with success gives 0x30NN for the lowest flag that the queue's mask names, and such a status halts the
queue only where halt_flag is set; no other status is changed. -/
def Obligations.CommandsReleasePublishAndTimeOut : Prop :=
  (∀ (s : State) (q : QueueId) (seq : BitVec 32) (x : Cmd), s.findSeq q seq .worked = some x → s.cmd? ⟨q, x.id⟩ = some x → (s.queue q).flat →
    x.ranges = [] → x.ceilings = [] → spoilsCeilings x.status = false →
    ∃ s', exec (.endOfCommandRelease q seq) s = .next s' ∧ s' = { s with queues := s'.queues }
      ∧ s.onlyCmd q (s.queue q) x.id { x with stage := .released, doneAt := s.stamp } s') ∧
  (∀ (s : State) (q : QueueId) (seq : BitVec 32) (x : Cmd) (b : Word) (n : Nat) (ps : List (Nat × Nat)),
    s.findSeq q seq .worked = some x → s.cmd? ⟨q, x.id⟩ = some x → (s.queue q).flat → x.ranges = [(b, n)] → x.ceilings = [] →
    spoilsCeilings x.status = false → s.wholeRange (s.queuePart q) b.toNat n = .ok ps → (∀ d, mapWf none (s.die d).cache) →
    s.flt.linksDown = [] → s.poison = [] → (∀ a, s.agentFenced a = none) →
    ∃ s', exec (.endOfCommandRelease q seq) s = .next s' ∧ s' = { s with queues := s'.queues, dies := s'.dies, mem := s'.mem }
      ∧ s.flushes (s.queuePart q) (fun line => maskIn line ps) s'
      ∧ s.onlyCmd q (s.queue q) x.id { x with stage := .released, doneAt := s.stamp } s') ∧
  (∀ (s : State) (q : QueueId) (g : QueueCfg) (x : Cmd) (ds : List Cmd), (s.queue q).flat → (s.queue q).cfg = some g →
    s.cplFenced g = false → (s.queue q).state ≠ qStalled → (s.queue q).resumeTo = none → (s.queue q).held = [] →
    (s.queue q).cmds = x :: ds → ds ≠ [] → x.stage = .released → slotFree (s.queue q) g x.seq = true → g.persist = false →
    s.paired q = false → g.cpl.toNat / 2 ^ 60 = 4 → s.atsOn = false → (x.doneAt - x.begunAt).toNat < 100000 → bit (leNat x.record) 9 = false →
    ∃ s', exec (.completionPublish q) s = .next s' ∧ s' = { s with queues := s'.queues, host := s'.host }
      ∧ s'.host = putBytes s.host (g.cpl.toNat % 2 ^ 57 + 32 * (x.seq.toNat % 2 ^ g.cplLog2)) (completionRecord q x.seq g.cplLog2 x)
      ∧ (∀ r, r ≠ q → s'.queue r = s.queue r)
      ∧ s'.queue q = { s.queue q with cmds := ds, nextPub := (s.queue q).nextPub + 1 }) ∧
  (∀ (s : State) (q : QueueId) (g : QueueCfg) (x : Cmd) (ds : List Cmd), (s.queue q).flat → (s.queue q).cfg = some g →
    s.cplFenced g = false → (s.queue q).state = qStalled → (s.queue q).resumeTo = none → (s.queue q).cmds = x :: ds →
    x.stage = .released → (s.queue q).held.length < 64 →
    ∃ s', exec (.completionPublish q) s = .next s' ∧ s' = { s with queues := s'.queues } ∧ (∀ r, r ≠ q → s'.queue r = s.queue r)
      ∧ s'.queue q = { s.queue q with cmds := ds, held := (s.queue q).held ++ [x] }) ∧
  (∀ (s : State) (q : QueueId) (g : QueueCfg) (x : Cmd), (s.queue q).cfg = some g → (s.queue q).cmds = [x] → (s.queue q).flat →
    (s.queue q).timed = true → (s.queue q).timerOf = x.id → g.timeout.toNat * 1000000 ≤ (s.queue q).timer → x.live = true →
    x.opcode ≠ 3 → x.opcode ≠ 4 → x.holds = [] → (s.queue q).state ≠ qDestroying →
    ∃ s', exec (.queueTimeout q) s = .next s' ∧ (∀ r, r ≠ q → s'.queue r = s.queue r)
      ∧ s'.queue q = { s.queue q with
          cmds := [x.finish 0x7001 s.stamp], halting := (s.queue q).halting <|> some 0x01, frames := [], skip := 0 }
      ∧ (∀ w ∈ s'.semWaits, w.who ≠ .cmd ⟨q, x.id⟩) ∧ (∀ w ∈ s'.ctrWaits, w.cmd ≠ ⟨q, x.id⟩)) ∧
  (∀ (s : State) (c : CmdId) (x : Cmd) (g : QueueCfg) (st f : BitVec 16), s.cmd? c = some x → x.live = true →
    (s.queue c.queue).cfg = some g → f = (x.flags ||| s.tileFlags x) &&& g.flagMask →
    ∃ y, (s.endWork c st).cmd? c = some y ∧ (st ≠ 0 ∨ f = 0 → y.status = st)
      ∧ (st = 0 → ∀ n, n < 16 → f.getLsbD n = true → (∀ k, k < n → f.getLsbD k = false) → y.status = BitVec.ofNat 16 (0x3000 + n))
      ∧ (st = 0 → (s.queue c.queue).state ≠ qDestroying → ((s.endWork c st).queue c.queue).halting =
          if f ≠ 0 ∧ g.haltFlag = true then (s.queue c.queue).halting <|> some 0x01 else (s.queue c.queue).halting))

/-! ## Pre-emption (R391 to R400) -/

/-- R114, R146, R169, R193, R391 to R398: a blocked command of higher priority pre-empts the holder of its tiles; the tiles'
sequencers stop, then each engine reports stopped; with all stopped the contexts are saved and the tiles are free; the queue
goes on once its tiles are free. -/
def Obligations.PreemptionStopsSavesAndRestores : Prop :=
  (∀ (s : State) (q r : QueueId), s.blockers q = [r] → s.yields q r = true → (∀ x ∈ (s.queue r).cmds, ¬(x.opcode = 5 ∧ x.stage = .begun)) →
    (∀ k ∈ s.colls, k.cmd.queue ≠ r) → s.semWaits = [] →
    ∃ s', exec (.preemption q) s = .next s' ∧ s' = { s with queues := s'.queues, tiles := s'.tiles }
      ∧ s'.queue r = { s.queue r with preempting := true } ∧ (∀ u, u ≠ r → s'.queue u = s.queue u)
      ∧ (∀ t, ((s.tile t).cmd.any fun c => c.queue = r) = true → (s.tile t).seq.run = .running → (s'.tile t).seq.run = .stopped)
      ∧ (∀ t, s'.tile t = { s.tile t with seq := { (s.tile t).seq with run := (s'.tile t).seq.run, preload := (s'.tile t).seq.preload } })
      ∧ ∀ t, ((s.tile t).cmd.any fun c => c.queue = r) = false → (s'.tile t).seq.run = (s.tile t).seq.run) ∧
  (∀ (s : State) (t : TileId), s.tileStopping t = true → (s.tile t).inService = true → (s.tile t).arr.stopped = false →
    (∀ o ∈ (s.tile t).finished, o.engine ≠ .array) → (∀ p, ((s.tile t).pane p).resident = true → ((s.tile t).pane p).instr ≠ none) →
    ∃ s', exec (.arrayStopped t) s = .next s' ∧ s.onlyTile t s'
      ∧ s'.tile t = { s.tile t with arr := { (s.tile t).arr with stopped := true, panes := (s'.tile t).arr.panes } }
      ∧ ∀ p, (s'.tile t).pane p = ((s.tile t).pane p).atStop) ∧
  (∀ (s : State) (t : TileId), s.tileStopping t = true → (s.tile t).inService = true → (s.tile t).vec.stopped = false →
    (∀ o ∈ (s.tile t).finished, o.engine ≠ .vector) →
    ∃ s', exec (.vectorStopped t) s = .next s' ∧ s.onlyTile t s'
      ∧ s'.tile t = { s.tile t with vec := { (s.tile t).vec with stopped := true } }) ∧
  (∀ (s : State) (t : TileId), s.tileStopping t = true → (s.tile t).dma.stopped = false → (∀ o ∈ (s.tile t).finished, o.engine ≠ .dma) →
    (∀ o ∈ (s.tile t).dma.ops, s.opStopping t o = true → o.sent = []) →
    ∃ s', exec (.dmaStopped t) s = .next s' ∧ s.onlyTile t s'
      ∧ s'.tile t = { s.tile t with dma := { (s.tile t).dma with stopped := true } }) ∧
  (∀ (s : State) (q : QueueId), (s.queue q).preempting = true → (s.queue q).halting = none → (s.queue q).state = qRunning →
    s.savedReady q = true → s.contextTiles q = [] → s.jobs = [] →
    ∃ s', exec (.contextSaveDone q) s = .next s' ∧ s' = { s with queues := s'.queues } ∧ (∀ r, r ≠ q → s'.queue r = s.queue r)
      ∧ s'.queue q = { s.queue q with state := qPreempted, preempting := false }) ∧
  (∀ (s : State) (q : QueueId) (t : TileId) (i : Nat) (rest : List Nat), (s.queue q).preempting = true → (s.queue q).halting = none →
    (s.queue q).state = qRunning → s.savedReady q = true → s.contextTiles q = [t] → (s.tile t).cmd.any (fun c => c.queue = q) = true →
    s.freeSlots (dieOf t) = i :: rest → (s.die (dieOf t)).cache = [] → s.jobs = [] →
    ∃ s', exec (.contextSaveDone q) s = .next s' ∧ s' = { s with queues := s'.queues, tiles := s'.tiles, dies := s'.dies }
      ∧ s'.queue q = { s.queue q with state := qPreempted, preempting := false }
      ∧ s'.tile t = (s.tile t).afterSave q ∧ (∀ u, u ≠ t → s'.tile u = s.tile u)
      ∧ s'.slotOf (dieOf t) q ≠ none ∧ mapGet none (s'.die (dieOf t)).slots i = some ⟨q, (s.queue q).gen, [(t.val, (s.tile t).context q)], [], []⟩) ∧
  (∀ (s : State) (q : QueueId), (s.queue q).state = qPreempted → s.lending (s.queuePart q) = false → s.partAwake (s.queuePart q) = true →
    (s.restoreTiles q).all (fun t => s.tileReady t) = true → s.outranked q (s.restoreTiles q) = false → s.contextPoisoned q = false →
    (∀ k ∈ s.colls, k.cmd.queue ≠ q) → (∀ g, (s.queue q).cfg = some g → g.persist = false) → (s.queue q).cmds ≠ [] →
    ∃ s', exec (.queueRestore q) s = .next s' ∧ s'.queue q = { s.queue q with state := qRunning } ∧ (∀ r, r ≠ q → s'.queue r = s.queue r)
      ∧ (∀ d, s'.slotOf d q = none) ∧ (∀ d, (s.die d).owner = some (s.queuePart q) → (s'.die d).gen = (s.die d).gen + 1)
      ∧ ∀ d i k t y, s.slotOf d q = some (i, k) → k.tiles = [(t.val, y)] → (∀ e j m, s.slotOf e q = some (j, m) → e ≠ d → m.tiles = []) →
          s'.tile t = (s.tile t).restored y)


/-! ## Collectives (R253, R333 to R363) -/

/-- Sending, and what it may report on the way (R404, R422): the fabric, its ports, and the list of collectives. -/
def Sys2Proof.Machine.State.sends (s s' : State) : Prop := State.reportsTo { s with colls := s'.colls, fab := s'.fab } s'

/-- The collective of a command, while it runs. -/
def Sys2Proof.Machine.State.onlyColl (s : State) (c : CmdId) (k : Option Coll) (s' : State) : Prop :=
  s'.coll? c = k ∧ ∀ e, e ≠ c → s'.coll? e = s.coll? e

/-- Two views of a collective that differ at most in the abort it holds: a packet that cannot be sent raises one (R350). -/
def Sys2Proof.Machine.Coll.upToAbort (k k' : Coll) : Prop :=
  k' = { k with abort := k'.abort, abortAt := k'.abortAt, forwarded := k'.forwarded, ownStatus := k'.ownStatus }

/-- And in the pass it has come to and the credits it has granted (R342, R343). -/
def Sys2Proof.Machine.Coll.upToPump (k k' : Coll) : Prop :=
  k' = { k with
    phase := k'.phase, granted := k'.granted, abort := k'.abort, abortAt := k'.abortAt, forwarded := k'.forwarded, ownStatus := k'.ownStatus }

/-- Word of a queue's one command and the collective that it runs. -/
abbrev Sys2Proof.Machine.State.soleColl (s : State) (q : QueueId) (seq : BitVec 32) (x : Cmd) (k : Coll) : Prop :=
  s.findSeq q seq .begun = some x ∧ (s.queue q).cmds = [x] ∧ (s.queue q).flat ∧ s.coll? ⟨q, x.id⟩ = some k

/-- R253, R335, R340, R344: a collective whose checks pass takes its staging tiles, advances coll_seq in its communicator
descriptor, and enters the opening round at the first dimension whose ring has other members. -/
def Obligations.CollectivesBeginTheirOpening : Prop :=
  ∀ r ∈ ([(0, .allReduce), (1, .reduceScatter), (2, .allGather), (3, .broadcast), (4, .reduce), (5, .allToAll), (6, .topKMerge),
      (7, .barrier)] : List (Nat × (QueueId → Instr))),
  ∀ (s : State) (q : QueueId) (x : Cmd) (l : List TileId) (k k1 : Coll) (clean : Bool) (g : Xlat) (d : DieId) (o m : Nat),
    s.takes q 4 x l → s.nextOp q = some r.1 → r.1 = 7 ∨ l.all s.tileReady = true → s.readColl ⟨q, x.id⟩ x l = .ok (k, none, clean) →
    s.translateWrite (s.queuePart q) (k.d 191 128 + 20) = .ok g → g.pa % 4 = 0 → s.paKind g.pa = .region d o → o + 4 ≤ s.regionSize d →
    s.agentFenced g.pa = none → s.poison = [] →
    State.readCollTensors { s with mem := putBytes s.mem g.pa (natLe (k.cseq.toNat + 1) 4) } (s.queuePart q) k = .ok k1 →
    k1.check s (s.queuePart q) clean = none → m < 3 → (∀ e, e < m → k1.size e ≤ 1) → 1 < k1.size m →
    s.fab.early = [] → s.coll? ⟨q, x.id⟩ = none →
    ∃ s' k', exec (r.2 q) s = .next s'
      ∧ s.onlyCmd q (s.queue q) x.id { x.asBegun s.stamp with
          engine := 0x05, holds := if k1.op = 7 then [] else l, dests := if k1.hasDst then [BitVec.ofNat 64 (k1.d 319 256)] else [] } s'
      ∧ s.onlyColl ⟨q, x.id⟩ (some k') s'
      ∧ Coll.upToAbort { k1 with
          maxCeiling := k1.srcTensor.elim 0 fun t => t.ceiling, maxStamp := s.stamp, signature := crc64 k1.sigBlock, openDim := m } k'
      ∧ (∀ t, (k1.op = 7 ∨ t ∉ l) → s'.tile t = s.tile t)
      ∧ (∀ t, k1.op ≠ 7 → t ∈ l → s'.tile t = { s.tile t with
          cmd := some ⟨q, x.id⟩, flags := 0, scratch := (s'.tile t).scratch, spoison := (s'.tile t).spoison })
      ∧ State.sends { s with
          queues := s'.queues, tiles := s'.tiles, mem := putBytes s.mem g.pa (natLe (k.cseq.toNat + 1) 4), fresh := s'.fresh
          tel := { s.tel with trSeq := s'.tel.trSeq }, xqs := s'.xqs } s'

/-- A field of a control packet's contents, by first byte and bytes. -/
def Sys2Proof.Machine.ctlAt (p : Packet) (a n : Nat) : Nat := leNat (slice (ctlBody p) a n)

/-- The kind of a control packet for a collective that runs here, newly received, and the state that received it (R316, R343). -/
def Sys2Proof.Machine.State.takesControl (s : State) (p : Packet) (kind : Byte) (k : Coll) (a : State) : Prop :=
  p.type = ptCollCtl ∧ p.vc = 2 ∧ ctlKind p = kind ∧ s.collFor p = some k ∧ s.coll? k.cmd = some k ∧ ∃ b, s.receive p = (b, true) ∧ a = b.ackPacket p

/-- R343, R344, R345, R349, R351, R355, R357: what each collective packet does to the collective it is for. An opening adds to
what this member has seen, or aborts a collective of another signature; a closing gathers flags and ceilings; credits add up; the
better abort report is held; a damp adds a holder, a round packet the highest slot; an undamp drops a holder; data enters the
working vector. -/
def Obligations.CollectivePacketsAct : Prop :=
  (∀ (s a : State) (p : Packet) (k : Coll), s.takesControl p ckOpening k a → k.abort = none → k.stage = .opening →
    BitVec.ofNat 64 (ctlAt p 32 8) = k.signature → k.opened.contains (ctlDim p, BitVec.ofNat 14 (ctlAt p 49 2)) = false →
    k.openDim < 3 → 1 + (seenIn k.opened k.openDim + 1) < k.size k.openDim →
    ∃ s' k', exec (.collectiveOpening p) s = .next s' ∧ a.sends s' ∧ a.onlyColl k.cmd (some k') s'
      ∧ Coll.upToAbort { k with
          elapsed := 0, opened := (ctlDim p, BitVec.ofNat 14 (ctlAt p 49 2)) :: k.opened
          maxCeiling := ceilMax k.maxCeiling (BitVec.ofNat 8 (ctlAt p 40 1))
          maxStamp := if k.maxStamp.toNat < (BitVec.ofNat 64 (ctlAt p 41 8)).toNat then BitVec.ofNat 64 (ctlAt p 41 8) else k.maxStamp } k') ∧
  (∀ (s a : State) (p : Packet) (k : Coll) (r : Nat), s.takesControl p ckOpening k a → k.abort = none → k.forwarded = none →
    BitVec.ofNat 64 (ctlAt p 32 8) ≠ k.signature → k.senderOf p = some r →
    ∃ s', exec (.collectiveOpening p) s = .next s' ∧ a.sends s'
      ∧ a.onlyColl k.cmd (some { k with
          ownStatus := 0, abort := some (k.report a 0x01 0 (some r)), abortAt := s.time, forwarded := some (k.report a 0x01 0 (some r)) }) s') ∧
  (∀ (s a : State) (p : Packet) (k : Coll), s.takesControl p ckClosing k a → k.abort = none → k.stage = .closing →
    k.closed.contains (ctlDim p, BitVec.ofNat 14 (ctlAt p 3 2)) = false → k.closeDim < 3 →
    1 + (seenIn k.closed k.closeDim + 1) < k.size k.closeDim →
    ∃ s' k', exec (.collectiveClosing p) s = .next s' ∧ a.sends s' ∧ a.onlyColl k.cmd (some k') s'
      ∧ Coll.upToAbort { k with
          elapsed := 0, closed := (ctlDim p, BitVec.ofNat 14 (ctlAt p 3 2)) :: k.closed
          clFlags := k.clFlags ||| BitVec.ofNat 16 (ctlAt p 0 2)
          clCeiling := ceilMax k.clCeiling (BitVec.ofNat 8 (ctlAt p 2 1)) } k') ∧
  (∀ (s a : State) (p : Packet) (k : Coll) (n r : Nat), s.takesControl p ckCredit k a → k.abort = none → k.passOf p = some n →
    k.senderOf p = some r →
    ∃ s' k', exec (.collectiveCredit p) s = .next s' ∧ s' = { a with colls := s'.colls } ∧ a.onlyColl k.cmd (some k') s'
      ∧ k' = { k with elapsed := 0, credits := k'.credits }
      ∧ k'.creditsFrom n (ctlAt p 0 1) r = k.creditsFrom n (ctlAt p 0 1) r + ctlAt p 2 2) ∧
  (∀ (s a : State) (p : Packet) (k : Coll), s.takesControl p ckAbort k a →
    ∃ s' k', exec (.collectiveAbort p) s = .next s' ∧ a.sends s' ∧ a.onlyColl k.cmd (some k') s'
      ∧ k' = { k with elapsed := 0, abort := k'.abort, abortAt := k'.abortAt, forwarded := k'.forwarded }
      ∧ k'.abort = some (match k.abort with
          | none => reportOf (ctlBody p)
          | some e => if reportBetter (reportOf (ctlBody p)) e then reportOf (ctlBody p) else e)
      ∧ k'.abortAt = (if k.abort = none then s.time else k.abortAt)
      ∧ k'.forwarded = (if k.forwarded.all (fun f => reportBetter (reportOf (ctlBody p)) f) then some (reportOf (ctlBody p)) else k.forwarded)) ∧
  (∀ (s a : State) (p : Packet) (k : Coll), s.takesControl p ckDamp k a → k.abort = none → ctlAt p 0 8 = dampNote →
    ∃ s' k', exec (.collectiveDamp p) s = .next s' ∧ a.sends s' ∧ a.onlyColl k.cmd (some k') s'
      ∧ Coll.upToAbort { k with
          elapsed := 0
          holders := if k.holders.contains (BitVec.ofNat 14 (ctlAt p 8 2)) then k.holders
            else k.holders ++ [BitVec.ofNat 14 (ctlAt p 8 2)] } k') ∧
  (∀ (s a : State) (p : Packet) (k : Coll), s.takesControl p ckDamp k a → k.abort = none → ctlAt p 0 8 ≠ dampNote →
    k.proposal.isSome = true → k.holders.contains (BitVec.ofNat 14 (ctlAt p 8 2)) = true → k.dampDim < 3 → ctlDim p = k.dampDim →
    mapGet 0 k.dampSeen k.dampDim + 2 < k.size k.dampDim →
    ∃ s' k', exec (.collectiveDamp p) s = .next s' ∧ a.sends s' ∧ a.onlyColl k.cmd (some k') s'
      ∧ Coll.upToAbort { k with elapsed := 0, dampMax := max (ctlAt p 0 8) k.dampMax, dampSeen := k'.dampSeen } k'
      ∧ ∀ e, mapGet 0 k'.dampSeen e = if e = k.dampDim then mapGet 0 k.dampSeen e + 1 else mapGet 0 k.dampSeen e) ∧
  (∀ (s a : State) (p : Packet) (k : Coll), s.takesControl p ckUndamp k a → k.abort = none →
    ∃ s' k', exec (.collectiveUndamp p) s = .next s' ∧ a.sends s' ∧ a.onlyColl k.cmd (some k') s'
      ∧ Coll.upToAbort { k with elapsed := 0, holders := k.holders.filter (· ≠ BitVec.ofNat 14 (ctlAt p 0 2)) } k') ∧
  (∀ (s a b : State) (p : Packet) (k : Coll) (n r : Nat), p.type = ptCollData → p.vc = 2 → s.receive p = (b, true) → a = b.ackPacket p →
    s.collFor p = some k → s.coll? k.cmd = some k → k.passOf p = some n → k.senderOf p = some r → k.abort = none → k.stage = .running →
    ∃ s' k', exec (.collectiveData p) s = .next s' ∧ a.sends s' ∧ a.onlyColl k.cmd (some k') s'
      ∧ Coll.upToPump (k.heard.takeData n (bits p.addr.toNat 3 0) r (bits p.addr.toNat 45 8) (p.data.drop 16)) k')

/-- R341, R343, R345, R351 to R357, R359, R360: a collective's chunks leave, its outputs are written as it enters the closing
round, a silent neighbour or an abort ends it, a damp stops it at its boundary and its restore takes it on, a barrier signals its
semaphores at the release instant. -/
def Obligations.CollectivesAdvanceAndEnd : Prop :=
  (∀ (s : State) (q : QueueId) (seq : BitVec 32) (i : StrandId) (k : Coll) (c : Chunk), s.collOf q seq = some k → k.stage = .running →
    s.collActive k = true → k.nextChunk i.val = some c →
    ∃ s' k', exec (.chunkSend q seq i) s = .next s' ∧ s.sends s' ∧ s.onlyColl k.cmd (some k') s'
      ∧ Coll.upToPump { k with sent := k'.sent } k' ∧ k'.sentTo k.phase i.val c.peer = k.sentTo k.phase i.val c.peer + 1
      ∧ ∀ e, e ≠ streamKey k.phase i.val c.peer → mapGet 0 k'.sent e = mapGet 0 k.sent e) ∧
  (∀ (s s1 s2 : State) (q : QueueId) (seq : BitVec 32) (k : Coll) (f : BitVec 16) (ce : Byte) (m : Nat), s.collOf q seq = some k →
    k.stage = .running → s.collActive k = true → k.passes.length ≤ k.phase → s.writeOutput k = (s1, .ok (f, ce)) →
    (s1.updCmd k.cmd fun y => { y with ranges := k.outRanges }).releaseRanges k.part k.outRanges = (s2, none) → s2.coll? k.cmd = some k →
    k.closeDim = 0 → m < 3 → (∀ e, e < m → k.size e ≤ 1) → 1 + seenIn k.closed m < k.size m →
    ∃ s' k', exec (.closingRound q seq) s = .next s' ∧ s2.sends s' ∧ s2.onlyColl k.cmd (some k') s'
      ∧ Coll.upToAbort { k with
          stage := .closing, clFlags := k.clFlags ||| f, clCeiling := ceilMax k.clCeiling ce, closeDim := m } k') ∧
  (∀ (s : State) (q : QueueId) (seq : BitVec 32) (x : Cmd) (k : Coll) (r : AbortReport), s.soleColl q seq x k → k.abort = some r →
    k.abortAt + 1000000 ≤ s.time → (s.queue q).state ≠ qPreempted → (s.queue q).state ≠ qDestroying → k.dstTensor = none → x.holds = [] →
    ∃ s', exec (.abortCompletion q seq) s = .next s' ∧ s'.coll? ⟨q, x.id⟩ = none ∧ (∀ e, e ≠ ⟨q, x.id⟩ → s'.coll? e = s.coll? e)
      ∧ (∀ u, u ≠ q → s'.queue u = s.queue u)
      ∧ ∃ n : BitVec 24, s'.queue q = { s.queue q with
          halting := (s.queue q).halting <|> some 0x01, frames := [], skip := 0
          cmds := [{ x with
            status := if k.ownStatus = 0x7001 ∨ k.ownStatus = 0x8001 then k.ownStatus else 0x4000 + r.cause.setWidth 16
            engine := 0x05, faultRef := n, fast := x.fast || k.fast, tiles := [], descs := 0, doneAt := s.stamp, stage := .worked }] }) ∧
  (∀ (s : State) (q : QueueId) (seq : BitVec 32) (k : Coll), s.collOf q seq = some k → s.collTimed k = true →
    k.c 147 128 * 1000000 ≤ k.elapsed → k.abort = none → k.forwarded = none →
    ∃ s', exec (.progressTimeout q seq) s = .next s' ∧ s.sends s'
      ∧ s.onlyColl k.cmd (some { k with
          ownStatus := 0, abort := some (k.report s 0x02 0 k.waitsOn), abortAt := s.time, forwarded := some (k.report s 0x02 0 k.waitsOn) }) s') ∧
  (∀ (s : State) (q : QueueId) (seq : BitVec 32) (x : Cmd) (k : Coll) (b : Nat), s.findSeq q seq .begun = some x →
    s.cmd? ⟨q, x.id⟩ = some x → s.coll? ⟨q, x.id⟩ = some k → k.agreed = some b → k.paused = false → k.abort = none → k.atBoundary b = true →
    ∃ s', exec (.dampBoundary q seq) s = .next s' ∧ s' = { s with queues := s'.queues, tiles := s'.tiles, colls := s'.colls }
      ∧ s.onlyCmd q (s.queue q) x.id { x with holds := [] } s'
      ∧ s.onlyColl ⟨q, x.id⟩ (some { k with paused := true, damps := if k.damps = 0xFFFF then k.damps else k.damps + 1 }) s'
      ∧ ∀ t, s'.tile t = if t ∈ x.holds ∧ (s.tile t).cmd = some ⟨q, x.id⟩ then
          { s.tile t with cmd := none, seq := { (s.tile t).seq with run := .idle } } else s.tile t) ∧
  (∀ (s : State) (q : QueueId) (seq : BitVec 32) (x : Cmd) (k : Coll), s.findSeq q seq .begun = some x → s.cmd? ⟨q, x.id⟩ = some x →
    s.coll? ⟨q, x.id⟩ = some k → k.paused = true → k.abort = none → k.holders = [] → (s.queue q).state = qRunning → (s.queue q).preempting = false →
    k.op ≠ 7 → k.tiles.all s.tileReady = true → s.outranked q k.tiles = false →
    ∃ s' k', exec (.stagingRestore q seq) s = .next s' ∧ State.sends { s with queues := s'.queues, tiles := s'.tiles } s'
      ∧ s.onlyCmd q (s.queue q) x.id { x with holds := k.tiles } s' ∧ s.onlyColl ⟨q, x.id⟩ (some k') s'
      ∧ Coll.upToPump { k with paused := false, agreed := none } k'
      ∧ (∀ t, t ∉ k.tiles → s'.tile t = s.tile t)
      ∧ ∀ t ∈ k.tiles, s'.tile t = { s.tile t with
          cmd := some ⟨q, x.id⟩, flags := 0, scratch := (s'.tile t).scratch, spoison := (s'.tile t).spoison }) ∧
  (∀ (s : State) (q : QueueId) (seq : BitVec 32) (x : Cmd) (k : Coll) (d : DieId), s.soleColl q seq x k → k.op = 7 → k.stage = .barrier →
    k.abort = none → k.signalled = false → k.release.toNat ≤ s.stamp.toNat → k.bdies = [d] →
    (s.sem (BitVec.ofNat 14 (d.val * 1024 + k.d 681 672))).toNat + k.d 735 704 < 2 ^ 32 →
    s.noneWaits (BitVec.ofNat 14 (d.val * 1024 + k.d 681 672)) → (s.queue q).state ≠ qPreempted → k.d 511 448 = 0 → k.clFlags = 0 →
    x.holds = [] →
    ∃ s', exec (.barrierRelease q seq) s = .next s' ∧ s'.coll? ⟨q, x.id⟩ = none ∧ (∀ e, e ≠ ⟨q, x.id⟩ → s'.coll? e = s.coll? e)
      ∧ (∀ n, s'.sem n = if n = BitVec.ofNat 14 (d.val * 1024 + k.d 681 672) then s.sem n + BitVec.ofNat 32 (k.d 735 704) else s.sem n)
      ∧ (∀ u, u ≠ q → s'.queue u = s.queue u)
      ∧ s'.queue q = { s.queue q with cmds := [{ x with
          stage := .worked, status := 0, flags := 0, tiles := [], descs := 0, doneAt := s.stamp, fast := x.fast || k.fast, engine := 0x05 }] })

/-- R375, R376: a peer's record of a paired partition is compared with the local one it names, and both go; without one it waits.
A silent peer's partition is unpaired as lost. -/
def Obligations.LockStepRecordsMeet : Prop :=
  (∀ (s : State) (p : PartId) (r : HashRec) (bs : List BlockHash), s.partPaired p = true → (s.part p).local_ = [] →
    exec (.hashRecord p r bs) s = .next (s.setPart p { s.part p with peer_ := (s.part p).peer_ ++ [(r, bs)], lastPeer := s.time })) ∧
  (∀ (s : State) (p : PartId) (r a : HashRec) (bs : List BlockHash), s.partPaired p = true → (s.part p).local_ = [a] → a.queue = r.queue →
    a.seq = r.seq → (s.part p).peer_ = [] → recordsAgree ((s.part p).lsState = 3) a r = true →
    ∃ s', exec (.hashRecord p r bs) s = .next s' ∧ s' = { s with parts := s'.parts } ∧ (∀ o, o ≠ p → s'.part o = s.part o)
      ∧ s'.part p = { s.part p with local_ := [], lastPeer := s.time }) ∧
  (∀ (s : State) (p : PartId) (r a : HashRec) (bs : List BlockHash), s.partPaired p = true → (s.part p).local_ = [a] → a.queue = r.queue →
    a.seq = r.seq → (s.part p).peer_ = [] → recordsAgree ((s.part p).lsState = 3) a r = false → (s.part p).diverged = false →
    ∃ s', exec (.hashRecord p r bs) s = .next s' ∧ State.reportsTo { s with parts := s'.parts } s'
      ∧ s'.part p = { s.part p with local_ := [], lastPeer := s.time, diverged := true }) ∧
  (∀ (s : State) (p : PartId), s.partPaired p = true → (s.part p).local_ ≠ [] → (s.part p).lastPeer + 100000000 ≤ s.time →
    ∃ s', exec (.peerLost p) s = .next s' ∧ State.reportsTo { s with parts := s'.parts } s'
      ∧ s'.part p = { s.part p with lsState := 5, local_ := [], peer_ := [] } ∧ ∀ o, o ≠ p → s'.part o = s.part o)

/-! ## The mailbox (R286 to R292, R520) -/

/-- Bits of a value: each entry a high bit, a low bit and what stands there. -/
abbrev Sys2Proof.Machine.hasFields (v : Nat) (l : List (Nat × Nat × Nat)) : Prop := ∀ e ∈ l, bits v e.1 e.2.1 = e.2.2

/-- The payload of a message, as far as its length goes. -/
def Sys2Proof.Machine.mailBody (m : Msg) : Bytes := slice m.payload 0 (min m.length.toNat 4080)

/-- R287: a doorbell is taken: the mailbox is busy, the request stands in its locked buffer, its response time runs. -/
def Sys2Proof.Machine.State.received (s : State) (m : Msg) (op bound : Nat) : State :=
  s.setFn m.fn { s.fn m.fn with
    busy := true, done := false, req := putBytes [] 0 (msgBytes m op), serial := (s.fn m.fn).serial + 1, mbStart := s.time
    mbBound := bound }

/-- R289: and its sequence number is accepted. -/
def Sys2Proof.Machine.State.accepted (s : State) (m : Msg) (op bound : Nat) : State :=
  s.setFn m.fn { s.fn m.fn with
    busy := true, done := false, req := putBytes [] 0 (msgBytes m op), serial := (s.fn m.fn).serial + 1, mbStart := s.time
    mbBound := bound, nextSeq := m.seq + 1, seqAny := false }

/-- R287, R288, R298: the response stands in its buffer with its header, done is set and busy cleared, entry 0 is sent or
pends; nothing else differs from `a`. -/
def Sys2Proof.Machine.State.replied (a : State) (m : Msg) (op : Nat) (st : BitVec 16) (b : Bytes) (s' : State) : Prop :=
  s' = { a with fns := s'.fns, msixSent := s'.msixSent } ∧ (∀ g, g ≠ m.fn → s'.fn g = a.fn g)
    ∧ s'.fn m.fn = { a.fn m.fn with busy := false, done := true, resp := (s'.fn m.fn).resp, msix := (s'.fn m.fn).msix }
    ∧ hasFields (leNat (bytesAt (s'.fn m.fn).resp 0 16)) [(15, 0, op), (16, 16, 1), (31, 17, 0), (47, 32, b.length),
        (63, 48, m.tag.toNat), (95, 64, m.seq.toNat), (111, 96, st.toNat), (127, 112, 0)]
    ∧ bytesAt (s'.fn m.fn).resp 16 b.length = b
    ∧ (let e := mapGet {} (a.fn m.fn).msix 0
       if e.ctl.getLsbD 0 then s'.msixSent = a.msixSent ∧ mapGet {} (s'.fn m.fn).msix 0 = { e with pending := true }
       else s'.msixSent = a.msixSent ++ [⟨m.fn, 0⟩] ∧ (s'.fn m.fn).msix = (a.fn m.fn).msix)

/-- A mailbox that takes a doorbell. -/
abbrev Sys2Proof.Machine.State.mailFree (s : State) (m : Msg) : Prop := s.bar0Open = true ∧ (s.fn m.fn).busy = false

/-- R289: the sequence numbers that are accepted. -/
abbrev Sys2Proof.Machine.State.seqFits (s : State) (m : Msg) : Prop := (s.fn m.fn).seqAny = true ∨ m.seq = (s.fn m.fn).nextSeq

/-- R290, R292, R418: who may send a message: in open-string mode only one marked OS; firmware trace and hub memory under a
debug unlock; maintenance with presence, from the physical function; a virtual function one marked VF, and for a partition that
exists, unless the message is of the identity class. -/
def Sys2Proof.Machine.State.mayAsk (s : State) (f : FnId) (op : Nat) (vf os : Bool) : Prop :=
  (s.boot.state = 2 → os = true) ∧ (op = 0x0A03 ∨ op = 0x0A04 → s.boot.debug = true) ∧
    match partOfFn f with
    | none => op / 256 = 0x0F → s.boot.presenceOpen = true ∨ s.pow.maintJmpN = false
    | some p => vf = true ∧ ((s.part p).exists_ = true ∨ op / 256 = 0x01)

/-- A message that firmware executes: free mailbox, sequence, sender, length, and reserved fields of header and payload. -/
def Sys2Proof.Machine.State.serves (s : State) (m : Msg) (op : Nat) (vf os : Bool) (len : Nat → Bool) (rsv : List (Nat × Nat)) : Prop :=
  s.mailFree m ∧ s.seqFits m ∧ s.mayAsk m.fn op vf os ∧ len m.length.toNat = true ∧ msgExtra m = false
    ∧ ∀ r ∈ rsv, bits (leNat (mailBody m)) r.1 r.2 = 0

/-- A row of R292: command, opcode, whether marked VF and OS, response time in ns, legal lengths, and which messages of the
opcode the command takes. -/
abbrev Sys2Proof.Machine.MailRow := (Msg → Instr) × Nat × Bool × Bool × Nat × (Nat → Bool) × (Msg → Bool)

def Sys2Proof.Machine.mailLow : List MailRow :=
  [(.getIdentity, 0x0100, true, true, 1000000, (· = 0), fun _ => true),
   (.getReadinessRecord, 0x0101, false, true, 1000000, (· = 0), fun _ => true),
   (.createQueue, 0x0200, true, false, 1000000, (· = 128), fun _ => true),
   (.destroyQueue, 0x0201, true, false, 1700000, (· = 8), fun _ => true),
   (.resumeQueue, 0x0202, true, false, 1000000, (· = 16), fun _ => true),
   (.haltQueue, 0x0203, true, false, 1000000, (· = 8), fun _ => true),
   (.resumeCompletionPath, 0x0204, true, false, 1000000, (· = 8), fun _ => true),
   (fun m => .partitionCreate (.msg m), 0x0300, false, false, 50000000, (· = 128), fun _ => true),
   (fun m => .partitionLend (.msg m), 0x0301, false, false, 50000000, (· = 128), fun m => pb m.payload 3 0 ≠ 2 ∧ pb m.payload 3 0 ≠ 4),
   (fun m => .partitionReturn (.msg m), 0x0301, false, false, 50000000, (· = 128), fun m => pb m.payload 3 0 = 2),
   (fun m => .partitionConfigure (.msg m), 0x0301, false, false, 50000000, (· = 128), fun m => pb m.payload 3 0 = 4),
   (fun m => .partitionDelete (.msg m), 0x0302, false, false, 50000000, (· = 128), fun _ => true),
   (.setCheckedArithmetic, 0x0303, false, false, 1000000, (· = 8), fun _ => true),
   (.getPartitionConfiguration, 0x0304, true, false, 1000000, (· = 8), fun _ => true),
   (.setTranslationRoot, 0x0400, true, false, 1000000, (· = 16), fun _ => true),
   (.setScrubPeriod, 0x0401, false, false, 1000000, (· = 8), fun _ => true),
   (.getStackHealth, 0x0402, true, false, 1000000, (· = 8), fun _ => true),
   (.getDieCapacities, 0x0403, true, false, 1000000, (· = 0), fun _ => true)]

def Sys2Proof.Machine.mailMiddle : List MailRow :=
  [(.enterActive, 0x0500, false, false, 10000000, (· = 8), fun m => pwTarget m.payload = 0 ∨ 3 < pwTarget m.payload),
   (.enterIdleReady, 0x0500, false, false, 100000, (· = 8), fun m => pwTarget m.payload = 1),
   (.enterDrowse, 0x0500, false, false, 10000000, (· = 8), fun m => pwTarget m.payload = 2),
   (.enterDormant, 0x0500, false, false, 100000000, (· = 8), fun m => pwTarget m.payload = 3),
   (.setPowerCap, 0x0501, false, false, 1000000, (· = 16), fun _ => true),
   (.getPowerState, 0x0502, false, false, 1000000, (· = 0), fun _ => true),
   (.installLicence, 0x0600, false, false, 2000000000, (· = 2048), fun _ => true),
   (.listLicences, 0x0601, false, false, 1000000, (· = 0), fun _ => true),
   (.stageFirmwareChunk, 0x0700, false, true, 5000000, fun n => 17 ≤ n && n ≤ 4080, fun _ => true),
   (.verifyStagedImage, 0x0701, false, true, 2000000000, (· = 0), fun _ => true),
   (.commitStagedImage, 0x0702, false, true, 60000000000, (· = 0), fun _ => true),
   (.startStagedImage, 0x0703, false, true, 10000000, (· = 0), fun _ => true),
   (.restartFromFlash, 0x0704, false, true, 10000000, (· = 0), fun _ => true),
   (.readCounters, 0x0800, true, false, 1000000, (· = 8), fun _ => true),
   (.configureTrace, 0x0801, false, false, 1000000, (· = 32), fun _ => true),
   (.readAgeing, 0x0802, false, false, 1000000, (· = 8), fun _ => true)]

def Sys2Proof.Machine.mailHigh : List MailRow :=
  [(.setModuleIdentifier, 0x0900, false, false, 10000000, (· = 8), fun _ => true),
   (.loadRoutingTable, 0x0901, false, false, 10000000, (· = 16), fun _ => true),
   (.getPortStatus, 0x0902, false, false, 10000000, (· = 0), fun _ => true),
   (.readPostMortemArea, 0x0A00, false, false, 1000000, (· = 16), fun _ => true),
   (.getOpenStringReason, 0x0A01, false, true, 1000000, (· = 0), fun _ => true),
   (.runDiagnostic, 0x0A02, false, false, 200000000, (· = 16), fun _ => true),
   (.readFirmwareTrace, 0x0A03, false, false, 1000000, (· = 8), fun _ => true),
   (.readHubMemory, 0x0A04, false, false, 1000000, (· = 16), fun _ => true),
   (.removeLicence, 0x0F00, false, false, 60000000000, (· = 8), fun _ => true),
   (.rollFirmwareBack, 0x0F01, false, false, 60000000000, (· = 0), fun _ => true),
   (.resetDisabledUnitRecord, 0x0F02, false, false, 60000000000, (· = 0), fun _ => true),
   (.debugUnlock, 0x0F03, false, false, 60000000000, (· = 0), fun _ => true)]

/-- The messages of R292. The bound of destroy queue is the model's reading of "200 µs plus collective abort time"
(notes/assumptions/51.md). -/
def Sys2Proof.Machine.mailCatalogue : List MailRow := mailLow ++ mailMiddle ++ mailHigh

/-- R287 to R290, R292, R520: what a mailbox does before firmware executes a message. While it is busy a doorbell only sets
db_ignored. A repeat of the last message gives its response again. Another sequence number fails with 0x1004; then, in this order,
a sender that is not permitted with 0x1103, a wrong length with 0x100B, a reserved or response field of the header that is not
zero with 0x1002. A failed message gets an empty response and changes nothing but its mailbox. -/
def Obligations.MailboxChecksMessagesInOrder : Prop :=
  ∀ r ∈ mailCatalogue, ∀ (i : Msg → Instr) (op bound : Nat) (vf os : Bool) (len : Nat → Bool) (mine : Msg → Bool),
    r = (i, op, vf, os, bound, len, mine) → ∀ (s : State) (m : Msg), mine m = true →
    (s.bar0Open = true → (s.fn m.fn).busy = true → exec (i m) s = .next (s.setFn m.fn { s.fn m.fn with dbIgnored := true })) ∧
    (s.mailFree m → ¬ s.seqFits m → m.seq = (s.fn m.fn).nextSeq - 1 →
      exec (i m) s = .next ((s.setFn m.fn { s.fn m.fn with done := true, serial := (s.fn m.fn).serial + 1 }).raiseVector m.fn 0)) ∧
    (s.mailFree m → ¬ s.seqFits m → m.seq ≠ (s.fn m.fn).nextSeq - 1 →
      ∃ s', exec (i m) s = .next s' ∧ (s.received m op bound).replied m op 0x1004 [] s') ∧
    (s.mailFree m → s.seqFits m → ¬ s.mayAsk m.fn op vf os →
      ∃ s', exec (i m) s = .next s' ∧ (s.accepted m op bound).replied m op 0x1103 [] s') ∧
    (s.mailFree m → s.seqFits m → s.mayAsk m.fn op vf os → len m.length.toNat = false →
      ∃ s', exec (i m) s = .next s' ∧ (s.accepted m op bound).replied m op 0x100B [] s') ∧
    (s.mailFree m → s.seqFits m → s.mayAsk m.fn op vf os → len m.length.toNat = true → msgExtra m = true →
      ∃ s', exec (i m) s = .next s' ∧ (s.accepted m op bound).replied m op 0x1002 [] s')

/-- A message that firmware executes without changing anything answers with status 0 and payload `b`. -/
def Sys2Proof.Machine.State.gives (s : State) (i : Instr) (m : Msg) (op bound : Nat) (b : Bytes) : Prop :=
  ∃ s', exec i s = .next s' ∧ (s.accepted m op bound).replied m op 0 b s'

/-- R228, R293, R295, R328, R390, R451, R467, R472, R482, R517: the messages that read a record change nothing and answer with
it, laid out as the rule's table says. -/
def Obligations.MessagesReadRecords : Prop :=
  (∀ (s : State) (m : Msg), s.serves m 0x0100 true true (· = 0) [] →
    ∃ b, s.gives (.getIdentity m) m 0x0100 1000000 b ∧ b.length = 64
      ∧ hasFields (leNat b) [(63, 0, 0x34322D4C5342), (95, 64, s.boot.fwVersion.toNat), (127, 96, s.boot.fnTables.toNat),
          (141, 128, s.fab.modId.toNat), (143, 142, 0), (151, 144, match partOfFn m.fn with | some p => p.val | none => 0xFF),
          (153, 152, (s.boot.portsInForce.toNat / 12 - 1) % 4), (191, 157, 0),
          (319, 192, if s.boot.state = 2 ∧ s.boot.reasons.head? = some 0x08 then 0 else s.unitDigest.toNat), (511, 476, 0)]
      ∧ bit (leNat b) 154 = decide (8 ≤ s.boot.partsInForce.toNat) ∧ bit (leNat b) 155 = decide (s.licensed 3 ≠ 0)
      ∧ bit (leNat b) 156 = decide (s.licensed 4 ≠ 0) ∧ (∀ t : TileId, bit (leNat b) (320 + t.val) = s.tileAvailable t)
      ∧ (∀ k : StackId, bit (leNat b) (416 + k.val) = !(s.stack k).unavailable)
      ∧ (∀ p : PortId, bit (leNat b) (440 + p.val) = decide ((s.port p).state = 2 ∨ (s.port p).state = 3))) ∧
  (∀ (s : State) (m : Msg), s.serves m 0x0101 false true (· = 0) [] →
    s.gives (.getReadinessRecord m) m 0x0101 1000000 (slice s.boot.readiness 0 320)) ∧
  (∀ (s : State) (m : Msg) (p : PartId), s.serves m 0x0304 true false (· = 8) [(63, 3)] → bits (leNat (mailBody m)) 2 0 = p.val →
    (∀ r, partOfFn m.fn = some r → r = p) →
    ∃ b, s.gives (.getPartitionConfiguration m) m 0x0304 1000000 b ∧ b.length = 32
      ∧ ((s.part p).exists_ = false → leNat b = 0)
      ∧ ((s.part p).exists_ = true →
          hasFields (leNat b) [(2, 0, p.val), (3, 3, 1), (42, 40, match s.loans.find? fun l => l.borrower = p with | some l => l.lender.val | none => 0),
            (51, 45, (s.part p).scrub.toNat), (54, 52, (s.part p).lsState.toNat), (87, 56, (s.part p).divergences.toNat),
            (99, 88, s.extentGib p % 4096), (112, 100, ((s.partQueues p).filter fun q => (s.queue q).state = qPreempted).length % 8192), (255, 113, 0)]
          ∧ (∀ d : DieId, bit (leNat b) (4 + d.val) = decide ((s.die d).owner = some p)
              ∧ bit (leNat b) (16 + d.val) = (s.loanOf d).any (fun l => l.lender = p)
              ∧ bit (leNat b) (28 + d.val) = (s.loanOf d).any (fun l => l.borrower = p))
          ∧ bit (leNat b) 43 = (s.part p).checked ∧ bit (leNat b) 44 = (s.part p).damp ∧ bit (leNat b) 55 = (s.part p).divSat)) ∧
  (∀ (s : State) (m : Msg) (k : StackId), s.serves m 0x0402 true false (· = 8) [(63, 5)] → bits (leNat (mailBody m)) 4 0 = k.val →
    (∀ r, partOfFn m.fn = some r → s.stackPart k = some r) →
    ∃ b, s.gives (.getStackHealth m) m 0x0402 1000000 b ∧ b.length = 16
      ∧ hasFields (leNat b) [(31, 0, (s.stack k).corrected.toNat), (63, 32, (s.stack k).uncorrected.toNat),
          (71, 64, min ((s.stack k).spares.foldl (fun n e => n + e.2) 0) 255), (79, 72, (s.stack k).sparesLeft),
          (87, 80, (s.stack k).scrubPasses.toNat), (89, 88, if (s.stack k).unavailable then 2 else if (s.stack k).sparesLeft = 0 then 1 else 0),
          (95, 92, 0), (127, 96, (s.stack k).repairs.toNat)]
      ∧ bit (leNat b) 90 = (s.stack k).cSat ∧ bit (leNat b) 91 = (s.stack k).uSat) ∧
  (∀ (s : State) (m : Msg), s.serves m 0x0403 true false (· = 0) [] →
    ∃ b, s.gives (.getDieCapacities m) m 0x0403 1000000 b ∧ b.length = 12
      ∧ ∀ d : DieId, b[d.val]? = some (if s.dieFailed d then 0 else BitVec.ofNat 8 (s.usableGib d))) ∧
  (∀ (s : State) (m : Msg), s.serves m 0x0502 false false (· = 0) [] →
    ∃ b, s.gives (.getPowerState m) m 0x0502 1000000 b ∧ b.length = 64
      ∧ hasFields (leNat b) [(2, 0, (s.sharedState s.healthyDies).toNat), (7, 3, 0), (47, 32, s.capo.cap.toNat), (63, 48, 0),
          (127, 64, s.capo.weights.toNat), (135, 128, s.pow.last.toNat), (255, 137, 0), (271, 256, 0), (511, 416, 0)]
      ∧ bit (leNat b) 136 = s.pow.lastAbort
      ∧ (∀ p : PartId, bits (leNat b) (8 + 3 * p.val + 2) (8 + 3 * p.val) =
          if (s.part p).exists_ then (s.sharedState (s.partDies p)).toNat else 0)
      ∧ ∀ c, 1 ≤ c → c ≤ 9 → bits (leNat b) (256 + 16 * c + 15) (256 + 16 * c) = (mapGet 0 s.pow.counts c).toNat) ∧
  (∀ (s : State) (m : Msg), s.serves m 0x0601 false false (· = 0) [] →
    ∃ b, s.gives (.listLicences m) m 0x0601 1000000 b ∧ b.length = 48 ∧ leNat (slice b 32 16) = Config.fingerprint.toNat
      ∧ ∀ f, 1 ≤ f → f ≤ 4 → hasFields (leNat (slice b (8 * (f - 1)) 8))
          [(7, 0, s.workingValue f % 256), (15, 8, if s.workingValue f ≠ 0 ∧ (s.licence f).isSome then 1 else 0), (31, 16, 0),
            (63, 32, if s.workingValue f ≠ 0 then (match s.licence f with | some l => l.serial.toNat | none => 0) else 0)]) ∧
  (∀ (s : State) (m : Msg), s.serves m 0x0902 false false (· = 0) [] →
    ∃ b, s.gives (.getPortStatus m) m 0x0902 10000000 b ∧ b.length = 304
      ∧ hasFields (leNat (slice b 0 16)) [(1, 0, s.tb.state.toNat), (15, 2, 0), (29, 16, s.tb.root.toNat), (31, 30, 0),
          (47, 32, if s.tb.state = 2 then 0 else s.tb.offset.toNat), (127, 48, 0)]
      ∧ ∀ p : PortId, hasFields (leNat (slice b (16 + 8 * p.val) 8))
            [(2, 0, (s.port p).state.toNat), (11, 3, (s.port p).failedLanes.toNat), (27, 14, (s.port p).peer.toNat),
              (33, 28, (s.port p).peerPort.toNat), (39, 35, 0), (55, 40, (s.port p).downs.toNat), (63, 56, 0)]
          ∧ bit (leNat (slice b (16 + 8 * p.val) 8)) 12 = (s.port p).spareUsed
          ∧ bit (leNat (slice b (16 + 8 * p.val) 8)) 13 = (s.port p).inRoutes
          ∧ bit (leNat (slice b (16 + 8 * p.val) 8)) 34 = (s.port p).peerValid) ∧
  (∀ (s : State) (m : Msg), s.serves m 0x0A01 false true (· = 0) [] →
    ∃ b, s.gives (.getOpenStringReason m) m 0x0A01 1000000 b ∧ b.length = 16
      ∧ hasFields (leNat b) [(7, 0, (s.boot.reasons.getD 0 0).toNat), (15, 8, (s.boot.reasons.getD 1 0).toNat),
          (23, 16, (s.boot.reasons.getD 2 0).toNat), (31, 24, s.boot.attempts.toNat), (63, 32, s.boot.failedVersion.toNat), (127, 64, 0)]) ∧
  (∀ (s : State) (m : Msg), s.serves m 0x0701 false true (· = 0) [] →
    ∃ b, s.gives (.verifyStagedImage m) m 0x0701 2000000000 b ∧ b.length = 8
      ∧ bits (leNat b) 31 0 = bits (leNat (bytesAt s.boot.staging 0 4096)) 127 96
      ∧ bit (leNat b) 32 = (s.stagedFails true).isNone ∧ bits (leNat b) 63 33 = 0) ∧
  (∀ (s : State) (m : Msg) (cls unit lane : Nat), s.serves m 0x0802 false false (· = 8) [(63, 20)] →
    hasFields (leNat (mailBody m)) [(7, 0, cls), (15, 8, unit), (19, 16, lane)] →
    (cls = 1 ∧ unit < 20 ∧ lane = 0) ∨ (cls = 2 ∧ unit < 24 ∧ lane = 0) ∨ (cls = 3 ∧ unit < 36 ∧ lane < 9) →
    ∃ b, s.gives (.readAgeing m) m 0x0802 1000000 b ∧ b.length = 32 ∧
      let a := s.ageingOf (BitVec.ofNat 8 cls) (BitVec.ofNat 8 unit) (BitVec.ofNat 4 lane)
      hasFields (leNat b) [(7, 0, a.cls.toNat), (15, 8, a.unit.toNat), (19, 16, a.lane.toNat), (31, 20, 0), (63, 32, a.measured.toNat),
        (95, 64, a.baseline.toNat), (127, 96, a.threshold % 2 ^ 32), (159, 128, (a.predict s.time).1 % 2 ^ 32),
        (167, 160, (a.predict s.time).2 % 256), (191, 168, min (a.samples s.time).length (2 ^ 24 - 1)), (255, 192, a.stamp.toNat)])

/-- R417, R418, R512: the messages that read counters, snapshots and the hubs' memories. Counters are sampled with a stamp and,
where the request says so, their flags are cleared. A snapshot is read from the home die's copy where that passes, else from the
mirror's. The firmware trace and the hubs' memories hold free values (notes/assumptions/3.md). -/
def Obligations.MessagesReadCountersAndMemories : Prop :=
  (∀ (s : State) (m : Msg) (src set first n k e : Nat), s.serves m 0x0800 true false (· = 8) [(31, 19), (63, 48)] →
    hasFields (leNat (mailBody m)) [(15, 0, src), (17, 16, set), (39, 32, first), (47, 40, n)] →
    (∀ p, partOfFn m.fn = some p → s.sourcePart src = some p) → counterSets src = some (k, e) → 1 ≤ n → n ≤ 64 →
    set = 0 ∧ first + n ≤ k ∨ set = 1 ∧ first + n ≤ e →
    ∃ s' b, exec (.readCounters m) s = .next s'
      ∧ ({ s.accepted m 0x0800 1000000 with tel := { s.tel with perf := s'.tel.perf, err := s'.tel.err } } : State).replied m 0x0800 0 b s'
      ∧ b.length = 8 + 8 * n ∧ leNat (slice b 0 8) = s.stamp.toNat
      ∧ (∀ j, j < n → leNat (slice b (8 + 8 * j) 8) =
          if set = 0 then (mapGet 0 s.tel.perf (65536 * (first + j) + src)).toNat
          else (mapGet 0 s.tel.err (65536 * (first + j) + src)).toNat % 2 ^ 32 + 2 ^ 48 * ((mapGet 0 s.tel.err (65536 * (first + j) + src)).toNat / 2 ^ 32))
      ∧ (∀ key, mapGet 0 s'.tel.perf key =
          if set = 0 ∧ bit (leNat (mailBody m)) 18 = true ∧ (∃ j, j < n ∧ key = 65536 * (first + j) + src)
          then mapGet 0 s.tel.perf key &&& 0xFFFFFFFFFFFF else mapGet 0 s.tel.perf key)
      ∧ (∀ key, mapGet 0 s'.tel.err key =
          if set = 1 ∧ bit (leNat (mailBody m)) 18 = true ∧ (∃ j, j < n ∧ key = 65536 * (first + j) + src)
          then mapGet 0 s.tel.err key &&& 0xFFFFFFFF else mapGet 0 s.tel.err key)) ∧
  (∀ (s : State) (m : Msg) (src e : Nat), s.serves m 0x0800 true false (· = 8) [(31, 19), (63, 48)] →
    hasFields (leNat (mailBody m)) [(15, 0, src), (17, 16, 2), (39, 32, 0), (47, 40, 1)] →
    (∀ p, partOfFn m.fn = some p → s.sourcePart src = some p) → s.sourceEnergy src = some e →
    ∃ b, s.gives (.readCounters m) m 0x0800 1000000 b ∧ b.length = 16 ∧ leNat (slice b 0 8) = s.stamp.toNat
      ∧ leNat (slice b 8 8) = e / 2 ^ 16 % 2 ^ 64) ∧
  (∀ (s : State) (m : Msg) (no off n : Nat) (x : Snapshot), s.serves m 0x0A00 false false (· = 16) [(127, 76)] →
    hasFields (leNat (mailBody m)) [(31, 0, no), (63, 32, off), (75, 64, n)] → 1 ≤ n → n ≤ 4064 →
    (if no = 0xFFFFFFFF then s.flt.snapshots.getLast? else s.flt.snapshots.find? fun y => y.number.toNat = no) = some x →
    off < x.header.length + x.body.length →
    let home := x.homeOk && s.copyOk x s.flt.homeDie
    home = true ∨ x.mirrorOk = true ∧ s.flt.mirrorDie.any (s.copyOk x) = true →
    ∃ b, s.gives (.readPostMortemArea m) m 0x0A00 1000000 b ∧ b.length = 16 + n
      ∧ hasFields (leNat (slice b 0 16)) [(31, 0, x.number.toNat), (63, 32, (x.header.length + x.body.length) % 2 ^ 32),
          (64, 64, if home then 0 else 1), (127, 65, 0)]
      ∧ slice b 16 n = slice (x.header ++ x.body) off n) ∧
  (∀ (s : State) (m : Msg) (off n : Nat), s.serves m 0x0A03 false false (· = 8) [(63, 44)] →
    hasFields (leNat (mailBody m)) [(31, 0, off), (43, 32, n)] → 1 ≤ n → n ≤ 4064 → off < 2 ^ 20 →
    ∃ s' b, exec (.readFirmwareTrace m) s = .next s'
      ∧ ({ s.accepted m 0x0A03 1000000 with flt := { s.flt with diags := s.flt.diags + 1 } } : State).replied m 0x0A03 0 b s'
      ∧ b.length = 16 + min n (2 ^ 20 - off) ∧ hasFields (leNat (slice b 0 16)) [(31, 0, 2 ^ 20), (63, 32, off), (127, 64, 0)]
      ∧ ∀ i, i < min n (2 ^ 20 - off) → b[16 + i]? = some (Config.firmwareTrace s.flt.diags (off + i))) ∧
  (∀ (s : State) (m : Msg) (hub a n : Nat), s.serves m 0x0A04 false false (· = 16) [(63, 1), (127, 108)] →
    hasFields (leNat (mailBody m)) [(0, 0, hub), (95, 64, a), (107, 96, n)] → 1 ≤ n → n ≤ 4064 → a + n ≤ 2 ^ 26 →
    ∃ s' b, exec (.readHubMemory m) s = .next s'
      ∧ ({ s.accepted m 0x0A04 1000000 with flt := { s.flt with diags := s.flt.diags + 1 } } : State).replied m 0x0A04 0 b s'
      ∧ b.length = 16 + n ∧ hasFields (leNat (slice b 0 16)) [(31, 0, a), (63, 32, n), (127, 64, 0)]
      ∧ ∀ i, i < n → b[16 + i]? = some (Config.hubMemory s.flt.diags hub (a + i)))

/-- A virtual function may name its own partition's queues, and no kernel queue (R290). -/
def Sys2Proof.Machine.State.mayName (s : State) (f : FnId) (q : QueueId) : Prop :=
  ∀ p, partOfFn f = some p → ∀ c, (s.queue q).cfg = some c → c.partition = p ∧ c.kernel = false

/-- Nothing of a queue stands outside its record: no tile, no staged program, no saved context, no collective. -/
abbrev Sys2Proof.Machine.State.queueAlone (s : State) (q : QueueId) : Prop :=
  (∀ t, (s.tile t).cmd ≠ some ⟨q, 0⟩ ∧ (s.tile t).seq.preload.any (fun p => p.queue = q) = false) ∧ (∀ d, s.slotOf d q = none)
    ∧ ∀ k ∈ s.colls, k.cmd.queue ≠ q

/-- R240, R268, R273, R275, R276, R294, R411: the queue messages. A create gives a disabled queue its configuration, state idle,
indices zero and the next generation. A halt of a queue with work leaves reason 0x05 to take effect; an empty queue halts at once
and its partition's functions see cause bit 2. A resume goes on at a sequence number from next_pub to tail. A completion resume
writes what is held. A destroy of a queue at rest frees it, its generation and energy kept. In a state where it is not legal a
message fails with 0x1009 and changes nothing. -/
def Obligations.QueueMessagesMoveQueues : Prop :=
  (∀ (s : State) (m : Msg) (q : QueueId) (c : QueueCfg),
    s.serves m 0x0200 true false (· = 128) [(31, 22), (143, 138), (159, 155), (191, 173), (583, 583), (1023, 591)] →
    bits (leNat (mailBody m)) 11 0 = q.val → queueCfgOf (mailBody m) = c → (∀ p, partOfFn m.fn = some p → c.partition = p ∧ c.kernel = false) →
    vectorOf m.fn c.msix = true → (c.persist = true → s.ownsTiles c.partition c.pFirst.toNat c.pTiles.toNat = true) → c.limitsOk = true →
    s.standing c.partition = true → (s.queue q).state = qDisabled →
    ∃ s' a : State, exec (.createQueue m) s = .next s' ∧ a.replied m 0x0200 0 [] s'
      ∧ a = { s.accepted m 0x0200 1000000 with queues := a.queues } ∧ (∀ r, r ≠ q → a.queue r = s.queue r)
      ∧ a.queue q = { cfg := some c, state := qIdle, gen := (s.queue q).gen + 1, owner := m.fn }
      ∧ hasFields (leNat (mailBody m)) [(14, 12, c.partition.val), (18, 16, c.priority.toNat), (47, 32, c.timeout.toNat),
          (63, 48, c.flagMask.toNat), (127, 64, c.ring.toNat), (132, 128, c.ringLog2), (137, 133, c.cplLog2), (154, 144, c.msix.toNat),
          (172, 160, c.maxInflight), (255, 192, c.cpl.toNat), (319, 256, c.dspill.toNat), (383, 320, c.dspillLen),
          (447, 384, c.hspill.toNat), (511, 448, c.hspillLen), (575, 512, c.pLaunch.toNat), (582, 576, c.pFirst.toNat),
          (590, 584, c.pTiles.toNat)]
      ∧ bit (leNat (mailBody m)) 15 = c.kernel ∧ bit (leNat (mailBody m)) 19 = c.persist ∧ bit (leNat (mailBody m)) 20 = c.nopre
      ∧ bit (leNat (mailBody m)) 21 = c.haltFlag) ∧
  (∀ (s : State) (m : Msg) (q : QueueId), s.serves m 0x0203 true false (· = 8) [(63, 12)] → bits (leNat (mailBody m)) 11 0 = q.val →
    s.mayName m.fn q → (s.queue q).state = qIdle ∨ (s.queue q).state = qRunning → (s.queue q).cmds ≠ [] →
    ∃ s' a : State, exec (.haltQueue m) s = .next s' ∧ a.replied m 0x0203 0 [] s'
      ∧ a = { s.accepted m 0x0203 1000000 with queues := a.queues, tiles := a.tiles } ∧ (∀ r, r ≠ q → a.queue r = s.queue r)
      ∧ a.queue q = { s.queue q with halting := (s.queue q).halting <|> some 0x05 }
      ∧ ∀ t, a.tile t = { s.tile t with seq := { (s.tile t).seq with
          preload := if (s.tile t).seq.preload.any fun p => p.queue = q then none else (s.tile t).seq.preload } }) ∧
  (∀ (s : State) (m : Msg) (q : QueueId), s.serves m 0x0203 true false (· = 8) [(63, 12)] → bits (leNat (mailBody m)) 11 0 = q.val →
    s.mayName m.fn q → (s.queue q).state = qIdle ∨ (s.queue q).state = qRunning → (s.queue q).cmds = [] → (s.queue q).held = [] →
    s.queueAlone q →
    ∃ s' a : State, exec (.haltQueue m) s = .next s' ∧ a.replied m 0x0203 0 [] s'
      ∧ a = { s.accepted m 0x0203 1000000 with queues := a.queues, fns := a.fns, msixSent := a.msixSent }
      ∧ (∀ r, r ≠ q → a.queue r = s.queue r)
      ∧ a.queue q = { s.queue q with
          state := qHalted, reason := (match (s.queue q).halting with | some r => r | none => 0x05), halting := none, frames := [], skip := 0 }
      ∧ (a.fn 0).kevCause = (s.fn 0).kevCause ||| 4
      ∧ ∀ f, a.fn f = { (s.accepted m 0x0203 1000000).fn f with kevCause := (a.fn f).kevCause, msix := (a.fn f).msix }) ∧
  (∀ (s : State) (m : Msg) (q : QueueId) (n : BitVec 32) (g : QueueCfg), s.serves m 0x0202 true false (· = 16) [(63, 12), (127, 96)] →
    bits (leNat (mailBody m)) 11 0 = q.val → bits (leNat (mailBody m)) 95 64 = n.toNat → s.mayName m.fn q → (s.queue q).state = qHalted →
    (n - (s.queue q).nextPub).toNat ≤ ((s.queue q).tail - (s.queue q).nextPub).toNat → (s.queue q).cfg = some g → g.persist = false →
    n ≠ (s.queue q).tail ∨ (s.queue q).cmds ≠ [] →
    ∃ s' a : State, exec (.resumeQueue m) s = .next s' ∧ a.replied m 0x0202 0 [] s'
      ∧ a = { s.accepted m 0x0202 1000000 with queues := a.queues } ∧ (∀ r, r ≠ q → a.queue r = s.queue r)
      ∧ a.queue q = { s.queue q with
          state := if s.lending g.partition then qPreempted else qRunning, reason := 0, halting := none, head := n
          resumeTo := if n = (s.queue q).nextPub then none else some n }) ∧
  (∀ (s : State) (m : Msg) (q : QueueId) (g : QueueCfg), s.serves m 0x0204 true false (· = 8) [(63, 12)] →
    bits (leNat (mailBody m)) 11 0 = q.val → s.mayName m.fn q → (s.queue q).state = qStalled → (s.queue q).cfg = some g → g.persist = false →
    (s.queue q).cmds ≠ [] → (s.queue q).held = [] →
    ∃ s' a : State, exec (.resumeCompletionPath m) s = .next s' ∧ a.replied m 0x0204 0 [] s'
      ∧ a = { s.accepted m 0x0204 1000000 with queues := a.queues } ∧ (∀ r, r ≠ q → a.queue r = s.queue r)
      ∧ a.queue q = { s.queue q with state := if s.lending g.partition then qPreempted else qRunning, reason := 0 }) ∧
  (∀ (s : State) (m : Msg) (q : QueueId) (g : QueueCfg) (d : Cmd), s.serves m 0x0204 true false (· = 8) [(63, 12)] →
    bits (leNat (mailBody m)) 11 0 = q.val → s.mayName m.fn q → (s.queue q).state = qStalled → (s.queue q).cfg = some g → g.persist = false →
    (s.queue q).cmds ≠ [] → (s.queue q).held = [d] → slotFree (s.queue q) g d.seq = true → s.paired q = false → g.cpl.toNat / 2 ^ 60 = 4 →
    s.atsOn = false → (d.doneAt - d.begunAt).toNat < 100000 → bit (leNat d.record) 9 = false →
    ∃ s' a : State, exec (.resumeCompletionPath m) s = .next s' ∧ a.replied m 0x0204 0 [] s'
      ∧ a = { s.accepted m 0x0204 1000000 with queues := a.queues, host := a.host } ∧ (∀ r, r ≠ q → a.queue r = s.queue r)
      ∧ a.host = putBytes s.host (g.cpl.toNat % 2 ^ 57 + 32 * (d.seq.toNat % 2 ^ g.cplLog2)) (completionRecord q d.seq g.cplLog2 d)
      ∧ a.queue q = { s.queue q with
          state := if s.lending g.partition then qPreempted else qRunning, reason := 0, held := [], nextPub := (s.queue q).nextPub + 1 }) ∧
  (∀ (s : State) (m : Msg) (q : QueueId), s.serves m 0x0201 true false (· = 8) [(63, 12)] → bits (leNat (mailBody m)) 11 0 = q.val →
    s.mayName m.fn q → (s.queue q).state ≠ qDisabled → (s.queue q).state ≠ qDestroying → (s.queue q).cfg ≠ none → (s.queue q).cmds = [] →
    (s.queue q).held = [] → (s.queue q).resumeTo = none → s.queueAlone q → s.jobs = [] →
    ∃ s' a : State, exec (.destroyQueue m) s = .next s' ∧ a.replied m 0x0201 0 [] s'
      ∧ a = { s.accepted m 0x0201 1700000 with queues := a.queues, dies := a.dies } ∧ (∀ r, r ≠ q → a.queue r = s.queue r)
      ∧ a.queue q = { gen := (s.queue q).gen, energy := (s.queue q).energy } ∧ ∀ d, a.die d = { s.die d with slots := (a.die d).slots }) ∧
  (∀ r ∈ ([(.destroyQueue, 0x0201, 8, 1700000, [(63, 12)], [1, 2, 3, 4, 5, 7]), (.resumeQueue, 0x0202, 16, 1000000, [(63, 12), (127, 96)], [4]),
      (.haltQueue, 0x0203, 8, 1000000, [(63, 12)], [1, 2]), (.resumeCompletionPath, 0x0204, 8, 1000000, [(63, 12)], [5])] :
      List ((Msg → Instr) × Nat × Nat × Nat × List (Nat × Nat) × List (BitVec 3))),
    ∀ (s : State) (m : Msg) (q : QueueId), s.serves m r.2.1 true false (· = r.2.2.1) r.2.2.2.2.1 → bits (leNat (mailBody m)) 11 0 = q.val →
    s.mayName m.fn q → (s.queue q).state ∉ r.2.2.2.2.2 →
    ∃ s', exec (r.1 m) s = .next s' ∧ (s.accepted m r.2.1 r.2.2.2.1).replied m r.2.1 0x1009 [] s')

/-- R223, R227, R295, R325, R326, R388, R418, R424, R514: the messages that set something. A partition's checked arithmetic, its
translation root, its scrub period; the power cap and the weights of the partitions that exist; the trace's configuration, which
starts at slot 0; the module's identifier and its wiring plan, from which firmware loads its table; a diagnostic, which leaves the
die's tiles as placed and its cache acquired and tells what the test found (a free value, notes/assumptions/3.md). -/
def Obligations.MessagesSetWhatTheyName : Prop :=
  (∀ (s : State) (m : Msg) (p : PartId), s.serves m 0x0303 false false (· = 8) [(7, 3), (63, 9)] → bits (leNat (mailBody m)) 2 0 = p.val →
    s.standing p = true →
    ∃ s' a : State, exec (.setCheckedArithmetic m) s = .next s' ∧ a.replied m 0x0303 0 [] s'
      ∧ a = { s.accepted m 0x0303 1000000 with parts := a.parts } ∧ (∀ r, r ≠ p → a.part r = s.part r)
      ∧ a.part p = { s.part p with checked := bit (leNat (mailBody m)) 8 }) ∧
  (∀ (s : State) (m : Msg) (p : PartId) (root : BitVec 42), s.serves m 0x0400 true false (· = 16) [(63, 3), (127, 106)] →
    hasFields (leNat (mailBody m)) [(2, 0, p.val), (105, 64, root.toNat)] → (∀ r, partOfFn m.fn = some r → r = p) → s.standing p = true →
    root.toNat % 4096 = 0 → s.inExtent p root.toNat 4096 = true →
    ∃ s' a : State, exec (.setTranslationRoot m) s = .next s' ∧ a.replied m 0x0400 0 [] s'
      ∧ a = { s.accepted m 0x0400 1000000 with parts := a.parts } ∧ (∀ r, r ≠ p → a.part r = s.part r)
      ∧ a.part p = { s.part p with root := some root }) ∧
  (∀ (s : State) (m : Msg) (p : PartId) (h : BitVec 7), s.serves m 0x0401 false false (· = 8) [(7, 3), (63, 16)] →
    hasFields (leNat (mailBody m)) [(2, 0, p.val), (15, 8, h.toNat)] → s.standing p = true → 1 ≤ h.toNat → h.toNat ≤ 72 →
    ∃ s' a : State, exec (.setScrubPeriod m) s = .next s' ∧ a.replied m 0x0401 0 [] s'
      ∧ a = { s.accepted m 0x0401 1000000 with parts := a.parts } ∧ (∀ r, r ≠ p → a.part r = s.part r)
      ∧ a.part p = { s.part p with scrub := h }) ∧
  (∀ (s : State) (m : Msg) (cap : BitVec 16), s.serves m 0x0501 false false (· = 16) [(63, 16)] →
    bits (leNat (mailBody m)) 15 0 = cap.toNat → 1500 ≤ cap.toNat → cap.toNat ≤ 4600 →
    (∀ p : PartId, (s.part p).exists_ = true → bits (leNat (mailBody m)) (64 + 8 * p.val + 7) (64 + 8 * p.val) ≠ 0) →
    ∃ s' a : State, exec (.setPowerCap m) s = .next s' ∧ a.replied m 0x0501 0 [] s'
      ∧ a = { s.accepted m 0x0501 1000000 with capo := { s.capo with cap := cap, weights := a.capo.weights } }
      ∧ ∀ p : PartId, bits a.capo.weights.toNat (8 * p.val + 7) (8 * p.val) =
          if (s.part p).exists_ then bits (leNat (mailBody m)) (64 + 8 * p.val + 7) (64 + 8 * p.val)
          else bits s.capo.weights.toNat (8 * p.val + 7) (8 * p.val)) ∧
  (∀ (s : State) (m : Msg) (size : Nat) (buf : BitVec 57), s.serves m 0x0801 false false (· = 32) [(63, 58), (79, 71), (127, 88), (255, 160)] →
    hasFields (leNat (mailBody m)) [(56, 0, buf.toNat), (68, 64, size)] → 10 ≤ size → size ≤ 24 → buf.toNat % (32 * 2 ^ size) = 0 →
    bit (leNat (mailBody m)) 57 = true ∨ s.bufferOk buf.toNat (32 * 2 ^ size) = true →
    ∃ s' a : State, exec (.configureTrace m) s = .next s' ∧ a.replied m 0x0801 0 [] s'
      ∧ a = { s.accepted m 0x0801 1000000 with tel := { s.tel with trace := a.tel.trace } }
      ∧ a.tel.trace.buf = buf ∧ a.tel.trace.size = size ∧ a.tel.trace.written = 0
      ∧ a.tel.trace.host = bit (leNat (mailBody m)) 57 ∧ a.tel.trace.enable = bit (leNat (mailBody m)) 69
      ∧ a.tel.trace.ovfEvent = bit (leNat (mailBody m)) 70
      ∧ hasFields (leNat (mailBody m)) [(87, 80, a.tel.trace.classes.toNat), (159, 128, a.tel.trace.kinds.toNat)]) ∧
  (∀ (s : State) (m : Msg), s.serves m 0x0801 false false (· = 32) [(63, 58), (79, 71), (127, 88), (255, 160)] →
    10 ≤ bits (leNat (mailBody m)) 68 64 → bits (leNat (mailBody m)) 68 64 ≤ 24 →
    bits (leNat (mailBody m)) 56 0 % (32 * 2 ^ bits (leNat (mailBody m)) 68 64) = 0 → bit (leNat (mailBody m)) 57 = false →
    s.bufferOk (bits (leNat (mailBody m)) 56 0) (32 * 2 ^ bits (leNat (mailBody m)) 68 64) = false →
    ∃ s', exec (.configureTrace m) s = .next s' ∧ (s.accepted m 0x0801 1000000).replied m 0x0801 0x1104 [] s') ∧
  (∀ (s : State) (m : Msg) (id : BitVec 14), s.serves m 0x0900 false false (· = 8) [(63, 14)] → bits (leNat (mailBody m)) 13 0 = id.toNat →
    (s.fab.plan = none →
      ∃ s', exec (.setModuleIdentifier m) s = .next s'
        ∧ ({ s.accepted m 0x0900 10000000 with fab := { s.fab with modId := id } } : State).replied m 0x0900 0 [] s') ∧
    (s.fab.plan ≠ none →
      ∃ s', exec (.setModuleIdentifier m) s = .next s' ∧ (s.accepted m 0x0900 10000000).replied m 0x0900 0x1009 [] s')) ∧
  (∀ (s : State) (m : Msg) (p : Plan), s.serves m 0x0901 false false (· = 16) [(15, 14), (127, 52)] →
    hasFields (leNat (mailBody m)) [(4, 0, p.sx.toNat), (9, 5, p.sy.toNat), (13, 10, p.sz.toNat), (51, 16, p.connected.toNat)] →
    (s.planFits p = true →
      ∃ s', exec (.loadRoutingTable m) s = .next s'
        ∧ (State.loadTable { s.accepted m 0x0901 10000000 with fab := { s.fab with plan := if p.connected = 0 then none else some p } } []).replied
            m 0x0901 0 [] s') ∧
    (s.planFits p = false →
      ∃ s', exec (.loadRoutingTable m) s = .next s' ∧ (s.accepted m 0x0901 10000000).replied m 0x0901 0x1003 [] s')) ∧
  (∀ (s : State) (m : Msg) (d : DieId) (test : Byte), s.serves m 0x0A02 false false (· = 16) [(127, 12)] →
    hasFields (leNat (mailBody m)) [(7, 0, test.toNat), (11, 8, d.val)] → 1 ≤ test.toNat → test.toNat ≤ 4 → s.diagReady d = true →
    test ≠ 4 ∨ (s.die d).cache = [] →
    ∃ (s' a : State) (b : Bytes), exec (.runDiagnostic m) s = .next s' ∧ a.replied m 0x0A02 0 b s' ∧ b.length = 16 ∧
      let r := Config.diagnostic s.flt.diags test d.val
      hasFields (leNat b) [(7, 0, if r.1 = 0 then 0 else 1), (15, 8, r.1.toNat), (23, 16, if r.1 = 0 then 0 else r.2.1.toNat), (63, 24, 0),
        (95, 64, r.2.2.toNat), (127, 96, 0)]
      ∧ a.flt.diags = s.flt.diags + 1
      ∧ (r.1 = 0 →
          a = { s.accepted m 0x0A02 200000000 with flt := { s.flt with diags := s.flt.diags + 1 }, tiles := a.tiles, dies := a.dies }
          ∧ (∀ t, a.tile t = if dieOf t = d then (s.tile t).placed else s.tile t)
          ∧ a.die d = { s.die d with gen := (s.die d).gen + 1, clearing := true } ∧ ∀ e, e ≠ d → a.die e = s.die e))

/-- R296, R308, R472, R473, R480, R481, R483, R484, R486: firmware update, licences and maintenance. A chunk enters the staging
area. A valid staged image is committed, counter 0 rising to its security version, or rolled back to without it, under a rollback
record. Start and restart answer, then begin a module-warm reset. A licence that passes its checks is stored and counter 2 rises;
a removal takes it out. A reset of the disabled-unit record drops its extensions and raises counter 1. An accepted maintenance
message enters the presence log with counter 3. What the signatures verify as is the configuration's (notes/assumptions/13.md). -/
def Obligations.UpdatesLicencesAndMaintenance : Prop :=
  (∀ (s : State) (m : Msg) (off n : Nat), s.serves m 0x0700 false true (fun k => 17 ≤ k && k ≤ 4080) [] →
    hasFields (leNat ((mailBody m).take 16)) [(31, 0, off), (47, 32, n), (127, 48, 0)] → n + 16 = m.length.toNat → off + n ≤ 48 * mib →
    ∃ s' a : State, exec (.stageFirmwareChunk m) s = .next s' ∧ a.replied m 0x0700 0 [] s'
      ∧ a = { s.accepted m 0x0700 5000000 with boot := { s.boot with staging := a.boot.staging, stagedTop := max s.boot.stagedTop (off + n) } }
      ∧ ∀ i, byteAt a.boot.staging i =
          if off ≤ i ∧ i < off + n then (slice m.payload 0 m.length.toNat).getD (16 + (i - off)) 0 else byteAt s.boot.staging i) ∧
  (∀ (s : State) (m : Msg), s.serves m 0x0702 false true (· = 0) [] →
    ∃ s' a : State, exec (.commitStagedImage m) s = .next s' ∧
      if (s.stagedFails true).isSome then a = s.accepted m 0x0702 60000000000 ∧ a.replied m 0x0702 0x1009 [] s'
      else a.replied m 0x0702 0 [] s'
        ∧ a = { s.accepted m 0x0702 60000000000 with
            boot := { s.boot with image := some s.boot.staging, rollback := none, counters := a.boot.counters } }
        ∧ (a.flashCounter 0).toNat = max (s.flashCounter 0).toNat s.stagedInfo.svn ∧ ∀ i, i ≠ 0 → a.flashCounter i = s.flashCounter i) ∧
  (∀ (s : State) (m : Msg), s.serves m 0x0703 false true (· = 0) [] → s.boot.stagedTop ≠ 0 →
    ∃ s' t : State, exec (.startStagedImage m) s = .next s' ∧ (s.accepted m 0x0703 10000000).replied m 0x0703 0 [] t ∧
      let w := t.startWarm ⟨0x9009, 0, 0, false⟩
      s' = { w with boot := { w.boot with
        startStaged := true, attempts := if s.boot.state = 2 then 2 else w.boot.attempts
        startKind := if s.boot.state = 2 then 0x05 else w.boot.startKind } }) ∧
  (∀ (s : State) (m : Msg), s.serves m 0x0704 false true (· = 0) [] →
    ∃ s' t : State, exec (.restartFromFlash m) s = .next s' ∧ (s.accepted m 0x0704 10000000).replied m 0x0704 0 [] t ∧
      let w := t.startWarm ⟨0x9009, 0, 0, false⟩
      s' = { w with boot := { w.boot with
        startStaged := false, attempts := if s.boot.state = 2 then 2 else w.boot.attempts
        startKind := if s.boot.state = 2 then 0x05 else w.boot.startKind } }) ∧
  (∀ (s : State) (m : Msg) (l : Bytes) (f value serial : Nat), s.serves m 0x0600 false false (· = 2048) [(511, 224), (16383, 15456)] →
    (mailBody m).take 64 = l → hasFields (leNat l) [(55, 48, f), (63, 56, value), (95, 64, serial)] → s.counterFull 2 = false →
    ∃ (s' a : State) (b : Bytes), exec (.installLicence m) s = .next s' ∧ a.replied m 0x0600 0 b s' ∧ b.length = 8 ∧
      let result :=
        if Config.ecdsaVerifies 1 l (slice (mailBody m) 64 96) = false ∨ Config.lmsVerifies 1 l (slice (mailBody m) 160 1772) = false then 1
        else if bits (leNat l) 223 96 ≠ Config.fingerprint.toNat then 2
        else if value ≤ s.licensed f then 3
        else if bits (leNat l) 31 0 ≠ 0x43494C42 ∨ bits (leNat l) 47 32 ≠ 0x0B24 ∨ f = 0 ∨ 4 < f ∨ (if f = 1 then 2 else 1) < value then 4
        else 0
      leNat b = result ∧ (result ≠ 0 → a = s.accepted m 0x0600 2000000000)
      ∧ (result = 0 → a.licence f = some ⟨BitVec.ofNat 8 value, BitVec.ofNat 32 serial⟩ ∧ (∀ g, g ≠ f → a.licence g = s.licence g)
          ∧ a.flashCounter 2 = s.flashCounter 2 + 1 ∧ a.boot.licenceGen = a.flashCounter 2
          ∧ (f = 1 → a.boot.portsInForce = if value = 2 then 36 else 24)
          ∧ (f ≠ 1 → a = { s.accepted m 0x0600 2000000000 with boot := { s.boot with
              licences := a.boot.licences, counters := a.boot.counters, licenceGen := a.boot.licenceGen } }))) ∧
  (∀ (s : State) (m : Msg) (f : Nat) (x : Licence), s.serves m 0x0F00 false false (· = 8) [(63, 8)] → bits (leNat (mailBody m)) 7 0 = f →
    1 ≤ f → f ≤ 4 → s.licence f = some x → (f = 2 → ∀ p : PartId, 2 ≤ p.val → (s.part p).exists_ = false) →
    (f = 4 → ∀ p : PartId, (s.part p).lsState = 0) → s.counterFull 2 = false →
    ∃ s' a : State, exec (.removeLicence m) s = .next s' ∧ a.replied m 0x0F00 0 [] s'
      ∧ a = { s.accepted m 0x0F00 60000000000 with boot := { s.boot with
          presenceLog := s.boot.presenceLog ++ [(0x0F00, s.boot.presenceOpen, s.flashCounter 3)]
          licences := a.boot.licences, counters := a.boot.counters, licenceGen := a.boot.licenceGen } }
      ∧ a.licence f = none ∧ (∀ g, g ≠ f → a.licence g = s.licence g) ∧ a.flashCounter 2 = s.flashCounter 2 + 1
      ∧ a.boot.licenceGen = a.flashCounter 2) ∧
  (∀ (s : State) (m : Msg), s.serves m 0x0F01 false false (· = 0) [] →
    ∃ s' a : State, exec (.rollFirmwareBack m) s = .next s' ∧
      let logged := s.boot.presenceLog ++ [(0x0F01, s.boot.presenceOpen, s.flashCounter 3)]
      if (s.stagedFails false).isSome then
        a.replied m 0x0F01 0x1009 [] s' ∧ a = { s.accepted m 0x0F01 60000000000 with boot := { s.boot with presenceLog := logged } }
      else a.replied m 0x0F01 0 [] s'
        ∧ a = { s.accepted m 0x0F01 60000000000 with boot := { s.boot with
            presenceLog := logged, image := some s.boot.staging, rollback := some (s.stagedInfo.digest, s.flashCounter 0) } }) ∧
  (∀ (s : State) (m : Msg), s.serves m 0x0F02 false false (· = 0) [] → s.counterFull 1 = false →
    ∃ s' a : State, exec (.resetDisabledUnitRecord m) s = .next s' ∧ a.replied m 0x0F02 0 [] s'
      ∧ a = { s.accepted m 0x0F02 60000000000 with boot := { s.boot with
          presenceLog := s.boot.presenceLog ++ [(0x0F02, s.boot.presenceOpen, s.flashCounter 3)]
          entries := s.boot.entries.filter fun e => e.gen = 0, counters := a.boot.counters, recordGen := a.boot.recordGen } }
      ∧ a.flashCounter 1 = s.flashCounter 1 + 1 ∧ a.boot.recordGen = a.flashCounter 1) ∧
  (∀ (s : State) (m : Msg), s.serves m 0x0F03 false false (· = 0) [] →
    ∃ s' t : State, exec (.debugUnlock m) s = .next s'
      ∧ ({ s.accepted m 0x0F03 60000000000 with boot := { s.boot with
          presenceLog := s.boot.presenceLog ++ [(0x0F03, s.boot.presenceOpen, s.flashCounter 3)], debug := true } } : State).replied
          m 0x0F03 0 [] t
      ∧ s' = t.startWarm ⟨0x9009, 0, 0, false⟩)

/-! ## Power states (R445 to R454) -/

/-- The state of dies and module in which nothing refuses a power state (R448), the free choice of code 0x06 aside. -/
abbrev Sys2Proof.Machine.State.restful (s : State) (p : Option PartId) (dorm : Bool) : Prop :=
  let ds := if dorm then allDies else s.scopeDies p
  let qs := s.scopeQueues (if dorm then none else p)
  (∀ q ∈ qs, (s.queue q).state = qIdle ∨ (s.queue q).state = qDisabled) ∧ (∀ k ∈ s.colls, k.cmd.queue ∉ qs)
    ∧ (dorm = true → ∀ i : PortId, (s.port i).holds = []) ∧ (∀ d ∈ ds, ∀ k ∈ dieStacks d, (s.stack k).temp ≤ 85 * 16)
    ∧ (∀ d ∈ ds, (s.freeSlots d).length = 3 ∧ s.loanOf d = none) ∧ s.capo.sagWarn = false ∧ s.reshaping p ds = false
    ∧ ∀ r : PartId, (s.part r).lsState = 0

/-- R445 to R450, R452, R454: an entry that nothing refuses begins, and its answer comes once it is over: with nothing in its way the
next nanosecond puts the scope's dies into their state, for Drowse with caches dropped and stacks in self-refresh. A busy queue of
the scope refuses it with 0x6001 and code 0x01, which is counted. A function's D3hot state is a free value
(notes/assumptions/3.md). A return to Active brings the dies back, out of Drowse with their stacks serving, their tiles zeroed and
their caches acquired. -/
def Obligations.PowerStatesAreEnteredAndLeft : Prop :=
  (∀ r ∈ ([(1, .enterIdleReady, 100000), (2, .enterDrowse, 10000000)] : List (Nat × (Msg → Instr) × Nat)),
    ∀ (s : State) (m : Msg), s.serves m 0x0500 false false (· = 8) [(63, 7)] → pwTarget m.payload = r.1 →
    (pwScope (mailBody m) = none → bits (leNat (mailBody m)) 6 4 = 0) → s.moveLegal (mailBody m) = true →
    s.restful (pwScope (mailBody m)) false →
    exec (r.2.1 m) s = .next { s.accepted m 0x0500 r.2.2 with
      jobs := s.jobs ++ [⟨some (.mail m.fn ((s.fn m.fn).serial + 1)), .power (mailBody m)⟩] }) ∧
  (∀ (s : State) (m : Msg), s.serves m 0x0500 false false (· = 8) [(63, 7)] → pwTarget m.payload = 3 →
    pwScope (mailBody m) = none → bits (leNat (mailBody m)) 6 4 = 0 → s.moveLegal (mailBody m) = true → s.restful none true →
    ∃ s', exec (.enterDormant m) s = .next s' ∧
      (s' = { s.accepted m 0x0500 100000000 with
          fresh := s.fresh + 1, jobs := s.jobs ++ [⟨some (.mail m.fn ((s.fn m.fn).serial + 1)), .power (mailBody m)⟩] } ∨
        ∃ a b, State.replied a m 0x0500 0x6001 b s' ∧ hasFields (leNat b) [(7, 0, 0x06), (63, 8, 0)]
          ∧ a = { s.accepted m 0x0500 100000000 with
              fresh := s.fresh + 1, pow := { s.pow with counts := a.pow.counts, last := 0x06, lastAbort := false } })) ∧
  (∀ r ∈ ([(1, .enterIdleReady, 100000), (2, .enterDrowse, 10000000)] : List (Nat × (Msg → Instr) × Nat)),
    ∀ (s : State) (m : Msg) (q : QueueId), s.serves m 0x0500 false false (· = 8) [(63, 7)] → pwTarget m.payload = r.1 →
    (pwScope (mailBody m) = none → bits (leNat (mailBody m)) 6 4 = 0) → s.moveLegal (mailBody m) = true →
    q ∈ s.scopeQueues (pwScope (mailBody m)) → (s.queue q).state ≠ qIdle → (s.queue q).state ≠ qDisabled →
    ∃ (s' a : State) (b : Bytes), exec (r.2.1 m) s = .next s' ∧ a.replied m 0x0500 0x6001 b s' ∧ b.length = 8
      ∧ hasFields (leNat b) [(7, 0, 0x01), (63, 8, 0)]
      ∧ a = { s.accepted m 0x0500 r.2.2 with pow := { s.pow with counts := a.pow.counts, last := 0x01, lastAbort := false } }
      ∧ (mapGet 0 a.pow.counts 1).toNat = min ((mapGet 0 s.pow.counts 1).toNat + 1) 0xFFFF
      ∧ ∀ c, c ≠ 1 → mapGet 0 a.pow.counts c = mapGet 0 s.pow.counts c) ∧
  (∀ (s : State) (m : Msg), s.serves m 0x0500 false false (· = 8) [(63, 7)] → pwTarget m.payload = 0 →
    (pwScope (mailBody m) = none → bits (leNat (mailBody m)) 6 4 = 0) → s.moveLegal (mailBody m) = true →
    ∃ (s' a : State) (b : Bytes), exec (.enterActive m) s = .next s' ∧ a.replied m 0x0500 0 b s' ∧ b.length = 8 ∧ leNat b = 0
      ∧ a = { s.accepted m 0x0500 10000000 with
          tiles := a.tiles, dies := a.dies, memStacks := a.memStacks, pow := { s.pow with portsIdle := a.pow.portsIdle } }
      ∧ (∀ d, if d ∈ s.scopeDies (pwScope (mailBody m)) then
            a.die d = { s.die d with
              pstate := 0, partScope := false, gen := if (s.die d).pstate = 2 then (s.die d).gen + 1 else (s.die d).gen
              clearing := (s.die d).clearing || decide ((s.die d).pstate = 2) }
          else a.die d = s.die d)
      ∧ (∀ t, a.tile t = if dieOf t ∈ s.scopeDies (pwScope (mailBody m)) ∧ (s.die (dieOf t)).pstate = 2 then (s.tile t).repowered else s.tile t)
      ∧ ∀ k, a.stack k = if stackDie k ∈ s.scopeDies (pwScope (mailBody m)) ∧ (s.die (stackDie k)).pstate = 2
          then { s.stack k with selfRefresh := false } else s.stack k) ∧
  (∀ (s : State) (b : Bytes) (f : FnId) (n : Nat), s.pending = [] → s.pow.mode = .powered → s.boot.running = true →
    (∀ x ∈ s.flt.masked, x.count = 0) → s.jobs = [⟨some (.mail f n), .power b⟩] → s.restful (pwScope b) false → pwTarget b = 1 ∨ pwTarget b = 2 →
    (∀ d, (s.die d).cache = []) →
    ∃ s', step s = .next s' ∧ s'.jobs = []
      ∧ (∀ d, if d ∈ s.scopeDies (pwScope b) then
            s'.die d = { s.die d with pstate := BitVec.ofNat 3 (pwTarget b), partScope := (pwScope b).isSome } else s'.die d = s.die d)
      ∧ (∀ k, s'.stack k = if pwTarget b = 2 ∧ stackDie k ∈ s.scopeDies (pwScope b) then { s.stack k with selfRefresh := true } else s.stack k)
      ∧ s'.mem = s.mem ∧ s'.queues = s.queues.map (fun e => (e.1, e.2.age 1)))

/-! ## Partitions and firmware's commands (R261, R331, R369, R381 to R390, R431) -/

/-- Command `x` begins next, and the parameter block of `n` bytes that it names, aligned, reads as `b` (R261). -/
abbrev Sys2Proof.Machine.State.blockTurn (s : State) (q : QueueId) (op align n : Nat) (x : Cmd) (b : Bytes) : Prop :=
  s.frontTurn q op x ∧ x.field 127 64 % align = 0 ∧ s.vread (s.queuePart q) (x.field 127 64) n = .ok b

/-- A partition request as a message of this opcode or as a command of a queue: its block, and the state in which firmware serves
it (R381). -/
def Sys2Proof.Machine.State.asksPart (s : State) (r : PartSource) (opcode : Nat) (b : Bytes) (a : State) : Prop :=
  match r with
  | .msg m => s.serves m opcode false false (· = 128) [] ∧ mailBody m = b ∧ a = s.accepted m opcode 50000000
  | .cmd q => ∃ x, s.blockTurn q 0x11 128 128 x b ∧ a = s.beginCmd ⟨q, x.id⟩

/-- Its answer, given in state `a`. -/
def Sys2Proof.Machine.State.toldPart (s a : State) (r : PartSource) (opcode : Nat) (st : BitVec 16) (s' : State) : Prop :=
  match r with
  | .msg m => a.replied m opcode st [] s'
  | .cmd q => ∃ x, s.readyCmd q 0x11 = some x ∧ s' = if st = 0 then a.endWork ⟨q, x.id⟩ 0 else a.frontFail ⟨q, x.id⟩ { status := st }

/-- Dies that change hands: owned by `p`, their caches acquired, their tiles as placed, their semaphores and counters at `v`, the
first `n` bytes of each region zero and unpoisoned, their performance counters zero (R175, R383, R385, R386, R511). -/
def Sys2Proof.Machine.State.remade (s a : State) (ds : List DieId) (p : PartId) (n : DieId → Nat) (v : NMap (BitVec 32) × NMap (BitVec 48)) : Prop :=
  (∀ d, a.die d = if d ∈ ds then { s.die d with owner := some p, gen := (s.die d).gen + 1, clearing := true } else s.die d)
    ∧ (∀ t, a.tile t = if dieOf t ∈ ds then (s.tile t).placed else s.tile t)
    ∧ (∀ i, mapGet 0 a.sems i = if ∃ d ∈ ds, i / 1024 = d.val then mapGet 0 v.1 i else mapGet 0 s.sems i)
    ∧ (∀ i, mapGet 0 a.ctrs i = if ∃ d ∈ ds, i / 8192 = d.val then mapGet 0 v.2 i else mapGet 0 s.ctrs i)
    ∧ (∀ i, byteAt a.mem i = if ∃ d ∈ ds, d.val * 2 ^ 38 ≤ i ∧ i < d.val * 2 ^ 38 + n d then 0 else byteAt s.mem i)
    ∧ (∀ l, l ∈ a.poison ↔ l ∈ s.poison ∧ ∀ d ∈ ds, 64 * l < d.val * 2 ^ 38 ∨ d.val * 2 ^ 38 + n d ≤ 64 * l)
    ∧ ∀ k, mapGet 0 a.tel.perf k =
        if ∃ d ∈ ds, k % 65536 = (srcDie d).toNat ∨ ∃ t, dieOf t = d ∧ k % 65536 = (srcTile t).toNat then 0 else mapGet 0 s.tel.perf k

/-- A partition whose lock-step pairing begins anew (R373). -/
def Sys2Proof.Machine.Part.pairing (w : Part) : Part :=
  { w with lsState := if w.ls.enable then 1 else 0, local_ := [], peer_ := [], localBlocks := [], diverged := false }

/-- R372, R373, R381 to R388: the partition requests, as messages and as commands. A block that fails its checks ends the request
with their status and changes nothing. A create gives free dies to a new partition; a lend gives dies to a borrower and saves
their semaphores and counters; a return gives a lent die back with what was saved; a delete frees the dies of a partition without
queues; a configure sets damp policy and lock-step block. -/
def Obligations.PartitionRequestsMoveDies : Prop :=
  (∀ r ∈ ([(0, 0x0300, .partitionCreate), (1, 0x0301, .partitionLend), (2, 0x0301, .partitionReturn), (3, 0x0302, .partitionDelete),
      (4, 0x0301, .partitionConfigure)] : List (Nat × Nat × (PartSource → Instr))),
    ∀ (s a : State) (w : PartSource) (b : Bytes), s.asksPart w r.2.1 b a → pb b 3 0 = r.1 → a.blockCheck b ≠ 0 →
    ∃ s', exec (r.2.2 w) s = .next s' ∧ s.toldPart a w r.2.1 (a.blockCheck b) s') ∧
  (∀ (s a : State) (w : PartSource) (b : Bytes) (p : PartId) (ds : List DieId), s.asksPart w 0x0300 b a → pb b 3 0 = 0 →
    pb b 6 4 = p.val → a.blockCheck b = 0 → ds = (allDies.filter fun d => bit (leNat b) (16 + d.val)) → (∀ d ∈ ds, (s.die d).cache = []) →
    ∃ s' z : State, exec (.partitionCreate w) s = .next s' ∧ s.toldPart z w 0x0300 0 s' ∧ a.remade z ds p s.reserveBase ([], [])
      ∧ z = { a with
          dies := z.dies, tiles := z.tiles, sems := z.sems, ctrs := z.ctrs, mem := z.mem, poison := z.poison
          tel := { a.tel with perf := z.tel.perf }, parts := z.parts, fab := z.fab }
      ∧ (∀ u, u ≠ p → z.part u = a.part u)
      ∧ z.part p = Part.pairing { exists_ := true, damp := bit (leNat b) 11, checked := bit (leNat b) 12, ls := pbLock b }
      ∧ ((pbLock b).enable = false → z.fab = a.fab)) ∧
  (∀ (s a : State) (w : PartSource) (b : Bytes) (p l : PartId) (ds : List DieId), s.asksPart w 0x0301 b a → pb b 3 0 = 1 →
    hasFields (leNat b) [(6, 4, p.val), (10, 8, l.val)] → a.blockCheck b = 0 → ds = (allDies.filter fun d => bit (leNat b) (16 + d.val)) →
    (∀ d, (s.die d).cache = []) → (∀ d ∈ s.partDies l, s.freeSlots d ≠ []) → (∀ q ∈ a.partQueues l, (s.queue q).state = qIdle ∧ a.contextTiles q = []
      ∧ (s.queue q).preempting = false) → s.jobs = [] → (s.part l).ls.enable = false → (s.part p).ls.enable = false →
    ∃ s' z : State, exec (.partitionLend w) s = .next s' ∧ s.toldPart z w 0x0301 0 s' ∧ a.remade z ds p (fun _ => pb b 39 32 * gib) ([], [])
      ∧ z = { a with
          dies := z.dies, tiles := z.tiles, sems := z.sems, ctrs := z.ctrs, mem := z.mem, poison := z.poison
          tel := { a.tel with perf := z.tel.perf }, parts := z.parts, loans := z.loans }
      ∧ z.loans = s.loans ++ ds.map (fun d => ⟨l, p, d, pb b 39 32, some (s.dieValues d)⟩)
      ∧ (∀ u, u ≠ p → u ≠ l → z.part u = a.part u) ∧ z.part l = (s.part l).pairing
      ∧ z.part p = (if (s.part p).exists_ then (s.part p).pairing else Part.pairing { exists_ := true })) ∧
  (∀ (s a : State) (w : PartSource) (b : Bytes) (p : PartId) (d : DieId) (l : Loan) (v : NMap (BitVec 32) × NMap (BitVec 48)),
    s.asksPart w 0x0301 b a → pb b 3 0 = 2 → pb b 6 4 = p.val → a.blockCheck b = 0 → bits (leNat b) 27 16 = 2 ^ d.val →
    (∀ e, (s.die e).cache = []) → s.loanOf d = some l → l.saved = some v → mapWf 0 v.1 → mapWf 0 v.2 → (∀ e ∈ v.1, semOf d e.1 = true) →
    (∀ e ∈ v.2, ctrOf d e.1 = true) → (∃ e, e ≠ d ∧ (s.die e).owner = some p) → (s.part l.lender).ls.enable = false →
    (s.part p).ls.enable = false → l.lender ≠ p →
    ∃ s' z : State, exec (.partitionReturn w) s = .next s' ∧ s.toldPart z w 0x0301 0 s' ∧ a.remade z [d] l.lender (fun _ => l.lentGib * gib) v
      ∧ z = { a with
          dies := z.dies, tiles := z.tiles, sems := z.sems, ctrs := z.ctrs, mem := z.mem, poison := z.poison
          tel := { a.tel with perf := z.tel.perf }, parts := z.parts, loans := z.loans }
      ∧ z.loans = s.loans.filter (fun k => k.die ≠ d)
      ∧ (∀ u, u ≠ p → u ≠ l.lender → z.part u = a.part u) ∧ z.part p = (s.part p).pairing ∧ z.part l.lender = (s.part l.lender).pairing) ∧
  (∀ (s a : State) (w : PartSource) (b : Bytes) (p : PartId), s.asksPart w 0x0302 b a → pb b 3 0 = 3 → pb b 6 4 = p.val →
    a.blockCheck b = 0 → (∀ e, (s.die e).cache = []) → s.partQueues p = [] → a.partQueues p = [] → s.borrowed p = [] → s.jobs = [] →
    ∃ s' z : State, exec (.partitionDelete w) s = .next s' ∧ s.toldPart z w 0x0302 0 s' ∧ z = { a with dies := z.dies, parts := z.parts }
      ∧ (∀ d, z.die d = if (s.die d).owner = some p then { s.die d with owner := none } else s.die d)
      ∧ z.part p = {} ∧ ∀ u, u ≠ p → z.part u = a.part u) ∧
  (∀ (s a : State) (w : PartSource) (b : Bytes) (p : PartId), s.asksPart w 0x0301 b a → pb b 3 0 = 4 → pb b 6 4 = p.val →
    a.blockCheck b = 0 →
    ∃ s' z : State, exec (.partitionConfigure w) s = .next s' ∧ s.toldPart z w 0x0301 0 s' ∧ z = { a with parts := z.parts, fab := z.fab }
      ∧ (∀ u, u ≠ p → z.part u = a.part u) ∧ z.part p = Part.pairing { s.part p with damp := bit (leNat b) 11, ls := pbLock b }
      ∧ ((pbLock b).enable = false → z.fab = a.fab))

/-- R261, R331, R369, R371, R431, R520: the commands of a queue that firmware runs. Become root names this module and it is the root
at once; resign takes the name back; a step forward moves the root's timebase, and fails with 0x1009 elsewhere. A clock ceiling
holds for the partitions named, whose dies come down to it; matched-clock mode puts no die above 1.40 GHz, with an event under a
cap below 4,000 W, until it is left. A message by command is served as the catalogue says, its response 4 KiB above it; a wrong
sequence number answers 0x1004 there, an unknown opcode 0x1001. -/
def Obligations.FirmwareCommandsComplete : Prop :=
  (∀ (s : State) (q : QueueId) (x : Cmd) (b : Bytes), s.blockTurn q 0x12 32 32 x b → leNat b = 0 →
    ∃ s', exec (.becomeRoot q) s = .next s' ∧ s.onlyQueues { s' with tb := s.tb, fab := s.fab }
      ∧ s.onlyCmd q (s.queue q) x.id (x.asWorked 0 s.stamp) s'
      ∧ s'.tb = { s.tb with
          named := some s.fab.modId, state := 2, root := s.fab.modId, parent := none, offset := 0, ratePpm := 0, holdUntil := none, goodSince := none }
      ∧ s'.fab = { s.fab with out := s.fab.out ++ [.mgmt none (.becomeRoot s.fab.modId)] }) ∧
  (∀ (s : State) (q : QueueId) (x : Cmd) (b : Bytes), s.blockTurn q 0x12 32 32 x b → leNat b = 1 →
    ∃ s', exec (.resign q) s = .next s' ∧ s.onlyQueues { s' with tb := s.tb, fab := s.fab }
      ∧ s.onlyCmd q (s.queue q) x.id (x.asWorked 0 s.stamp) s'
      ∧ (s.tb.named = some s.fab.modId → s'.tb.named = none ∧ s'.fab = { s.fab with out := s.fab.out ++ [.mgmt none (.resign s.fab.modId)] }
          ∧ s'.tb.root = BitVec.ofNat 14 (match s.reachable with | m :: _ => min s.fab.modId.toNat m | [] => s.fab.modId.toNat))
      ∧ (s.tb.named ≠ some s.fab.modId → s'.tb = s.tb ∧ s'.fab = s.fab)) ∧
  (∀ (s : State) (q : QueueId) (x : Cmd) (b : Bytes) (n : Word), s.blockTurn q 0x12 32 32 x b → leNat b = 2 + 2 ^ 64 * n.toNat →
    1 ≤ n.toNat → n.toNat ≤ 2 ^ 40 → s.tb.state = 2 →
    ∃ s', exec (.stepForward q) s = .next s' ∧ s.onlyQueues { s' with tb := s.tb } ∧ s'.tb = { s.tb with value := s.tb.value + n }
      ∧ s.onlyCmd q (s.queue q) x.id { x.asWorked 0 s.stamp with doneAt := s.stamp + n } s') ∧
  (∀ (s : State) (q : QueueId) (x : Cmd) (b : Bytes) (n : Word), s.blockTurn q 0x12 32 32 x b → leNat b = 2 + 2 ^ 64 * n.toNat →
    1 ≤ n.toNat → n.toNat ≤ 2 ^ 40 → s.tb.state ≠ 2 → (s.queue q).cmds = [x] → (s.queue q).state ≠ qDestroying →
    ∃ s' y, exec (.stepForward q) s = .next s' ∧ s'.tb = s.tb ∧ s'.cmd? ⟨q, x.id⟩ = some y ∧ y.status = 0x1009 ∧ y.stage = .worked
      ∧ (s'.queue q).halting ≠ none) ∧
  (∀ (s : State) (q : QueueId) (x : Cmd) (b : Bytes) (all : Bool) (p : PartId) (f : BitVec 7), s.blockTurn q 0x13 32 32 x b →
    leNat b = 256 * bnat all + 512 * p.val + 65536 * f.toNat → 16 ≤ f.toNat → f.toNat ≤ 76 → all = true ∨ (s.part p).exists_ = true →
    ∃ s', exec (.setClockCeiling q) s = .next s' ∧ s.onlyCmd q (s.queue q) x.id (x.asWorked 0 s.stamp) s'
      ∧ State.reportsTo { s with
          queues := s'.queues, parts := s'.parts, dies := s'.dies, xqs := s'.xqs, tel := { s.tel with trSeq := s'.tel.trSeq } } s'
      ∧ (∀ r, s'.part r = if (if all then (s.part r).exists_ = true else r = p) then { s.part r with fmax := f } else s.part r)
      ∧ (∀ d, s'.die d = { s.die d with clk := (s'.die d).clk, volt := (s'.die d).volt })
      ∧ (s.capo.matched = true → ∀ d, s'.die d = s.die d)
      ∧ (s.capo.matched = false → ∀ d r, (s.die d).owner = some r → (if all then (s.part r).exists_ = true else r = p) →
          (s'.die d).clk.toNat ≤ f.toNat)) ∧
  (∀ (s : State) (q : QueueId) (x : Cmd) (b : Bytes), s.blockTurn q 0x13 32 32 x b → leNat b = 1 →
    ∃ s', exec (.enterMatchedClock q) s = .next s' ∧ s.onlyCmd q (s.queue q) x.id (x.asWorked 0 s.stamp) s'
      ∧ State.reportsTo { s with
          queues := s'.queues, dies := s'.dies, capo := { s.capo with matched := true }, xqs := s'.xqs
          tel := { s.tel with trSeq := s'.tel.trSeq } } s'
      ∧ ∀ d, s'.die d = { s.die d with clk := (s'.die d).clk, volt := (s'.die d).volt } ∧ (s'.die d).clk.toNat ≤ 56) ∧
  (∀ (s : State) (q : QueueId) (x : Cmd) (b : Bytes), s.blockTurn q 0x13 32 32 x b → leNat b = 2 →
    ∃ s', exec (.leaveMatchedClock q) s = .next s' ∧ s.onlyCmd q (s.queue q) x.id (x.asWorked 0 s.stamp) s'
      ∧ s.onlyQueues { s' with dies := s.dies, capo := s.capo } ∧ s'.capo = { s.capo with matched := false }
      ∧ ∀ d, s'.die d = { s.die d with departed := none }) ∧
  (∀ (s : State) (q : QueueId) (x : Cmd) (h b : Bytes) (k : MsgSpec) (p : Bytes), s.frontTurn q 0x14 x →
    s.vread (s.queuePart q) (x.field 127 64) 16 = .ok h →
    hasFields (leNat h) [(15, 0, k.opcode), (31, 16, 0), (47, 32, b.length), (95, 64, 0), (127, 96, 0)] → k ∈ mailTable → b.length ≤ 4080 →
    (b.length ≠ 0 → s.vread (s.queuePart q) (x.field 127 64 + 16) b.length = .ok b) → k.opcode / 256 ≠ 0x0F →
    k.opcode < 0x0A02 ∨ 0x0A04 < k.opcode → (s.boot.state = 2 → k.os = true) → k.lenOk b.length = true →
    (∀ r ∈ k.reserved b, bits (leNat b) r.1 r.2 = 0) → k.run (s.beginCmd ⟨q, x.id⟩) (.pass ⟨q, x.id⟩) b = ansOk (s.beginCmd ⟨q, x.id⟩) p →
    p.length < 65536 →
    ∃ r : Bytes, r.length = 16 + p.length ∧ r.drop 16 = p
      ∧ hasFields (leNat (r.take 16)) [(15, 0, k.opcode), (16, 16, 1), (31, 17, 0), (47, 32, p.length), (63, 48, bits (leNat h) 63 48), (95, 64, 0),
          (111, 96, 0), (127, 112, 0)]
      ∧ ∀ z, (s.beginCmd ⟨q, x.id⟩).vwrite (s.queuePart q) (s.queueKernel q) (x.field 127 64 + 4096) r = (z, none) →
          exec (.fwpass q) s = .next (z.endWork ⟨q, x.id⟩ 0)) ∧
  (∀ (s : State) (q : QueueId) (x : Cmd) (h b : Bytes), s.frontTurn q 0x14 x → s.vread (s.queuePart q) (x.field 127 64) 16 = .ok h →
    b.length = min (bits (leNat h) 47 32) 4080 → (b.length ≠ 0 → s.vread (s.queuePart q) (x.field 127 64 + 16) b.length = .ok b) →
    bits (leNat h) 95 64 ≠ 0 ∨ mailTable.all (fun k => k.opcode ≠ bits (leNat h) 15 0) = true →
    ∃ r : Bytes, r.length = 16
      ∧ hasFields (leNat r) [(15, 0, bits (leNat h) 15 0), (16, 16, 1), (31, 17, 0), (47, 32, 0), (63, 48, bits (leNat h) 63 48),
          (95, 64, bits (leNat h) 95 64), (111, 96, if bits (leNat h) 95 64 ≠ 0 then 0x1004 else 0x1001), (127, 112, 0)]
      ∧ ∀ z, (s.beginCmd ⟨q, x.id⟩).vwrite (s.queuePart q) (s.queueKernel q) (x.field 127 64 + 4096) r = (z, none) →
          exec (.fwpass q) s = .next (z.endWork ⟨q, x.id⟩ 0))

/-! ## The host interface (R280 to R285, R297 to R301, R408 to R411, R465) -/

/-- The next slot of the physical function's fault ring: enabled, with room, a free line of device memory at `pa` (R299). -/
def Sys2Proof.Machine.State.faultSlot (s : State) (pa : Nat) : Prop :=
  let r := (s.fn 0).flt
  r.cfg.getLsbD 8 = true ∧ (r.prod - r.cons).toNat < 2 ^ (r.cfg.toNat % 32)
    ∧ r.base.toNat + 64 * (r.prod.toNat % 2 ^ (r.cfg.toNat % 32)) = 2 * 2 ^ 60 + pa ∧ pa < 2 ^ 48 ∧ pa % 64 = 0
    ∧ (∃ d o, s.paKind pa = .region d o ∧ o + 64 ≤ s.regionSize d) ∧ s.agentFenced pa = none

/-- R409, R410: a fault record with the next number and these fields stands in that slot, which the ring counts; cause bit 0 is
set; no other byte of memory differs. -/
def Sys2Proof.Machine.State.faultStands (s s' : State) (pa : Nat) (l : List (Nat × Nat × Nat)) : Prop :=
  hasFields (leNat (bytesAt s'.mem pa 64)) ((23, 0, s.flt.nextNo.toNat) :: (191, 128, s.stamp.toNat) :: (511, 448, 0) :: l)
    ∧ (∀ i, i < pa ∨ pa + 64 ≤ i → byteAt s'.mem i = byteAt s.mem i)
    ∧ (s'.fn 0).flt = { (s.fn 0).flt with prod := (s.fn 0).flt.prod + 1 } ∧ (s'.fn 0).kevCause.getLsbD 0 = true

/-- R297, R298: entry `e` of a function is raised: sent, or pending where it is masked; nothing else differs from `a`. -/
def Sys2Proof.Machine.State.raised (a : State) (f : FnId) (e : Nat) (s' : State) : Prop :=
  let x := mapGet {} (a.fn f).msix e
  if x.ctl.getLsbD 0 then
    s' = { a with fns := s'.fns } ∧ (∀ g, g ≠ f → s'.fn g = a.fn g) ∧ s'.fn f = { a.fn f with msix := (s'.fn f).msix }
      ∧ ∀ i, mapGet {} (s'.fn f).msix i = if i = e then { x with pending := true } else mapGet {} (a.fn f).msix i
  else s' = { a with msixSent := a.msixSent ++ [⟨f, e⟩] }

/-- Only function `f` differs. -/
def Sys2Proof.Machine.State.onlyFn (f : FnId) (s s' : State) : Prop := s' = { s with fns := s'.fns } ∧ ∀ g, g ≠ f → s'.fn g = s.fn g

/-- A function after a reset of its own: every register at its reset value; the model's count of its messages goes on. -/
def Sys2Proof.Machine.Fn.atReset (x : Fn) : Fn := { serial := x.serial }

/-- A queue at rest, alone in its partition `p` (R276). -/
def Sys2Proof.Machine.State.restingQueue (s : State) (q : QueueId) (p : PartId) : Prop :=
  s.jobs = [] ∧ s.queues = [(q.val, s.queue q)] ∧ (s.queue q).state = qIdle ∧ (∃ c, (s.queue q).cfg = some c ∧ c.partition = p) ∧
    (s.queue q).cmds = [] ∧ (s.queue q).held = [] ∧ (s.queue q).resumeTo = none ∧ s.queueAlone q

/-- R280 to R285, R298 to R301, R408 to R411, R465: host accesses and resets of the host interface. An access that BAR0 does not
accept reads as all ones, writes nothing, and is logged. BAR2 reads and writes device memory from BAR2_BASE on for the physical
function; beyond its window a read is unsupported and a write is logged. A ring's base and size hold while it is enabled; W1C bits
clear. An unmasked cause sends entry 1, an unmasked pending entry is sent once. A reset of a function returns its registers and
ends its queues. A message that outlives its response time sets its cause, is recorded and starts a module-warm reset. -/
def Obligations.HostRegistersAndResets : Prop :=
  (∀ (s : State) (f : FnId) (write : Bool) (off : BitVec 26) (n : Nat), s.bar0Open = true → accessOk off.toNat n = false →
    ∃ s', exec (.bar0InvalidAccess f write off n) s = .next s' ∧ s.reportsTo s' ∧ s'.flt.nextNo = nextFaultNo s.flt.nextNo
      ∧ (s'.fn f).last = (if write then .none else .data (List.replicate n 0xFF))
      ∧ (∀ pa, f = 0 → s.faultSlot pa → s.faultStands s' pa [(31, 24, 0x01), (47, 32, 0x1003), (55, 48, 0), (95, 64, 0), (207, 192, 0x6000),
          (262, 256, 0x7F), (268, 264, 0x1F), (273, 269, 0x1F), (279, 274, 0x3F), (287, 280, 0), (351, 288, off.toNat), (415, 352, 0), (447, 416, 1)])) ∧
  (∀ (s : State) (off : BitVec 42) (n a o : Nat) (d : DieId), s.bar0Open = true → off.toNat + n ≤ 2 ^ (s.fn 0).bar2Log2.toNat → 1 ≤ n →
    (s.fn 0).bar2Base.toNat + off.toNat = a → s.paKind a = .region d o → o + n ≤ s.reserveBase d → (∀ x, a ≤ x → x < a + n → s.agentFenced x = none) →
    (∀ l ∈ linesOf a n, l ∉ s.poison) →
    ∃ s', exec (.bar2Read 0 off n) s = .next s' ∧ s.onlyFn 0 s' ∧ s'.fn 0 = { s.fn 0 with last := .data (bytesAt s.mem a n) }) ∧
  (∀ (s : State) (f : FnId) (off : BitVec 42) (n : Nat), s.bar0Open = true → 2 ^ (s.fn f).bar2Log2.toNat < off.toNat + n →
    ∃ s', exec (.bar2Read f off n) s = .next s' ∧ s.onlyFn f s' ∧ s'.fn f = { s.fn f with last := .unsupported }) ∧
  (∀ (s : State) (off : BitVec 42) (n a o : Nat) (d : DieId), s.bar0Open = true → off.toNat + n ≤ 2 ^ (s.fn 0).bar2Log2.toNat →
    (s.fn 0).bar2Base.toNat + off.toNat = a → s.paKind a = .region d o → 1 ≤ n → a % 64 + n ≤ 64 → o + n ≤ s.reserveBase d →
    s.agentFenced a = none → a / 64 ∈ s.poison →
    ∃ s' b, exec (.bar2Read 0 off n) s = .next s' ∧ List.length b = n ∧ (s'.fn 0).last = .poisoned b ∧ s'.mem = s.mem ∧ s'.poison = s.poison) ∧
  (∀ (s : State) (off : BitVec 42) (b : Bytes) (a o : Nat) (d : DieId), s.bar0Open = true → off.toNat + b.length ≤ 2 ^ (s.fn 0).bar2Log2.toNat →
    (s.fn 0).bar2Base.toNat + off.toNat = a → s.paKind a = .region d o → 1 ≤ b.length → o + b.length ≤ s.reserveBase d →
    (∀ x, a ≤ x → x < a + b.length → s.agentFenced x = none) → (∀ l ∈ linesOf a b.length, l ∉ s.poison) →
    ∃ s', exec (.bar2Write 0 off b) s = .next s' ∧ s' = { s with mem := s'.mem, poison := s'.poison }
      ∧ ∀ i, byteAt s'.mem i = if a ≤ i ∧ i < a + b.length then b.getD (i - a) 0 else byteAt s.mem i) ∧
  (∀ (s : State) (off : BitVec 42) (b : Bytes), s.bar0Open = true → 2 ^ (s.fn 0).bar2Log2.toNat < off.toNat + b.length →
    ∃ s', exec (.bar2Write 0 off b) s = .next s' ∧ s.reportsTo s' ∧ s'.flt.nextNo = nextFaultNo s.flt.nextNo
      ∧ ((s.fn 0).flt.cfg.getLsbD 8 = false → s'.mem = s.mem ∧ s'.host = s.host)
      ∧ (∀ pa, s.faultSlot pa → s.faultStands s' pa [(31, 24, 0x01), (47, 32, 0x1003), (207, 192, 0x6000), (351, 288, off.toNat)])) ∧
  (∀ (s : State) (f : FnId) (k : RingId) (v : BitVec 64), s.bar0Open = true →
    ∃ s', exec (.ringBaseWrite f k v) s = .next s' ∧ s.onlyFn f s' ∧
      s'.fn f = (match k with
        | .event => { s.fn f with evr := { (s.fn f).evr with base := if (s.fn f).evr.cfg.getLsbD 8 then (s.fn f).evr.base else v } }
        | .fault => { s.fn f with flt := { (s.fn f).flt with base := if (s.fn f).flt.cfg.getLsbD 8 then (s.fn f).flt.base else v } })) ∧
  (∀ (s : State) (f : FnId) (k : RingId) (v : BitVec 64), s.bar0Open = true →
    ∃ s', exec (.ringConsWrite f k v) s = .next s' ∧ s.onlyFn f s' ∧
      s'.fn f = (match k with
        | .event => { s.fn f with evr := { (s.fn f).evr with cons := v.setWidth 32 } }
        | .fault => { s.fn f with flt := { (s.fn f).flt with cons := v.setWidth 32 } })) ∧
  (∀ (s : State) (f : FnId) (k : RingId) (v : BitVec 64), s.bar0Open = true →
    ∃ s', exec (.ringCfgWrite f k v) s = .next s' ∧ s' = { s with fns := s'.fns, xqs := s'.xqs } ∧ (∀ g, g ≠ f → s'.fn g = s.fn g)
      ∧ s'.fn f = (match k with
        | .event => { s.fn f with evr := { (s.fn f).evr with cfg := (s'.fn f).evr.cfg } }
        | .fault => { s.fn f with flt := { (s.fn f).flt with cfg := (s'.fn f).flt.cfg } })
      ∧ (∀ i, (s'.ringOf f k).cfg.getLsbD i =
          if i < 5 then (if (s.ringOf f k).cfg.getLsbD 8 then (s.ringOf f k).cfg.getLsbD i else v.getLsbD i)
          else if i = 8 then v.getLsbD 8
          else if i = 9 ∨ i = 10 then (s.ringOf f k).cfg.getLsbD i && !(v.getLsbD i && decide (i = 9 ∨ f = 0 ∧ k = .event)) else false)
      ∧ ∀ i, s'.xq i = if f = 0 ∧ k = .event ∧ v.getLsbD 11 = true ∧ i < 20 then { s.xq i with overrun := false } else s.xq i) ∧
  (∀ (s : State) (f : FnId) (v : BitVec 64), s.bar0Open = true →
    ∃ s' a : State, exec (.kevMaskWrite f v) s = .next s' ∧ s.onlyFn f a ∧ a.fn f = { s.fn f with kevMask := v.setWidth 16 }
      ∧ ((∃ i, i < 8 ∧ (s.fn f).kevCause.getLsbD i = true ∧ (s.fn f).kevMask.getLsbD i = true ∧ v.getLsbD i = false) → a.raised f 1 s')
      ∧ ((∀ i, i < 8 → (s.fn f).kevCause.getLsbD i = true → (s.fn f).kevMask.getLsbD i = true → v.getLsbD i = true) → s' = a)) ∧
  (∀ (s : State) (f : FnId) (e : BitVec 10), s.bar0Open = true → e.toNat < msixEntries f →
    ∃ s', exec (.msixUnmask f e) s = .next s' ∧ s' = { s with fns := s'.fns, msixSent := s'.msixSent } ∧ (∀ g, g ≠ f → s'.fn g = s.fn g)
      ∧ s'.fn f = { s.fn f with msix := (s'.fn f).msix }
      ∧ (∀ i, mapGet {} (s'.fn f).msix i =
          if i = e.toNat then { mapGet {} (s.fn f).msix i with ctl := 0, pending := false } else mapGet {} (s.fn f).msix i)
      ∧ s'.msixSent = s.msixSent ++ if (mapGet {} (s.fn f).msix e.toNat).pending then [⟨f, e.toNat⟩] else []) ∧
  (∀ (s : State) (f : FnId) (off : BitVec 26) (b : Bytes), s.bar0Open = true → b.length = 8 →
    (off.toNat = 0x100 → ∃ s', exec (.registerWrite f off b) s = .next s' ∧ s.onlyFn f s' ∧ s'.fn f = { s.fn f with bar2Base := (s'.fn f).bar2Base }
      ∧ ∀ i, (s'.fn f).bar2Base.getLsbD i = (decide ((s.fn f).bar2Log2.toNat ≤ i) && (leNat b).testBit i)) ∧
    (off.toNat = 0x12008 → ∃ s', exec (.registerWrite f off b) s = .next s' ∧ s.onlyFn f s'
      ∧ s'.fn f = { s.fn f with dbIgnored := (s.fn f).dbIgnored && !(leNat b).testBit 2 }) ∧
    (off.toNat = 0x1200080 → ∃ s', exec (.registerWrite f off b) s = .next s' ∧ s.onlyFn f s'
      ∧ s'.fn f = { s.fn f with kevCause := (s.fn f).kevCause &&& ~~~(BitVec.ofNat 8 (leNat b)) }) ∧
    (off.toNat = 0x1300010 → ∃ s', exec (.registerWrite f off b) s = .next s'
      ∧ s' = { s with capo := { s.capo with warnSat := s.capo.warnSat && !(decide (f = 0) && (leNat b).testBit 2) } }) ∧
    (∀ e, e < msixEntries f → off.toNat = 0x1100000 + 16 * e → ∃ s', exec (.registerWrite f off b) s = .next s' ∧ s.onlyFn f s'
      ∧ s'.fn f = { s.fn f with msix := (s'.fn f).msix } ∧ ∀ i, mapGet {} (s'.fn f).msix i =
          if i = e then { mapGet {} (s.fn f).msix i with addr := BitVec.ofNat 64 (leNat b) } else mapGet {} (s.fn f).msix i) ∧
    (∀ e, e < msixEntries f → off.toNat = 0x1100000 + 16 * e + 8 → (mapGet {} (s.fn f).msix e).pending = false →
      ∃ s', exec (.registerWrite f off b) s = .next s' ∧ s.onlyFn f s'
      ∧ s'.fn f = { s.fn f with msix := (s'.fn f).msix } ∧ ∀ i, mapGet {} (s'.fn f).msix i =
          if i = e then { mapGet {} (s.fn f).msix i with data := BitVec.ofNat 32 (leNat b), ctl := BitVec.ofNat 32 (leNat b / 2 ^ 32 % 2) }
          else mapGet {} (s.fn f).msix i)) ∧
  (∀ (s : State) (f : FnId) (off : BitVec 26) (b : Bytes), s.bar0Open = true → 1 ≤ b.length → off.toNat % 64 + b.length ≤ 64 →
    0x10000 ≤ off.toNat → off.toNat < 0x11000 →
    ∃ s', exec (.registerWrite f off b) s = .next s' ∧ s.onlyFn f s' ∧ s'.fn f = { s.fn f with req := (s'.fn f).req }
      ∧ ∀ i, byteAt (s'.fn f).req i =
          if (s.fn f).busy = false ∧ off.toNat ≤ 0x10000 + i ∧ 0x10000 + i < off.toNat + b.length then b.getD (0x10000 + i - off.toNat) 0
          else byteAt (s.fn f).req i) ∧
  (∀ s : State, s.bar0Open = true →
    ∃ s', exec .flrPhysicalFunction s = .next s' ∧ (∀ f, s'.fn f = (s.fn f).atReset) ∧ s'.parts = s.parts ∧ s'.mem = s.mem ∧ s'.fab = s.fab
      ∧ (s.jobs = [] → (∀ q, (s.queue q).cfg = none) → s' = { s with fns := s'.fns })
      ∧ ∀ (q : QueueId) (p : PartId), s.restingQueue q p → s'.queue q = { gen := (s.queue q).gen, energy := (s.queue q).energy }) ∧
  (∀ (s : State) (v : PartId), s.bar0Open = true →
    ∃ s', exec (.flrVirtualFunction v) s = .next s' ∧ s'.fn (vfOf v) = (s.fn (vfOf v)).atReset
      ∧ (s.jobs = [] → (∀ q c, (s.queue q).cfg = some c → c.partition ≠ v) → s' = { s with fns := s'.fns } ∧ ∀ g, g ≠ vfOf v → s'.fn g = s.fn g)
      ∧ ∀ q : QueueId, s.restingQueue q v → s'.queue q = { gen := (s.queue q).gen, energy := (s.queue q).energy }) ∧
  (∀ s : State, s.pow.perstN = true → s.pow.mode = .powered → s.boot.running = true →
    ∃ s', exec .perstNAssert s = .next s' ∧ (∀ f, s'.fn f = (s.fn f).atReset) ∧ s'.pow.perstN = false ∧ s'.parts = s.parts ∧ s'.mem = s.mem
      ∧ s'.fab = s.fab ∧ s'.boot.partsInForce = BitVec.ofNat 8 (partsOf (s.licensed 2))
      ∧ ((∀ q, (s.queue q).cfg = none) → s.jobs = [] →
          s' = { s with fns := s'.fns, pow := { s.pow with perstN := false }, boot := { s.boot with partsInForce := s'.boot.partsInForce } })) ∧
  (∀ s : State, exec .perstNDeassert s = .next { s with pow := { s.pow with perstN := true } }) ∧
  (∀ (s : State) (f : FnId), s.boot.running = true → s.pow.mode = .powered → s.flt.warmCause = none → (s.fn f).busy = true →
    (s.fn f).mbStart + (s.fn f).mbBound < s.time →
    ∃ s', exec (.mailboxResponseExpiry f) s = .next s' ∧ (s'.fn f).busy = true ∧ (s'.fn f).done = (s.fn f).done
      ∧ (s'.fn f).kevCause.getLsbD 7 = true ∧ (s'.fn f).resp = (s.fn f).resp
      ∧ s'.flt.warmCause = some ⟨0x9009, s.flt.nextNo, 0x18, false⟩
      ∧ (∀ pa, s.faultSlot pa → s.colls = [] → s.jobs = [] → (∀ d, (s.die d).cache = []) →
          s.faultStands s' pa [(31, 24, 0x03), (47, 32, 0x9009), (207, 192, 0x600B), (287, 280, 0x18)])
      ∧ s'.boot = { s.boot with
          state := 3, running := false, presenceOpen := false, started := s.time, startKind := 0x02
          latchedReason := if s.boot.state = 1 then s.boot.latchedReason else 0x07 })

/-! ## The management sideband and SPDM (R302 to R304, R472, R474) -/

/-- A reply has left the module, and nothing else differs. -/
def Sys2Proof.Machine.State.gave (s : State) (v : SpdmVia) (code : BitVec 16) (b : Bytes) : State :=
  { s with side := { s.side with replies := s.side.replies ++ [⟨v, code, b⟩] } }

/-- The sideband answers (R302). -/
abbrev Sys2Proof.Machine.State.listens (s : State) : Prop := s.pow.mode = .powered ∧ (s.boot.running = true ∨ s.boot.state = 2)

/-- A carrier of SPDM is answered: the sideband outside open-string mode, the mailbox of PCI Express while its link is up, neither
without an identity (R302, R472). -/
abbrev Sys2Proof.Machine.State.attests (s : State) (v : SpdmVia) : Prop :=
  (v = .sideband → s.listens ∧ s.boot.state ≠ 2) ∧ (v = .doe → s.bar0Open = true)
    ∧ ¬ (s.boot.state = 2 ∧ s.boot.reasons.head? = some 0x08)

/-- The measurements of R304 by index. -/
def Sys2Proof.Machine.State.measures (s : State) : List (Nat × BitVec 384) :=
  [(1, Config.bootRomDigest), (2, s.boot.runDigest), (3, Config.sha384 s.licenceBytes), (4, Config.sha384 s.recordBytes),
   (5, Config.sha384 s.sealBytes)]

/-- R302 to R304, R472, R474: the sideband takes its endpoint identifier; PLDM of type 0 is answered, of type 2 outside
open-string mode, each sensor with its reading; the reading of the power state ends the pending event and its alert. SPDM settles
the version, then the algorithms, P-384 with SHA-384 only, before it gives digests, the certificates of slot 0, a challenge's
answer or measurements, signed with the alias key where asked. The codes are the model's (notes/assumptions/68.md); what hash,
chain and signature are is the configuration's (notes/assumptions/13.md). -/
def Obligations.ManagementRequestsAreAnswered : Prop :=
  (∀ (s : State) (e : BitVec 8), s.listens →
    exec (.setEndpointId e) s = .next (State.gave { s with side := { s.side with eid := e } } .sideband 0x01 [e])) ∧
  (∀ (s : State) (x : PldmSensor), s.listens → exec (.pldmRequest 0 x) s = .next (s.gave .sideband 0 [])) ∧
  (∀ (s : State) (y : BitVec 6) (x : PldmSensor), s.listens → y ≠ 0 →
    (s.boot.state = 2 → exec (.pldmRequest y x) s = .next s) ∧
    (s.boot.state ≠ 2 → y ≠ 2 → exec (.pldmRequest y x) s = .next (s.gave .sideband 0x20 []))) ∧
  (∀ s : State, s.listens → s.boot.state ≠ 2 →
    (∀ r ∈ ([(.inputVoltage, natLe s.capo.vin.toNat 2), (.inputCurrent, natLe s.capo.iin.toNat 2), (.inputPower, natLe s.capo.pin.toNat 3),
        (.moduleEnergy, natLe (s.capo.energy / (65536 * 1000000)) 8), (.sagWarning, [if s.capo.sagWarn then 1 else 0]),
        (.tripLatched, [if s.pow.tripLatched = none then 0 else 1]),
        (.sealIntact, [if s.flashCounter 3 = 0 ∧ s.boot.sealClosed = true then 1 else 0])] : List (PldmSensor × Bytes)),
      exec (.pldmRequest 2 r.1) s = .next (s.gave .sideband 0 r.2)) ∧
    (∀ k, exec (.pldmRequest 2 (.stackTemp k)) s = .next (s.gave .sideband 0 (natLe (unsigned 16 (s.stack k).temp) 2))) ∧
    (∀ m : Int, (∃ l, s.logicTemp l = m) → (∀ l, s.logicTemp l ≤ m) →
      exec (.pldmRequest 2 .hottestDie) s = .next (s.gave .sideband 0 (natLe (unsigned 16 m) 2))) ∧
    (∀ m : Int, (∃ k, (s.stack k).temp = m) → (∀ k, (s.stack k).temp ≤ m) →
      exec (.pldmRequest 2 .hottestStack) s = .next (s.gave .sideband 0 (natLe (unsigned 16 m) 2))) ∧
    exec (.pldmRequest 2 .powerState) s =
      .next (State.gave { s with side := { s.side with eventPending := false }, pow := { s.pow with smbAlertN := true } } .sideband 0
        [(s.sharedState s.healthyDies).setWidth 8]) ∧
    exec (.pldmRequest 2 .base) s = .next (s.gave .sideband 0x80 [])) ∧
  (∀ (s : State) (v : SpdmVia), s.attests v →
    ∃ s' a : State, exec (.getVersion v) s = .next s' ∧ s' = a.gave v 0x04 [0x12]
      ∧ a = { s with side := { s.side with versioned := a.side.versioned, negotiated := a.side.negotiated } }
      ∧ (∀ w, w ∈ a.side.versioned ↔ w = v ∨ w ∈ s.side.versioned) ∧ ∀ w, w ∈ a.side.negotiated ↔ w ≠ v ∧ w ∈ s.side.negotiated) ∧
  (∀ (s : State) (v : SpdmVia), s.attests v → v ∈ s.side.versioned →
    exec (.getCapabilities v) s = .next (s.gave v 0x61 (natLe 0x16 4)) ∧
    (∀ e h, e = false ∨ h = false → exec (.negotiateAlgorithms v e h) s = .next (s.gave v 0x7F [0x01])) ∧
    ∃ s' a : State, exec (.negotiateAlgorithms v true true) s = .next s' ∧ s' = a.gave v 0x63 [1, 1]
      ∧ a = { s with side := { s.side with negotiated := a.side.negotiated } }
      ∧ ∀ w, w ∈ a.side.negotiated ↔ w = v ∨ w ∈ s.side.negotiated) ∧
  (∀ (s : State) (v : SpdmVia), s.attests v → v ∈ s.side.negotiated →
    let chain := Config.certificateChain s.boot.aliasFrom
    exec (.getDigests v) s = .next (s.gave v 0x01 (1 :: natLe (Config.sha384 chain).toNat 48)) ∧
    (∀ (o n : BitVec 16), exec (.getCertificate v 0 o n) s = .next
      (if chain.length ≤ o.toNat then s.gave v 0x7F [0x01]
       else s.gave v 0x02 (natLe (min n.toNat (chain.length - o.toNat)) 2 ++ natLe (chain.length - o.toNat - n.toNat) 2
         ++ (chain.drop o.toNat).take n.toNat))) ∧
    (∀ (k : BitVec 4) (o n : BitVec 16), k ≠ 0 → exec (.getCertificate v k o n) s = .next (s.gave v 0x7F [0x01])) ∧
    (∀ b : Bytes, exec (.challenge v 0 b) s = .next (s.gave v 0x03
      (natLe (Config.sha384 chain).toNat 48 ++ b ++ Config.aliasSign s.boot.aliasFrom (natLe (Config.sha384 chain).toNat 48 ++ b)))) ∧
    (∀ (k : BitVec 4) (b : Bytes), k ≠ 0 → exec (.challenge v k b) s = .next (s.gave v 0x7F [0x01])) ∧
    (∀ (i : BitVec 8) (g : Bool) (b l : Bytes),
      (i = 0 ∧ l = [5]) ∨ (∃ m, (i.toNat, m) ∈ s.measures ∧ l = i :: natLe m.toNat 48)
        ∨ (i = 0xFF ∧ l = (s.measures.map fun m => BitVec.ofNat 8 m.1 :: natLe m.2.toNat 48).flatten) →
      exec (.getMeasurements v i g b) s = .next (s.gave v 0x60 (l ++ b ++ if g then Config.aliasSign s.boot.aliasFrom (l ++ b) else []))) ∧
    (∀ (i : BitVec 8) (g : Bool) (b : Bytes), 5 < i.toNat → i ≠ 0xFF → exec (.getMeasurements v i g b) s = .next (s.gave v 0x7F [0x01]))) ∧
  (∀ (s : State) (v : SpdmVia), s.attests v →
    (v ∉ s.side.versioned → exec (.getCapabilities v) s = .next (s.gave v 0x7F [0x04])
      ∧ ∀ e h, exec (.negotiateAlgorithms v e h) s = .next (s.gave v 0x7F [0x04])) ∧
    (v ∉ s.side.negotiated → exec (.getDigests v) s = .next (s.gave v 0x7F [0x04])
      ∧ (∀ k o n, exec (.getCertificate v k o n) s = .next (s.gave v 0x7F [0x04]))
      ∧ (∀ k b, exec (.challenge v k b) s = .next (s.gave v 0x7F [0x04]))
      ∧ ∀ i g b, exec (.getMeasurements v i g b) s = .next (s.gave v 0x7F [0x04])))

/-! ## Ports, links and the timebase (R308 to R314, R318 to R322, R328 to R330, R449, R460) -/

/-- Only port `p` differs. -/
def Sys2Proof.Machine.State.onlyPort (p : PortId) (s s' : State) : Prop :=
  s' = { s with fab := { s.fab with ports := s'.fab.ports } } ∧ ∀ q, q ≠ p → s'.port q = s.port q

/-- Port `p`, which was `x`, has gone down: its flits are dropped, its holds lapse, the modules around are told; the loss of the
timebase's parent is holdover (R310, R312, R330, R449). -/
def Sys2Proof.Machine.State.lost (s : State) (p : PortId) (x : Port) (s' : State) : Prop :=
  s' = { s with
      fab := { s.fab with ports := s'.fab.ports, out := s.fab.out ++ [.mgmt none (.portState s.fab.modId (BitVec.ofNat 6 p.val) false)] }
      tb := if s.tb.parent = some p ∧ s.tb.state ≠ 2 then
        { s.tb with state := 3, parent := none, parentGood := false, goodSince := none } else s.tb }
    ∧ (∀ q, q ≠ p → s'.port q = s.port q)
    ∧ s'.port p = { x with
        state := 4, inRoutes := false, txAck := x.txSeq, nackPending := false, replays := 0, spent := [], queued := []
        peerValid := false, holds := [], attemptAt := s.time
        downs := if x.state = 2 ∨ x.state = 3 then BitVec.ofNat 16 (min (x.downs.toNat + 1) 0xFFFF) else x.downs }

/-- Whether lane pair `l` passes at a training whose test it passed or not: a lane marked failed never does, and a retraining keeps
what was unfit out (R309, R313). -/
def Sys2Proof.Machine.State.lanePasses (s : State) (p : PortId) (pass : BitVec 9) (l : Nat) : Bool :=
  pass.getLsbD l && !s.laneFailed p l && !((s.port p).state = 7 && (s.port p).failedLanes.getLsbD l)

/-- The lane pairs that pass. -/
def Sys2Proof.Machine.State.lanesUp (s : State) (p : PortId) (pass : BitVec 9) : Nat := ((List.range 9).filter (s.lanePasses p pass)).length

/-- A port that carries flits (R309, R328). -/
abbrev Sys2Proof.Machine.State.linked (s : State) (p : PortId) : Prop := s.pow.mode = .powered ∧ ((s.port p).state = 2 ∨ (s.port p).state = 3)

/-- R309 to R313, R322, R460: a port comes up ×8 with 8 or 9 lane pairs, ×4 with 4 to 7, else it is down; a start's outcome counts
towards marking it; it begins again 500 ms later. An unfit lane moves to the spare, else the port retrains, else it goes down; so
it does at the loss of its signal. A bad codeword is dropped and nacked; a good flit in sequence is taken; an acknowledgement ends
replays, a sixteenth replay takes the port down; returned credits let flits go. -/
def Obligations.PortsTrainAndCarryCodewords : Prop :=
  (∀ (s : State) (p : PortId) (pass : BitVec 9), s.pow.mode = .powered → (s.port p).state = 1 → s.boot.state = 1 ∨ s.boot.state = 2 →
    ∃ s', exec (.portTrained p pass) s = .next s' ∧ s.onlyPort p { s' with fab := { s'.fab with out := s.fab.out } }
      ∧ s'.port p = { s.port p with
          state := if 8 ≤ s.lanesUp p pass then 2 else if 4 ≤ s.lanesUp p pass then 3 else 4
          failedLanes := (s'.port p).failedLanes, attemptAt := s.time
          spareUsed := decide (s.lanesUp p pass = 8) && s.lanePasses p pass 8 }
      ∧ (∀ l, l < 9 → (s'.port p).failedLanes.getLsbD l = !s.lanePasses p pass l)
      ∧ s'.fab.out = s.fab.out ++ if s.lanesUp p pass < 4 then [] else
          [.mgmt (some p) (.peerCheck s.fab.modId (BitVec.ofNat 6 p.val)), .mgmt none (.portState s.fab.modId (BitVec.ofNat 6 p.val) true)]) ∧
  (∀ (s : State) (p : PortId) (pass : BitVec 9), s.pow.mode = .powered → (s.port p).state = 1 → s.boot.state = 0 ∨ s.boot.state = 3 →
    (s.port p).attemptAt < s.boot.started + 500000000 → (s.port p).downStarts < 2 → (∀ l, mapGet 0 (s.port p).laneFails l < 2) →
    ∃ s', exec (.portTrained p pass) s = .next s' ∧ s'.boot = s.boot
      ∧ (s'.port p).downStarts = (if s.lanesUp p pass < 4 then (s.port p).downStarts + 1 else 0)
      ∧ (∀ l, l < 9 → mapGet 0 (s'.port p).laneFails l = if s.lanePasses p pass l then 0 else mapGet 0 (s.port p).laneFails l + 1)
      ∧ (s'.port p).state = if 8 ≤ s.lanesUp p pass then 2 else if 4 ≤ s.lanesUp p pass then 3 else 4) ∧
  (∀ (s : State) (p : PortId) (pass : BitVec 9), s.pow.mode = .powered → (s.port p).state = 7 →
    ∃ s', exec (.portTrained p pass) s = .next s' ∧ (s'.port p).state = if 4 ≤ s.lanesUp p pass then 3 else 4) ∧
  (∀ (s : State) (p : PortId), s.pow.mode = .powered → (s.port p).state = 4 → s.licensedPort p = true → s.portFailed p = false →
    (s.port p).attemptAt + 500000000 ≤ s.time →
    ∃ s', exec (.portRetrainAttempt p) s = .next s' ∧ s.onlyPort p s'
      ∧ s'.port p = { s.port p with
          state := 1, inRoutes := false, rxSeq := 0, txSeq := 0, txAck := 0, nackPending := false, replays := 0, spent := [], queued := []
          attemptAt := s.time }) ∧
  (∀ (s : State) (p : PortId) (l : LaneId) (re : Bool), (s.port p).failedLanes.getLsbD l.val = false → (s.port p).state = 2 →
    (s.port p).spareUsed = false → (s.port p).failedLanes.getLsbD 8 = false →
    ∃ s', exec (.laneUnfit p l re) s = .next s' ∧ State.reportsTo { s with fab := { s.fab with ports := s'.fab.ports } } s'
      ∧ (∀ q, q ≠ p → s'.port q = s.port q)
      ∧ s'.port p = { s.port p with failedLanes := (s'.port p).failedLanes, spareUsed := l.val ≠ 8 }
      ∧ (∀ i, (s'.port p).failedLanes.getLsbD i = ((s.port p).failedLanes.getLsbD i || decide (i = l.val)))
      ∧ ((mapGet 0 s.tel.err (65536 * 2 + 0x4000 + p.val)).toNat < 0xFFFFFFFE →
          (mapGet 0 s'.tel.err (65536 * 2 + 0x4000 + p.val)).toNat = (mapGet 0 s.tel.err (65536 * 2 + 0x4000 + p.val)).toNat + 1)) ∧
  (∀ (s : State) (p : PortId) (l : LaneId), (s.port p).failedLanes.getLsbD l.val = false → (s.port p).state = 2 →
    (s.port p).spareUsed = true ∨ (s.port p).failedLanes.getLsbD 8 = true →
    ∃ s', exec (.laneUnfit p l true) s = .next s' ∧ s.onlyPort p s'
      ∧ s'.port p = { s.port p with state := 7, failedLanes := (s.port p).failedLanes ||| BitVec.ofNat 9 (2 ^ l.val) }) ∧
  (∀ (s : State) (p : PortId) (l : LaneId) (re : Bool), (s.port p).failedLanes.getLsbD l.val = false →
    (s.port p).state = 3 ∨ (s.port p).state = 2 ∧ ((s.port p).spareUsed = true ∨ (s.port p).failedLanes.getLsbD 8 = true) ∧ re = false →
    ∃ s', exec (.laneUnfit p l re) s = .next s'
      ∧ s.lost p { s.port p with failedLanes := (s.port p).failedLanes ||| BitVec.ofNat 9 (2 ^ l.val) } s') ∧
  (∀ (s : State) (p : PortId), (s.port p).state = 2 ∨ (s.port p).state = 3 ∨ (s.port p).state = 5 ∨ (s.port p).state = 7 →
    ∃ s', exec (.lossOfSignal p) s = .next s' ∧ s.lost p (s.port p) s') ∧
  (∀ (s : State) (p : PortId) (c : Codeword), s.linked p → 4 < c.badSymbols ∨ c.crcOk = false →
    ∃ s', exec (.codewordReceive p c) s = .next s' ∧ s.onlyPort p { s' with fab := { s'.fab with out := s.fab.out } }
      ∧ s'.port p = { s.port p with nackPending := true } ∧ s'.fab.out = s.fab.out ++ [.linkTrailer p (s.port p).rxSeq true none none]) ∧
  (∀ (s : State) (p : PortId) (c : Codeword), s.linked p → c.badSymbols ≤ 4 → c.crcOk = true → c.nack = false → c.credits = 0 →
    ∃ s', exec (.codewordReceive p c) s = .next s'
      ∧ State.reportsTo { s with fab := { s.fab with ports := s'.fab.ports, out := s'.fab.out } } s' ∧ (∀ q, q ≠ p → s'.port q = s.port q)
      ∧ (let fits := c.vc.toNat ≤ 4 ∧ c.fseq = (s.port p).rxSeq
         let moved := c.aseq ≠ (s.port p).txAck ∧ (c.aseq - (s.port p).txAck).toNat ≤ ((s.port p).txSeq - (s.port p).txAck).toNat
         s'.port p = { s.port p with
             rxSeq := if fits then (s.port p).rxSeq + 1 else (s.port p).rxSeq
             nackPending := if fits then false else (s.port p).nackPending
             txAck := if moved then c.aseq else (s.port p).txAck, replays := if moved then 0 else (s.port p).replays }
           ∧ s'.fab.out = s.fab.out ++ if fits then [.linkTrailer p ((s.port p).rxSeq + 1) false (some (c.vc, c.cls)) none] else [])) ∧
  (∀ (s : State) (p : PortId) (c : Codeword), s.linked p → c.badSymbols = 0 → c.crcOk = true → c.nack = true → 4 < c.vc.toNat → c.credits = 0 →
    c.aseq = (s.port p).txAck →
    ((s.port p).replays + 1 < 16 → ∃ s', exec (.codewordReceive p c) s = .next s'
      ∧ State.reportsTo { s with fab := { s.fab with ports := s'.fab.ports, out := s'.fab.out } } s' ∧ (∀ q, q ≠ p → s'.port q = s.port q)
      ∧ s'.port p = { s.port p with replays := (s.port p).replays + 1 }
      ∧ s'.fab.out = s.fab.out ++ [.linkTrailer p (s.port p).rxSeq (s.port p).nackPending none (some c.aseq)]) ∧
    (16 ≤ (s.port p).replays + 1 → ∃ s', exec (.codewordReceive p c) s = .next s' ∧ s.lost p (s.port p) s')) ∧
  (∀ (s : State) (p : PortId) (c : Codeword), s.linked p → c.badSymbols = 0 → c.crcOk = true → c.nack = false → 4 < c.vc.toNat →
    c.aseq = (s.port p).txAck → c.cvc.toNat ≤ 4 →
    ∃ s', exec (.codewordReceive p c) s = .next s' ∧ State.reportsTo { s with fab := { s.fab with ports := s'.fab.ports } } s'
      ∧ (∀ q, q ≠ p → s'.port q = s.port q) ∧
      let key := 2 * c.cvc.toNat + if c.ccls then 1 else 0
      let left := mapGet 0 (s.port p).spent key - c.credits.toNat
      let n := if c.credits = 0 then 0 else min (mapGet 0 (s.port p).queued key) (vcBuffer c.cvc.toNat - left)
      (∀ i, mapGet 0 (s'.port p).spent i = if i = key then left + n else mapGet 0 (s.port p).spent i)
        ∧ (∀ i, mapGet 0 (s'.port p).queued i = if i = key then mapGet 0 (s.port p).queued i - n else mapGet 0 (s.port p).queued i)
        ∧ s'.port p = { s.port p with
            spent := (s'.port p).spent, queued := (s'.port p).queued, txSeq := (s.port p).txSeq + BitVec.ofNat 12 n })

/-- Firmware takes the management channel's packets of port `p` (R322). -/
abbrev Sys2Proof.Machine.State.managed (s : State) (p : PortId) : Prop :=
  s.pow.mode = .powered ∧ s.boot.running = true ∧ s.boot.state ≠ 2 ∧ ((s.port p).state = 2 ∨ (s.port p).state = 3 ∨ (s.port p).state = 5)

/-- R318 to R322, R329, R330, R449: the management channel, the routing table and the timebase. A peer's check puts its port in
routes, or makes it miswired with a record; port states, holds, releases and the name of the root are kept. A table gives each
module of the plan its direction by dimension order, or the detour, where a port serves it; 6 to this module, 7 to the rest. A
follower more than 1 µs behind steps to its parent's time, one as far ahead holds still, another slews; its offset within 0.25 ns
for 1 ms under a good parent aligns it. A hold not renewed for 50 ms lapses; this module renews its own. -/
def Obligations.RoutesHoldsAndTimeAreKept : Prop :=
  (∀ (s : State) (p : PortId) (id : BitVec 14) (n : BitVec 6) (w : Plan), s.managed p → s.fab.plan = some w → w.connected.getLsbD p.val = true →
    (id = s.neighbour w (p.val % 6) ∧ n.toNat = p.val + 1 - 2 * (p.val % 2) →
      ∃ s', exec (.managementPacket p (.peerCheck id n)) s = .next s' ∧ s.onlyPort p s'
        ∧ s'.port p = { s.port p with peer := id, peerPort := n, peerValid := true, inRoutes := true, state := (s'.port p).state }
        ∧ ((s.port p).state ≠ 5 → (s'.port p).state = (s.port p).state) ∧ ((s.port p).state = 5 → (s'.port p).state = 2 ∨ (s'.port p).state = 3)) ∧
    (id ≠ s.neighbour w (p.val % 6) ∨ n.toNat ≠ p.val + 1 - 2 * (p.val % 2) → (s.port p).state ≠ 5 →
      ∃ s', exec (.managementPacket p (.peerCheck id n)) s = .next s' ∧ State.reportsTo { s with fab := { s.fab with ports := s'.fab.ports } } s'
        ∧ (∀ q, q ≠ p → s'.port q = s.port q) ∧ s'.port p = { s.port p with peer := id, peerPort := n, peerValid := true, inRoutes := false, state := 5 }
        ∧ ∀ pa, s.faultSlot pa → s.faultStands s' pa [(31, 24, 0x08), (47, 32, 0x5001), (207, 192, 0x4000 + p.val), (279, 274, p.val), (351, 288, id.toNat)])) ∧
  (∀ (s : State) (p : PortId) (id : BitVec 14) (n : BitVec 6) (up : Bool), s.managed p →
    ∃ s', exec (.managementPacket p (.portState id n up)) s = .next s' ∧ s' = { s with fab := { s.fab with peersUp := s'.fab.peersUp } }
      ∧ ∀ e, e ∈ s'.fab.peersUp ↔ e = (id, n, up) ∨ e ∈ s.fab.peersUp ∧ (e.1, e.2.1) ≠ (id, n)) ∧
  (∀ (s : State) (p q : PortId) (id : BitVec 14), s.managed p →
    (∃ s', exec (.managementPacket p (.hold id q)) s = .next s' ∧ s.onlyPort q s' ∧ s'.port q = { s.port q with holds := (s'.port q).holds }
      ∧ ∀ h, h ∈ (s'.port q).holds ↔ h = ⟨id, s.time⟩ ∨ h ∈ (s.port q).holds ∧ h.peer ≠ id) ∧
    (∃ s', exec (.managementPacket p (.release id q)) s = .next s' ∧ s.onlyPort q s' ∧ s'.port q = { s.port q with holds := (s'.port q).holds }
      ∧ ∀ h, h ∈ (s'.port q).holds ↔ h ∈ (s.port q).holds ∧ h.peer ≠ id)) ∧
  (∀ (s : State) (p : PortId) (id : BitVec 14), s.managed p → id ≠ s.fab.modId → s.fab.plan ≠ none →
    ∃ s', exec (.managementPacket p (.becomeRoot id)) s = .next s' ∧ s' = { s with tb := s'.tb } ∧ s'.tb.named = some id
      ∧ s'.tb.value = s.tb.value
      ∧ (s.parentPort id = none → s'.tb.state = 3 ∧ s'.tb.root = id ∧ s'.tb.parent = none)
      ∧ (∀ q, s.parentPort id = some q → s.tb.parent ≠ some q ∨ s.tb.root ≠ id →
          s'.tb.root = id ∧ s'.tb.parent = some q ∧ s'.tb.parentGood = false ∧ s'.tb.state = if s.tb.state = 3 then 3 else 0)) ∧
  (∀ (s : State) (p : PortId) (peer : BitVec 14),
    ∃ s', exec (.holdLapse p peer) s = .next s' ∧ s.onlyPort p s' ∧ s'.port p = { s.port p with holds := (s'.port p).holds }
      ∧ ∀ h, h ∈ (s'.port p).holds ↔ h ∈ (s.port p).holds ∧ (h.peer = peer → s.time < h.renewed + 50000000)) ∧
  (∀ s : State, s.pow.mode = .powered →
    ∃ s' l, exec .holdRenewal s = .next s' ∧ s' = { s with fab := { s.fab with out := s.fab.out ++ l } }
      ∧ (∀ k ∈ s.colls, ∀ m ∈ k.neighbours, ∀ o, s.outPort none m = .ok o → Sent.mgmt (some o) (.hold s.fab.modId (otherEnd o)) ∈ l)
      ∧ (∀ r, s.partPaired r = true → ∀ o, s.outPort none (s.part r).ls.peer = .ok o → Sent.mgmt (some o) (.hold s.fab.modId (otherEnd o)) ∈ l)
      ∧ ∀ x ∈ l, ∃ o, x = .mgmt (some o) (.hold s.fab.modId (otherEnd o))) ∧
  (∀ (s : State) (ds : List (BitVec 14 × BitVec 3)) (w : Plan), s.pow.mode = .powered → s.boot.running = true → s.boot.state ≠ 2 →
    s.fab.plan = some w → s.colls = [] → (∀ i, (s.port i).state = 5 → (s.port i).inRoutes = false) →
    ∃ s', exec (.routingTableLoad ds) s = .next s' ∧ State.reportsTo { s with fab := { s.fab with ports := s'.fab.ports, table := s'.fab.table }, tb := s'.tb } s'
      ∧ (∀ i, (s'.port i).inRoutes = (decide ((s.port i).state = 2 ∨ (s.port i).state = 3 ∨ (s.port i).state = 5) && (s.port i).peerValid
          && w.connected.getLsbD i.val && s.peerFits w i))
      ∧ (∀ m ∈ w.modules, s'.routeOf m =
          if m = s.fab.modId then 6
          else
            let dir := match ds.find? (fun e => e.1 = m) with | some e => e.2.toNat | none => dimensionOrder w s.fab.modId m
            if dir < 6 ∧ s'.eligible dir ≠ [] then dir else 7)
      ∧ (∀ m, m ∉ w.modules → s'.routeOf m = 7)
      ∧ ∀ i, (s'.port i).holds = (s.port i).holds.filter fun h => s'.routeOf h.peer ≠ 7) ∧
  (∀ (s : State) (p : PortId) (v : TimeFlit), s.linked p → s.tb.parent = some p →
    ∃ s', exec (.timeFlit p v) s = .next s' ∧ s' = { s with tb := s'.tb } ∧ s'.tb.parentGood = v.parentGood ∧ s.tb.value.toNat ≤ s'.tb.value.toNat
      ∧ (-32768 ≤ v.offsetPs → v.offsetPs ≤ 32767 → s'.tb.offset.toInt = v.offsetPs)
      ∧ s'.tb.goodSince = (if -250 ≤ v.offsetPs ∧ v.offsetPs ≤ 250 then (match s.tb.goodSince with | some g => some g | none => some s.time) else none)
      ∧ (s.tb.value.toNat + 1000 < v.parentTime.toNat → s'.tb.value = v.parentTime ∧ s'.tb.ratePpm = 0 ∧ s'.tb.holdUntil = none)
      ∧ (v.parentTime.toNat + 1000 < s.tb.value.toNat → s'.tb.value = s.tb.value
          ∧ s'.tb.holdUntil = some (s.time + (s.tb.value.toNat - v.parentTime.toNat)))
      ∧ (s.tb.value.toNat ≤ v.parentTime.toNat + 1000 → v.parentTime.toNat ≤ s.tb.value.toNat + 1000 → s'.tb.value = s.tb.value
          ∧ s'.tb.holdUntil = none ∧ s'.tb.ratePpm = max (-200) (min 200 v.offsetPs))
      ∧ (s.tb.state = 1 → (v.parentGood = false ∨ v.offsetPs < -250 ∨ 250 < v.offsetPs) → s'.tb.state = 0)) ∧
  (∀ s : State, s.tb.state ≠ 2 → s.tb.parent ≠ none → s.tb.parentGood = true → (∃ g, s.tb.goodSince = some g ∧ g + 1000000 ≤ s.time) →
    exec .timebaseAligned s = .next { s with tb := { s.tb with state := 1 } })

/-! ## Packets (R214, R315 to R318, R320, R323, R324, R332) -/

/-- One packet that `f` describes has left for `dst`: by a port, or none where it is for this module itself; where no port takes
it, nothing has left (R316, R318, R320). -/
def Sys2Proof.Machine.State.sent (s s' : State) (dst : BitVec 14) (f : Packet → Prop) : Prop :=
  (∃ i k, s'.fab.out = s.fab.out ++ [.packet i k] ∧ k.dst = dst ∧ f k ∧ (i = none ↔ dst = s.fab.modId)) ∨
    (dst ≠ s.fab.modId ∧ s'.fab.out = s.fab.out ∧ ∃ r, s.outPort none dst = .error r)

/-- The answer of a type to packet `k` has left, with this in its addr (R317). -/
def Sys2Proof.Machine.State.answered1 (s s' : State) (k : Packet) (type : BitVec 5) (addr : BitVec 46) (b : Bytes) : Prop :=
  s.sent s' k.src fun a => a.type = type ∧ a.src = s.fab.modId ∧ a.vc = 1 ∧ a.seq = k.seq ∧ a.tag = k.tag ∧ a.addr = addr ∧ a.data = b
    ∧ a.len.toNat = b.length ∧ a.crc = packetCrc a

/-- A packet arrives whole, at a module that is ready, in a window where its number is new; `w` is that window (R316). -/
abbrev Sys2Proof.Machine.State.fresh1 (s : State) (k : Packet) (w : RxWin) : Prop :=
  s.pow.mode = .powered ∧ k.dst = s.fab.modId ∧ s.boot.state = 1 ∧ packetCrc k = k.crc ∧ s.rxWin? k.src k.vc = some w
    ∧ (k.seq - w.low).toNat < 1024 ∧ k.seq ∉ w.got

/-- The window has the number, and only that number, besides what it had. -/
def Sys2Proof.Machine.State.noted (s' : State) (k : Packet) (w : RxWin) : Prop :=
  ∃ v, s'.rxWin? k.src k.vc = some v ∧ ∀ n : BitVec 24, (n - w.low).toNat < 2 ^ 22 →
    ((2 ^ 23 ≤ (n - v.low).toNat ∨ n ∈ v.got) ↔ (n = k.seq ∨ n ∈ w.got))

/-- An answer arrives whole, for packet `u` of window `w` of this module. -/
abbrev Sys2Proof.Machine.State.answers1 (s : State) (k : Packet) (type : BitVec 5) (w : TxWin) (u : Unacked) : Prop :=
  s.pow.mode = .powered ∧ k.type = type ∧ k.dst = s.fab.modId ∧ packetCrc k = k.crc ∧ s.fab.tx = [w] ∧ w.dst = k.src ∧ w.vc = tagVc k.tag
    ∧ w.unacked = [u] ∧ w.waiting = [] ∧ u.pkt.tag = k.tag ∧ u.pkt.seq = k.seq ∧ u.pkt.dst = w.dst ∧ u.pkt.vc = w.vc

/-- The descriptor that a packet serves: the only one of its tile, all its segments begun, of a dma command that alone is in flight
in its queue (R186). -/
abbrev Sys2Proof.Machine.State.servesOp (s : State) (u : Unacked) (r : SegRef) (o : DmaOp) (c : CmdId) (x : Cmd) : Prop :=
  u.seg = some r ∧ (s.tile r.tile).dma.ops = [o] ∧ o.serial = r.serial ∧ o.segs = o.next ∧ o.segs ≠ 0 ∧ o.cmd = some c
    ∧ (s.queue c.queue).cmds = [x] ∧ x.id = c.id ∧ x.stage = .begun ∧ x.depth = 0 ∧ x.opcode = 3 ∧ (s.queue c.queue).state ≠ qDestroying
    ∧ s.colls = []

/-- Its command has ended with a status. -/
def Sys2Proof.Machine.State.endsWith (s' : State) (c : CmdId) (st : BitVec 16) : Prop :=
  ∃ y, s'.cmd? c = some y ∧ y.status = st ∧ y.stage = .worked

/-- R214, R315 to R318, R320, R323, R324, R332: packets. One that passes through loses a hop and leaves by the table's port, or is
refused. A new write for an arrival counter's partition, to a line it may be written in, is stored, counted and acknowledged; a
duplicate is only acknowledged. A read is answered with its bytes. An acknowledgement ends its packet, read data fills its
segment, a refusal acts by its reason. An unanswered packet is sent again at intervals that double; at 30 ms it is abandoned, its
descriptor fails and its window resynchronises 2^20 on. A resynchronisation gives a new window and is answered; its answer lets
the window go on, and it is repeated every 10 ms. -/
def Obligations.PacketsAreDeliveredOnce : Prop :=
  (∀ (s : State) (p o : PortId) (k : Packet), s.pow.mode = .powered → s.boot.state ≠ 2 → (s.port p).state = 2 ∨ (s.port p).state = 3 → k.dst ≠ s.fab.modId →
    typeKnown k.type = true → 1 < k.ttl.toNat → s.outPort (some p) k.dst = .ok o →
    ∃ s', exec (.routeThrough p k) s = .next s' ∧ s.sends s' ∧ (∀ q, q ≠ o → s'.port q = s.port q)
      ∧ s'.fab.out = s.fab.out ++ [.packet (some o) { k with ttl := k.ttl - 1, cls := s.classOn (some p) o k.cls }]) ∧
  (∀ (s : State) (p : PortId) (k : Packet) (e : BitVec 8), s.pow.mode = .powered → s.boot.state ≠ 2 → (s.port p).state = 2 ∨ (s.port p).state = 3 →
    k.dst ≠ s.fab.modId → typeKnown k.type = true → (k.ttl.toNat ≤ 1 ∧ e = 0x07) ∨ (1 < k.ttl.toNat ∧ s.outPort (some p) k.dst = .error e) →
    ∃ s', exec (.routeThrough p k) s = .next s' ∧ s.sends s' ∧
      if k.vc = 0 ∨ k.vc = 2 then s.answered1 s' k 0x04 (e.setWidth 46) [] else s'.fab.out = s.fab.out) ∧
  (∀ (s : State) (k : Packet) (w : RxWin) (j : StackId) (c : BitVec 12) (p : PartId) (x : Xlat) (d : DieId) (o : Nat), s.fresh1 k w → k.type = 0x00 →
    k.ctrValid = true → k.ctr.toNat = 4096 * j.val + c.toNat → s.stackPart j = some p → s.stackFenced j = false → 1 ≤ k.data.length →
    k.addr.toNat % 64 + k.data.length ≤ 64 → s.translateWrite p k.addr.toNat = .ok x → x.remote = true → s.paKind x.pa = .region d o →
    o + k.data.length ≤ s.regionSize d → s.stackFenced (s.stackOf d o) = false → s.agentFenced x.pa = none → x.pa % 64 = k.addr.toNat % 64 →
    x.pa / 64 ∉ s.poison →
    ∃ s', exec (.writePacket k) s = .next s' ∧ s'.noted k w ∧ s.answered1 s' k 0x01 0 []
      ∧ State.sends { s with mem := s'.mem, poison := s'.poison, ctrs := s'.ctrs, ctrWaits := s'.ctrWaits } s'
      ∧ (s.tel.trace.ovfEvent = false → (∀ i, byteAt s'.mem i = if x.pa ≤ i ∧ i < x.pa + k.data.length then k.data.getD (i - x.pa) 0 else byteAt s.mem i)
          ∧ (∀ m b, s'.ctr m b = if m = j ∧ b = c then s.ctr j c + BitVec.ofNat 48 k.data.length else s.ctr m b))) ∧
  (∀ (s : State) (k : Packet) (w : RxWin), s.fresh1 k w → k.type = 0x00 → k.ctrValid = false →
    ∃ s', exec (.writePacket k) s = .next s' ∧ s.answered1 s' k 0x04 0x04 [] ∧ s'.ctrs = s.ctrs ∧ (s.tel.trace.ovfEvent = false → s'.mem = s.mem)) ∧
  (∀ (s : State) (k : Packet) (w : RxWin), s.pow.mode = .powered → k.dst = s.fab.modId → s.boot.state = 1 → packetCrc k = k.crc →
    s.rxWin? k.src k.vc = some w → 2 ^ 23 ≤ (k.seq - w.low).toNat ∨ k.seq ∈ w.got → k.type = 0x00 →
    ∃ s', exec (.writePacket k) s = .next s' ∧ s.answered1 s' k 0x01 0 [] ∧ s'.ctrs = s.ctrs ∧ s'.fab.rx = s.fab.rx
      ∧ (s.tel.trace.ovfEvent = false → s'.mem = s.mem)) ∧
  (∀ (s : State) (k : Packet) (w : RxWin) (x : Xlat) (d : DieId) (o : Nat), s.fresh1 k w → k.type = 0x02 →
    (s.part (PartId.ofNat k.srcPart.toNat)).exists_ = true → 1 ≤ k.len.toNat → k.addr.toNat % 64 + k.len.toNat ≤ 64 →
    s.translate (PartId.ofNat k.srcPart.toNat) k.addr.toNat = .ok x → s.paKind x.pa = .region d o → o + k.len.toNat ≤ s.regionSize d →
    s.stackFenced (s.stackOf d o) = false → s.agentFenced x.pa = none → x.pa % 64 = k.addr.toNat % 64 → x.pa / 64 ∉ s.poison →
    ∃ s', exec (.readRequest k) s = .next s' ∧ s'.noted k w ∧ s.answered1 s' k 0x03 k.addr (bytesAt s.mem x.pa k.len.toNat) ∧ s.sends s') ∧
  (∀ (s : State) (k : Packet) (w : RxWin), s.fresh1 k w → k.type = 0x02 → (s.part (PartId.ofNat k.srcPart.toNat)).exists_ = false →
    ∃ s', exec (.readRequest k) s = .next s' ∧ s.answered1 s' k 0x04 0x04 [] ∧ s.sends s') ∧
  (∀ (s : State) (k : Packet) (w : TxWin) (u : Unacked), s.answers1 k 0x01 w u → u.pkt.type ≠ 0x02 →
    (u.seg = none → exec (.writeAcknowledgement k) s = .next { s with fab := { s.fab with tx := [{ w with unacked := [] }] } }) ∧
    (∀ (r : SegRef) (o : DmaOp) (c : CmdId) (x : Cmd), s.servesOp u r o c x → o.sent = [r.seg] → mapGet 0 o.due r.seg = 1 → o.desc.tdescDst = 0 →
      x.descs = 1 → x.flags = 0 → x.holds = [] →
      ∃ s', exec (.writeAcknowledgement k) s = .next s' ∧ s'.fab = { s.fab with tx := [{ w with unacked := [] }] } ∧ (s'.tile r.tile).dma.ops = []
        ∧ s'.endsWith c 0) ∧
    (∀ (r : SegRef) (o : DmaOp) (c : CmdId) (x : Cmd), s.servesOp u r o c x → 1 < mapGet 0 o.due r.seg →
      ∃ s', exec (.writeAcknowledgement k) s = .next s' ∧ s' = { s with fab := { s.fab with tx := [{ w with unacked := [] }] }, tiles := s'.tiles }
        ∧ (s'.tile r.tile).dma.ops = [{ o with due := mapPut 0 o.due r.seg (mapGet 0 o.due r.seg - 1) }])) ∧
  (∀ (s : State) (k : Packet) (w : TxWin) (u : Unacked) (r : SegRef) (o : DmaOp) (c : CmdId) (x : Cmd), s.answers1 k 0x03 w u → s.servesOp u r o c x →
    1 < mapGet 0 o.due r.seg →
    ∃ s' e, exec (.readData k) s = .next s' ∧ s' = { s with fab := { s.fab with tx := s'.fab.tx }, tiles := s'.tiles } ∧ (s'.tile r.tile).dma.ops = [e]
      ∧ e = { o with got := e.got, due := e.due }
      ∧ (∀ i, byteAt e.got (2 ^ 25 * r.seg + i) =
          let at_ := r.off + (k.addr - u.pkt.addr).toNat
          if at_ ≤ i ∧ i < at_ + k.data.length then k.data.getD (i - at_) 0 else byteAt o.got (2 ^ 25 * r.seg + i))
      ∧ if k.data.length < u.left then e.due = o.due ∧ s'.fab.tx = [{ w with unacked := [{ u with left := u.left - k.data.length }] }]
        else e.due = mapPut 0 o.due r.seg (mapGet 0 o.due r.seg - 1) ∧ s'.fab.tx = [{ w with unacked := [] }]) ∧
  (∀ r ∈ ([(0x01, 0x5001), (0x03, 0x2008), (0x04, 0x2008), (0x09, 0x900D)] : List (BitVec 46 × BitVec 16)),
    ∀ (s : State) (k : Packet) (w : TxWin) (u : Unacked), s.answers1 k 0x04 w u → k.addr = r.1 →
    (u.seg = none → s.colls = [] → exec (.refusal k) s = .next { s with fab := { s.fab with tx := [{ w with unacked := [] }] } }) ∧
    (∀ (g : SegRef) (o : DmaOp) (c : CmdId) (x : Cmd), s.servesOp u g o c x →
      ∃ s', exec (.refusal k) s = .next s' ∧ s'.fab = { s.fab with tx := [{ w with unacked := [] }] } ∧ (s'.tile g.tile).dma.ops = []
        ∧ s'.endsWith c r.2)) ∧
  (∀ r ∈ ([0x02, 0x05] : List (BitVec 46)), ∀ (s : State) (k : Packet) (w : TxWin) (u : Unacked), s.answers1 k 0x04 w u → k.addr = r →
    exec (.refusal k) s = .next s) ∧
  (∀ (s : State) (k : Packet) (w : TxWin) (u : Unacked), s.answers1 k 0x04 w u → k.addr = 0x0A → w.resync = none →
    exec (.refusal k) s = .next { s with fab := { s.fab with
      tx := [{ w with resync := some (u.pkt.seq, s.time) }], out := s.fab.out ++ [.resync w.dst w.vc u.pkt.seq] } }) ∧
  (∀ (s : State) (w : TxWin) (u : Unacked), s.fab.tx = [w] → w.unacked = [u] → u.pkt.dst = w.dst → u.pkt.vc = w.vc → w.resync = none →
    u.lastSent + u.interval ≤ s.time → s.time < u.firstSent + 30000000 → w.dst = s.fab.modId ∨ s.routeOf w.dst ≠ 7 → u.pkt.type ≠ ptCollData →
    ∃ s', exec (.retransmissionTimer w.dst w.vc u.pkt.seq) s = .next s' ∧ s.sends s'
      ∧ (let v := { u.pkt with tries := if u.pkt.tries = 3 then 3 else u.pkt.tries + 1 }
         s'.fab.tx = [{ w with unacked := [{ u with pkt := v, lastSent := s.time, interval := 2 * u.interval }] }]
           ∧ s.sent s' w.dst fun e => e = { v with crc := packetCrc v, cls := e.cls })) ∧
  (∀ (s : State) (w : TxWin) (u : Unacked), s.fab.tx = [w] → w.unacked = [u] → w.waiting = [] → u.firstSent + 30000000 ≤ s.time →
    let base := w.next - 1 + 0x100000
    (u.seg = none → s.colls = [] → exec (.packetAbandon w.dst w.vc u.pkt.seq) s = .next { s with fab := { s.fab with
      tx := [{ w with unacked := [], next := base, resync := some (base, s.time) }], out := s.fab.out ++ [.resync w.dst w.vc base] } }) ∧
    (∀ (g : SegRef) (o : DmaOp) (c : CmdId) (x : Cmd), s.servesOp u g o c x →
      ∃ s', exec (.packetAbandon w.dst w.vc u.pkt.seq) s = .next s' ∧ s'.endsWith c 0x5002 ∧ (s'.tile g.tile).dma.ops = []
        ∧ s'.fab = { s.fab with
          tx := [{ w with unacked := [], next := base, resync := some (base, s.time) }], out := s.fab.out ++ [.resync w.dst w.vc base] })) ∧
  (∀ (s : State) (k : Packet), s.pow.mode = .powered → k.type = 0x05 → k.dst = s.fab.modId → packetCrc k = k.crc → s.boot.state ≠ 2 →
    ∃ s', exec (.resynchronise k) s = .next s' ∧ s' = { s with fab := { s.fab with rx := s'.fab.rx, out := s'.fab.out } }
      ∧ s'.fab.out = s.fab.out ++ [.resyncAck k.src (k.tag.setWidth 3) k.seq]
      ∧ ∀ m v, s'.rxWin? m v = if m = k.src ∧ v = k.tag.setWidth 3 then some ⟨k.src, k.tag.setWidth 3, k.seq, []⟩ else s.rxWin? m v) ∧
  (∀ (s : State) (k : Packet) (w : TxWin) (t : Nat), s.pow.mode = .powered → k.type = 0x06 → k.dst = s.fab.modId → packetCrc k = k.crc →
    s.fab.tx = [w] → w.dst = k.src → w.vc = k.tag.setWidth 3 → w.resync = some (k.seq, t) → w.unacked = [] → w.waiting = [] →
    exec (.resynchroniseAcknowledgement k) s = .next { s with fab := { s.fab with tx := [{ w with resync := none, synced := true }] } }) ∧
  (∀ (s : State) (w : TxWin) (b : BitVec 24) (t : Nat), s.pow.mode = .powered → s.fab.tx = [w] → w.resync = some (b, t) → t + 10000000 ≤ s.time →
    exec (.resynchronisationRepeat w.dst w.vc) s = .next { s with fab := { s.fab with
      tx := [{ w with resync := some (b, s.time) }], out := s.fab.out ++ [.resync w.dst w.vc b] } })

/-! ## Faults, watchdogs and resets (R23, R33, R39 to R41, R399, R404 to R408, R412 to R416, R419, R422) -/

/-- The reset of die `d` is due for a cause: its engines and agents are fenced, its cache is written back and dropped; other dies
and tiles go on (R412, R413). -/
def Sys2Proof.Machine.State.dieStops (s s' : State) (d : DieId) (c : ResetCause) : Prop :=
  mapGet none s'.flt.dieCause d.val = some c ∧ s'.die d = { s.die d with inReset := true, cache := [] }
    ∧ (∀ t, s'.tile t = if dieOf t = d then { s.tile t with inReset := true } else s.tile t) ∧ ∀ e, e ≠ d → s'.die e = s.die e

/-- A module-warm reset is due for a cause: firmware has stopped, BOOT_STATE reads resetting, everything is fenced (R412, R413). -/
def Sys2Proof.Machine.State.moduleStops (s s' : State) (c : ResetCause) : Prop :=
  s'.flt.warmCause = some c ∧ s'.flt.tileCause = [] ∧ s'.flt.dieCause = []
    ∧ s'.boot = { s.boot with
        state := 3, running := false, presenceOpen := false, started := s.time, startKind := if c.sag then 0x03 else 0x02
        latchedReason := s'.boot.latchedReason }
    ∧ (∀ t, s'.tile t = { s.tile t with inReset := true }) ∧ ∀ d, s'.die d = { s.die d with inReset := true, cache := [] }

/-- The command that a tile's engine serves: alone in flight in its queue, on a tile without faults noted (R407, R414). -/
abbrev Sys2Proof.Machine.State.engineCmd (s : State) (t : TileId) (c : CmdId) (x : Cmd) : Prop :=
  (s.tile t).cmd = some c ∧ (s.tile t).seq.resident = false ∧ (s.tile t).mechLog = [] ∧ (s.queue c.queue).cmds = [x] ∧ x.id = c.id
    ∧ x.stage = .begun ∧ (s.queue c.queue).state ≠ qDestroying ∧ s.colls = [] ∧ mapGet none s.flt.tileCause t.val = none

/-- R23, R33, R39 to R41, R404 to R408, R411: what the detections outside a tile's arithmetic do. A watchdog that expires on an engine
with work ends the command there with 0x9008 and makes its domain's reset due: the tile's, the die's for a stack agent, the
module's for a command processor or a link router. Firmware's heartbeat is noted; 1 ms without one, or processors that disagree
with no one fault between them, is recorded as kind 0x03 with 0x9009 and starts a module-warm reset; one that fails its check alone
goes offline. A crossing queue whose pointers mismatch loses its contents and counts it. A bridge link fails at its sixteenth bad
flit in succession. A regulator fault fences both islands under one record. -/
def Obligations.DetectionsRecordAndFence : Prop :=
  (∀ (s : State) (e : TileId → EngineId) (t : TileId) (c : CmdId) (x : Cmd), e ∈ [EngineId.sequencer, .array, .vector, .dma] →
    s.pow.mode = .powered → s.engineBusy (e t) = true → s.engineCmd t c x → (e = EngineId.dma → s.dmaOwner t = some c) →
    ∃ s', exec (.engineWatchdog (e t)) s = .next s' ∧ s'.endsWith c 0x9008 ∧ (s'.tile t).inReset = true
      ∧ mapGet none s'.flt.tileCause t.val = some ⟨0x9008, s.flt.nextNo, 0x13, false⟩) ∧
  (∀ (s : State) (k : StackId), s.pow.mode = .powered → s.stackFenced k = false → s.colls = [] →
    ∃ s', exec (.engineWatchdog (.stackAgent k)) s = .next s' ∧ s.dieStops s' (stackDie k) ⟨0x9008, s.flt.nextNo, 0x13, false⟩) ∧
  (∀ (s : State) (l : Fin 6), s.pow.mode = .powered → s.flt.warmCause = none → s.colls = [] →
    ∃ s', exec (.engineWatchdog (.linkRouter l)) s = .next s' ∧ s.moduleStops s' ⟨0x9008, s.flt.nextNo, 0x13, false⟩) ∧
  (∀ (s : State) (i : Fin 8), s.pow.mode = .powered → s.boot.running = true → s.flt.warmCause = none → s.colls = [] →
    ∃ s', exec (.engineWatchdog (.commandProcessor i none)) s = .next s' ∧ s.moduleStops s' ⟨0x9008, s.flt.nextNo, 0x13, false⟩) ∧
  (∀ s : State, s.boot.running = true → exec .firmwareHeartbeat s = .next { s with flt := { s.flt with heartbeat := s.time } }) ∧
  (∀ s : State, s.boot.running = true → s.pow.mode = .powered → s.flt.warmCause = none → s.colls = [] → s.flt.heartbeat + 1000000 ≤ s.time →
    ∃ s', exec .heartbeatExpiry s = .next s' ∧ s.moduleStops s' ⟨0x9009, s.flt.nextNo, 0x18, false⟩
      ∧ s'.boot.latchedReason = (if s.boot.state = 1 then s.boot.latchedReason else 0x07)
      ∧ (∀ pa, s.faultSlot pa → s.jobs = [] → (∀ d, (s.die d).cache = []) →
          s.faultStands s' pa [(31, 24, 0x03), (47, 32, 0x9009), (207, 192, 0x600B), (287, 280, 0x18)])) ∧
  (∀ s : State, s.boot.running = true → s.flt.hubOffline = false →
    (∀ b, s.pow.mode = .powered → s.flt.warmCause = none → s.colls = [] →
      ∃ s', exec (.hubLockstepMismatch b b) s = .next s' ∧ s.moduleStops s' ⟨0x9009, s.flt.nextNo, 0x06, false⟩) ∧
    (∀ b, ∃ s', exec (.hubLockstepMismatch b !b) s = .next s' ∧ State.reportsTo { s with flt := { s.flt with hubOffline := true } } s'
      ∧ (∀ pa, s.faultSlot pa → s.flt.masked = [] →
          s.faultStands s' pa [(31, 24, 0x02), (47, 32, 0x900E), (56, 56, 1), (207, 192, 0x6000), (287, 280, 0x06), (447, 416, 1)]))) ∧
  (∀ (s : State) (x : Crossing), s.pow.mode = .powered → (∀ d c, x ≠ .dieSide d c) →
    ∃ s', exec (.crossingQueueMismatch x) s = .next s' ∧ State.reportsTo { s with xqs := s'.xqs } s'
      ∧ (∀ i, i ≠ crossingNo x → s'.xq i = s.xq i)
      ∧ (s'.xq (crossingNo x)).words = [] ∧ (s'.xq (crossingNo x)).pack = [] ∧ (s'.xq (crossingNo x)).overrun = (s.xq (crossingNo x)).overrun
      ∧ (s'.xq (crossingNo x)).mismatches.toNat = min ((s.xq (crossingNo x)).mismatches.toNat + 1) 0xFFFFFFFF) ∧
  (∀ (s : State) (d : DieId), s.pow.mode = .powered → (s.die d).inReset = false → s.colls = [] →
    ∃ s', exec (.crossingQueueMismatch (.dieSide d none)) s = .next s' ∧ s.dieStops s' d ⟨0x9004, s.flt.nextNo, 0x11, false⟩
      ∧ (s'.xq (100 + d.val)).words = []) ∧
  (∀ (s : State) (l : BridgeLink), s.pow.mode = .powered → l ∉ s.flt.linksDown →
    (∃ s', exec (.bridgeFlitReceive l true) s = .next s' ∧ s' = { s with flt := { s.flt with replays := s'.flt.replays } }
      ∧ ∀ m, mapGet 0 s'.flt.replays m = if m = l.val then 0 else mapGet 0 s.flt.replays m) ∧
    (mapGet 0 s.flt.replays l.val < 15 → ∃ s', exec (.bridgeFlitReceive l false) s = .next s'
      ∧ State.reportsTo { s with flt := { s.flt with replays := s'.flt.replays } } s'
      ∧ ∀ m, mapGet 0 s'.flt.replays m = if m = l.val then mapGet 0 s.flt.replays m + 1 else mapGet 0 s.flt.replays m) ∧
    (mapGet 0 s.flt.replays l.val = 15 → ∃ s', exec (.bridgeFlitReceive l false) s = .next s' ∧ s'.flt.linksDown = s.flt.linksDown ++ [l]
      ∧ State.reportsTo { s with flt := { s.flt with replays := s'.flt.replays, linksDown := s'.flt.linksDown } } s'
      ∧ ∀ pa, s.faultSlot pa → s.faultStands s' pa [(31, 24, 0x04), (47, 32, 0x9005), (287, 280, 0x03), (351, 288, l.val)])) ∧
  (∀ (s : State) (a b : Island) (d e : DieId), s.pow.mode = .powered → dieOfLogic a.die = some d → dieOfLogic b.die = some e → d ≠ e → s.colls = [] →
    (s.die d).inReset = false → (s.die e).inReset = false →
    ∃ s', exec (.regulatorFault a b) s = .next s'
      ∧ (∀ f, f = d ∨ f = e → mapGet none s'.flt.dieCause f.val = some ⟨0x9006, s.flt.nextNo, 0x17, false⟩
          ∧ s'.die f = { s.die f with inReset := true, cache := [] })
      ∧ (∀ f, f ≠ d → f ≠ e → s'.die f = s.die f)
      ∧ (∀ t, s'.tile t = if dieOf t = d ∨ dieOf t = e then { s.tile t with inReset := true } else s.tile t)
      ∧ ∀ pa, s.faultSlot pa → (∀ f, (s.die f).cache = []) → s.faultStands s' pa [(31, 24, 0x04), (47, 32, 0x9006), (207, 192, 0x600B),
          (268, 264, min a.die.val b.die.val), (287, 280, 0x17), (292, 288, a.die.val), (300, 296, b.die.val), (306, 304, a.kind.val), (314, 312, b.kind.val)]) ∧
  (∀ (s : State) (a b : Island), s.pow.mode = .powered → s.flt.warmCause = none → dieOfLogic a.die = none → dieOfLogic b.die = none → s.colls = [] →
    ∃ s', exec (.regulatorFault a b) s = .next s' ∧ s.moduleStops s' ⟨0x9006, s.flt.nextNo, 0x17, false⟩)

/-- A tile back in service after a reset: as it is placed, zeroed (R175, R413). -/
def Sys2Proof.Machine.Tile.reopened (x : Tile) : Tile := { x.placed with inReset := false }

/-- A die back in service after a reset, its clean copies gone (R209, R413). -/
def Sys2Proof.Machine.Die.reopened (x : Die) : Die :=
  { x with inReset := false, gen := x.gen + 1, clearing := true, droop := false, departed := none }

/-- A snapshot of the reset has been added to the sixteen that are kept (R415, R416). -/
def Sys2Proof.Machine.State.snapped (s s' : State) (dom tile die : Nat) (c : ResetCause) : Prop :=
  s'.flt.nextSnap = s.flt.nextSnap + 1 ∧ s'.flt.snapshots.length = min (s.flt.snapshots.length + 1) 16 ∧
    ∃ x, s'.flt.snapshots.getLast? = some x ∧ x.number = s.flt.nextSnap ∧ x.header.length = 64
      ∧ hasFields (leNat x.header) [(15, 0, 0x5A9D), (19, 16, dom), (26, 20, tile), (31, 27, die), (63, 32, s.flt.nextSnap.toNat), (79, 64, c.status.toNat),
          (103, 80, c.faultNo.toNat), (191, 128, s.stamp.toNat), (223, 192, (64 + x.body.length) % 2 ^ 32)]

/-- Power has gone from every rail: what is left is the flash, the always-on logic's latches, the host's memory and the world
outside; each unit is as it is before power comes (R237, R310, R412, R419, R446, R476, R479, R483, R485). -/
def Sys2Proof.Machine.State.wentDark (s s' : State) : Prop :=
  s'.pow.mode = .off ∧ s'.pow.pwrGood = false ∧ s'.mem = [] ∧ s'.poison = [] ∧ s'.host = s.host ∧ s'.pending = s.pending ∧ s'.time = s.time
    ∧ (∀ t, s'.tile t = {}) ∧ (∀ d, s'.die d = {}) ∧ (∀ q, s'.queue q = {}) ∧ (∀ p, s'.part p = {}) ∧ (∀ i, s'.sem i = 0) ∧ (∀ k i, s'.ctr k i = 0)
    ∧ s'.semWaits = [] ∧ s'.ctrWaits = [] ∧ s'.colls = [] ∧ s'.jobs = [] ∧ s'.loans = [] ∧ s'.flt = {} ∧ s'.capo = {} ∧ s'.tb = {} ∧ s'.xqs = []
    ∧ (∀ f, s'.fn f = (s.fn f).atReset)
    ∧ (∀ k, s'.stack k = { repairs := (s.stack k).repairs, spares := (s.stack k).spares, remapped := (s.stack k).remapped, unavailable := (s.stack k).unavailable })
    ∧ (∀ p, s'.port p = { downStarts := (s.port p).downStarts, laneFails := (s.port p).laneFails })
    ∧ s'.fab.plan = none ∧ s'.fab.tx = [] ∧ s'.fab.rx = [] ∧ (∀ m, s'.routeOf m = 7)
    ∧ s'.boot.image = s.boot.image ∧ s'.boot.counters = s.boot.counters ∧ s'.boot.licences = s.boot.licences ∧ s'.boot.entries = s.boot.entries
    ∧ s'.boot.attempts = s.boot.attempts ∧ s'.boot.presenceLog = s.boot.presenceLog ∧ s'.boot.sealLog = s.boot.sealLog
    ∧ s'.boot.sealLatch = s.boot.sealLatch ∧ s'.boot.running = false ∧ s'.boot.state = 0 ∧ s'.boot.debug = false

/-- R237, R399, R412 to R416, R419, R422, R446: resets. A tile's zeroes the tile; a die's zeroes its tiles, acquires, and at the third
within 24 hours fences the die; a module-warm reset does so everywhere, drops registrations, frees mailboxes, and keeps memory,
semaphores and counters. Each writes a snapshot and a record with its number, ends the commands with an engine in its domain
with 0x9009 and halts their queues with reason 0x01. A reset that does not complete passes to the larger domain. Removal of power
keeps the flash, the host's memory and what the world outside has. -/
def Obligations.ResetsRestoreTheirDomain : Prop :=
  (∀ (s : State) (t : TileId) (c : ResetCause), mapGet none s.flt.tileCause t.val = some c → s.jobs = [] → (∀ q, s.queueIn (.tile t) q = false) →
    ∃ s', exec (.tileReset t) s = .next s' ∧ mapGet none s'.flt.tileCause t.val = none
      ∧ (∀ u, s'.tile u = if u = t then (s.tile t).reopened else s.tile u) ∧ s.snapped s' 1 t.val (t.val / 8) c
      ∧ State.reportsTo { s with
          tiles := s'.tiles, loans := s'.loans, flt := { s.flt with tileCause := s'.flt.tileCause, snapshots := s'.flt.snapshots, nextSnap := s'.flt.nextSnap } } s'
      ∧ (∀ l, l ∈ s'.loans ↔ ∃ k ∈ s.loans, l = if k.die = dieOf t then { k with saved := none } else k)
      ∧ ∀ pa, c.mech ≠ 0x06 → c.mech ≠ 0x18 → (s.die (dieOf t)).owner = none → s.faultSlot pa → s.faultStands s' pa
          [(31, 24, 0x03), (47, 32, c.status.toNat), (207, 192, 0x1000 + t.val), (262, 256, t.val), (287, 280, c.mech.toNat), (415, 352, s.flt.nextSnap.toNat)]) ∧
  (∀ (s : State) (t : TileId) (c : ResetCause) (q : QueueId) (x : Cmd), mapGet none s.flt.tileCause t.val = some c → c.sag = false → s.jobs = [] → s.colls = [] →
    s.queues = [(q.val, s.queue q)] → (s.queue q).cfg ≠ none → (s.queue q).cmds = [x] → x.stage = .begun → x.depth = 0 → t ∈ x.engineTiles → s.slotOf (dieOf t) q = none →
    (s.queue q).state = qRunning → (s.queue q).halting = none →
    ∃ s', exec (.tileReset t) s = .next s' ∧ s'.endsWith ⟨q, x.id⟩ 0x9009 ∧ (s'.queue q).halting = some 0x01 ∧ (s'.tile t).inReset = false ∧ (s'.tile t).cmd = none) ∧
  (∀ (s : State) (d : DieId) (c : ResetCause), mapGet none s.flt.dieCause d.val = some c → s.jobs = [] → (∀ q, s.queueIn (.die d) q = false) →
    ∃ s', exec (.dieReset d) s = .next s' ∧ mapGet none s'.flt.dieCause d.val = none
      ∧ (∀ t, dieOf t = d → mapGet none s'.flt.tileCause t.val = none)
      ∧ (∀ t, s'.tile t = if dieOf t = d then (s.tile t).reopened else s.tile t) ∧ (∀ e, e ≠ d → s'.die e = s.die e)
      ∧ (let recent := (s.die d).resetLog.filter fun u => s.time < u + 86400000000000
         s'.die d = { (s.die d).reopened with resetLog := s.time :: recent, fenced := (s.die d).fenced || decide (2 ≤ recent.length) }
           ∧ (recent.length < 2 → s'.boot = s.boot))
      ∧ s.snapped s' 2 0x7F d.val c ∧ s'.sems = s.sems ∧ s'.ctrs = s.ctrs ∧ s'.queues = s.queues
      ∧ ((s.fn 0).flt.cfg.getLsbD 8 = false → (s.die d).owner = none → s'.mem = s.mem)) ∧
  (∀ (s : State) (c : ResetCause), s.flt.warmCause = some c → s.pow.refclk = true → s.pow.sagResetAt = none → (∀ q, (s.queue q).cfg = none) → s.colls = [] →
    (∀ d, (s.die d).pstate ≠ 2) →
    ∃ s', exec .moduleWarmReset s = .next s' ∧ s'.flt.warmCause = none ∧ (∀ t, s'.tile t = (s.tile t).reopened)
      ∧ (∀ d, (s'.die d).inReset = false ∧ (s'.die d).gen = (s.die d).gen + 1 ∧ (s'.die d).pstate = 0 ∧ (s'.die d).owner = (s.die d).owner)
      ∧ s'.semWaits = [] ∧ s'.ctrWaits = [] ∧ s'.sems = s.sems ∧ s'.ctrs = s.ctrs ∧ s'.queues = s.queues ∧ s.snapped s' 3 0x7F 0x1F c
      ∧ (∀ f, (s'.fn f).busy = false ∧ (s'.fn f).done = false ∧ (s'.fn f).seqAny = true ∧ (s'.fn f).evr.base = (s.fn f).evr.base)
      ∧ (∀ p, (s'.part p).fmax = if (s.part p).exists_ then 76 else (s.part p).fmax) ∧ s'.capo.matched = false ∧ s'.capo.phases = []
      ∧ s'.boot.portsInForce = BitVec.ofNat 8 (portsOf (s.licensed 1))
      ∧ ((s.fn 0).flt.cfg.getLsbD 8 = false → s'.mem = s.mem)) ∧
  (∀ s : State, s.pow.mode ≠ .off →
    ∃ s', exec .moduleColdReset s = .next s' ∧ s.wentDark s' ∧ s'.pow.inputUp = s.pow.inputUp ∧ s'.pow.pwrEn = s.pow.pwrEn) ∧
  (∀ (s : State) (t : TileId) (c : ResetCause), mapGet none s.flt.tileCause t.val = some c → (s.die (dieOf t)).inReset = false → s.colls = [] →
    ∃ s', exec (.tileResetEscalation t) s = .next s' ∧ mapGet none s'.flt.tileCause t.val = none ∧ s.dieStops s' (dieOf t) c) ∧
  (∀ (s : State) (d : DieId) (c : ResetCause), mapGet none s.flt.dieCause d.val = some c → c.sag = false → s.pow.mode = .powered → s.flt.warmCause = none → s.colls = [] →
    ∃ s', exec (.dieResetEscalation d) s = .next s' ∧ s.moduleStops s' c)

/-! ## Power cap, clocks, sag, thermal limits and energy (R371, R425 to R443, R455, R456) -/

/-- The next slot of the physical function's event ring: enabled, with room, a free line of device memory at `pa`; and source `src`
wrote no record of this code before (R299, R509). -/
def Sys2Proof.Machine.State.eventSlot (s : State) (pa : Nat) (src : Nat) (code : Nat) : Prop :=
  let r := (s.fn 0).evr
  r.cfg.getLsbD 8 = true ∧ (r.prod - r.cons).toNat < 2 ^ (r.cfg.toNat % 32)
    ∧ r.base.toNat + 64 * (r.prod.toNat % 2 ^ (r.cfg.toNat % 32)) = 2 * 2 ^ 60 + pa ∧ pa < 2 ^ 48 ∧ pa % 64 = 0
    ∧ (∃ d o, s.paKind pa = .region d o ∧ o + 64 ≤ s.regionSize d) ∧ s.agentFenced pa = none
    ∧ mapGet none s.tel.evAt (65536 * code + src) = none ∧ s.tel.trace.ovfEvent = false

/-- R509: an event record of no partition stands in that slot, which the ring counts; cause bit 1 is set. -/
def Sys2Proof.Machine.State.eventStands (s s' : State) (pa : Nat) (src code data : Nat) : Prop :=
  hasFields (leNat (bytesAt s'.mem pa 64)) [(63, 0, s.stamp.toNat), (79, 64, src), (87, 80, code), (95, 88, 0), (159, 128, 0), (511, 160, data)]
    ∧ (∀ i, i < pa ∨ pa + 64 ≤ i → byteAt s'.mem i = byteAt s.mem i)
    ∧ (s'.fn 0).evr = { (s.fn 0).evr with prod := (s.fn 0).evr.prod + 1 } ∧ (s'.fn 0).kevCause.getLsbD 1 = true

/-- What a die takes that gets its measured power: one not in Active, or of no partition (R426). -/
def Sys2Proof.Machine.State.idleDie (s : State) (d : DieId) : Bool := (s.die d).pstate ≠ 0 || (s.die d).owner.isNone

/-- The sum of a quantity over the compute dies. -/
def Sys2Proof.Machine.dieSum (f : DieId → Nat) : Nat := allDies.foldl (fun n d => n + f d) 0

/-- Energy of every partition and of overhead together, in 2^-16 uJ (R441). -/
def Sys2Proof.Machine.State.charged (s : State) : Nat := allParts.foldl (fun n p => n + (s.part p).energy) 0 + s.capo.overhead

/-- An interval's energy (R439). -/
def Sys2Proof.Machine.intervalSum (e : EnergyReading) : Nat :=
  (e.dies.map Prod.fst).foldl (· + ·) 0 + (e.memStacks.map fun x => x.1 + x.2.1).foldl (· + ·) 0
    + (e.links.map fun x => x.1 + x.2.1).foldl (· + ·) 0 + e.hubs

/-- R371, R425 to R443: the capo's loops and what the supply does to them. The module loop gives idle dies what they measured and
the working ones together no more than the limit leaves. A die's loop keeps its clock from 0.4 GHz to the ceiling and the
prediction, at most 1.40 GHz in matched-clock mode, below its last when too hot. An input above 5,600 W stretches until it is
below 4,600 W; droop stretches one die. A sag warning lowers its pin, counts, sets its cause and holds 60% until 10 ms after it
ends. A sag reset fences as a module-warm reset with 0x900A; the input must hold 1 ms within 20 ms, or all power goes, as at a
thermal trip, which latches its unit. Every interval's energy is charged once. A wake from Dormant begins a start of kind 0x04. -/
def Obligations.CapoKeepsLimitsAndCharges : Prop :=
  (∀ (s : State) (m : PowerReading), s.pow.mode = .powered → s.boot.running = true → m.temps = [] →
    ∃ s', exec (.capoModuleLoop m) s = .next s' ∧ s' = { s with dies := s'.dies, capo := { s.capo with input := s'.capo.input } }
      ∧ s'.capo.input = m.others + dieSum (fun d => (m.dies[d.val]?).getD 0)
      ∧ (∀ d, s'.die d = { s.die d with allot := (s'.die d).allot })
      ∧ (∀ d, s.idleDie d = true → (s'.die d).allot = (m.dies[d.val]?).getD 0)
      ∧ (∀ d, s.idleDie d = false → s.dieWorks d = false → (s'.die d).allot = 0)
      ∧ dieSum (fun d => if s.idleDie d then 0 else (s'.die d).allot) ≤
          s.capo.limit - m.others - dieSum (fun d => if s.idleDie d then (m.dies[d.val]?).getD 0 else 0)) ∧
  (∀ (s : State) (m : PowerReading) (l : LogicDie) (x : Int), s.pow.mode = .powered → s.boot.running = true → m.temps = [(l, x)] → dieOfLogic l = none →
    ∃ s', exec (.capoModuleLoop m) s = .next s' ∧ s'.logicTemp l = x
      ∧ (115 * 16 ≤ x → (s'.fn 0).kevCause.getLsbD 5 = true) ∧ (x < 115 * 16 → s'.fns = s.fns)) ∧
  (∀ (s : State) (d : DieId) (r : DieReading), s.pow.mode = .powered → s.boot.running = true → (s.die d).pstate = 0 → (s.die d).inReset = false →
    ∃ s', exec (.dieLoop d r) s = .next s' ∧ State.reportsTo { s with dies := s'.dies, memStacks := s'.memStacks } s'
      ∧ s'.die d = { s.die d with power := r.power, temp := r.temp, clk := (s'.die d).clk, volt := (s'.die d).volt, departed := (s'.die d).departed }
      ∧ (∀ e, e ≠ d → s'.die e = { s.die e with clk := (s'.die e).clk, volt := (s'.die e).volt })
      ∧ (∀ k, s'.stack k = if stackDie k = d then { s.stack k with temp := if k.val % 2 = 0 then r.stackLow else r.stackHigh } else s.stack k)
      ∧ (16 ≤ (s.die d).clk.toNat → 16 ≤ (s'.die d).clk.toNat)
      ∧ (s'.die d).clk.toNat ≤ max 16 r.fits.toNat
      ∧ (if s.capo.matched then (s'.die d).clk.toNat ≤ 56 else (s'.die d).clk.toNat ≤ max 16 (min 76 (s.dieCeiling d)))
      ∧ (110 * 16 < r.temp ∨ 95 * 16 < r.stackLow ∨ 95 * 16 < r.stackHigh → (s'.die d).clk.toNat ≤ max 16 ((s.die d).clk.toNat - 1))
      ∧ (s.capo.matched = false → (s'.die d).departed = (s.die d).departed)
      ∧ (s.capo.matched = true → (s'.die d).departed =
          if (s'.die d).clk.toNat < 56 then (match (s.die d).departed with | some b => some b | none => some s.stamp) else none)
      ∧ (115 * 16 ≤ r.temp ∨ 100 * 16 ≤ r.stackLow ∨ 100 * 16 ≤ r.stackHigh → (s'.fn 0).kevCause.getLsbD 5 = true)) ∧
  (∀ (s : State) (n : Nat), s.pow.mode = .powered → 5600000 < n → s.capo.inputStretch = false →
    ∃ s', exec (.inputCeilingStretch n) s = .next s' ∧ State.reportsTo { s with capo := { s.capo with inputStretch := true, stretchAt := s.time } } s') ∧
  (∀ (s : State) (n : Nat), s.capo.inputStretch = true → n < 4600000 →
    ∃ s', exec (.inputCeilingRelease n) s = .next s' ∧ State.reportsTo { s with capo := { s.capo with inputStretch := false } } s'
      ∧ ∀ pa, s.eventSlot pa 0x6001 0x05 → s.eventStands s' pa 0x6001 0x05 (min (s.time - s.capo.stretchAt) 0xFFFFFFFF)) ∧
  (∀ (s : State) (d : DieId) (i : Fin 16), s.pow.mode = .powered → (s.die d).droop = false → (s.die d).pstate = 0 →
    ∃ s', exec (.droopStretch d i) s = .next s' ∧ State.reportsTo { s with dies := s'.dies } s' ∧ s'.die d = { s.die d with droop := true }
      ∧ (∀ e, e ≠ d → s'.die e = s.die e)
      ∧ ∀ pa, s.eventSlot pa (0x2000 + d.val) 0x0F → s.eventStands s' pa (0x2000 + d.val) 0x0F (logicOfDie d).val) ∧
  (∀ (s : State) (d : DieId),
    ∃ s', exec (.droopRelease d) s = .next s' ∧ s' = { s with dies := s'.dies } ∧ s'.die d = { s.die d with droop := false }
      ∧ ∀ e, e ≠ d → s'.die e = s.die e) ∧
  (∀ s : State, s.pow.mode = .powered → s.capo.sagWarn = false →
    ∃ s', exec .sagWarningAssert s = .next s'
      ∧ State.reportsTo { s with
          pow := { s.pow with sagWarnN := false }
          capo := { s.capo with sagWarn := true, sagHeld := true, sagReleasedAt := none, warnings := s'.capo.warnings, warnSat := s'.capo.warnSat } } s'
      ∧ s'.capo.warnings.toNat = min (s.capo.warnings.toNat + 1) 0xFFFFFFFF
      ∧ s'.capo.warnSat = (s.capo.warnSat || decide (0xFFFFFFFF ≤ s.capo.warnings.toNat + 1)) ∧ (s'.fn 0).kevCause.getLsbD 4 = true
      ∧ ∀ pa, s.eventSlot pa 0x6001 0x04 → s.eventStands s' pa 0x6001 0x04 (1 + 256 * (s.capo.cap.toNat / 25 % 256))) ∧
  (∀ s : State, s.capo.sagWarn = true → exec .sagWarningDeassert s = .next { s with
      pow := { s.pow with sagWarnN := true }, capo := { s.capo with sagWarn := false, sagReleasedAt := some s.time } }) ∧
  (∀ (s : State) (t : Nat), s.capo.sagReleasedAt = some t → s.capo.sagHeld = true → t + 10000000 ≤ s.time →
    ∃ s', exec .sagLimitRelease s = .next s' ∧ State.reportsTo { s with capo := { s.capo with sagHeld := false, sagReleasedAt := none } } s'
      ∧ ∀ pa, s.eventSlot pa 0x6001 0x04 → s.eventStands s' pa 0x6001 0x04 (256 * (s.capo.cap.toNat / 25 % 256))) ∧
  (∀ s : State, s.pow.mode = .powered → s.pow.sagResetAt = none → s.flt.warmCause = none → s.colls = [] →
    ∃ s', exec .sagReset s = .next s' ∧ s.moduleStops s' ⟨0x900A, 0, 0, true⟩ ∧ s'.pow.sagResetAt = some s.time) ∧
  (∀ (s : State) (t : Nat), s.pow.sagResetAt = some t → t + 1000000 ≤ s.time → s.time ≤ t + 20000000 →
    exec .sagRecovery s = .next { s with pow := { s.pow with sagResetAt := none } }) ∧
  (∀ s : State, s.pow.sagResetAt ≠ none → s.pow.mode ≠ .off →
    ∃ s', exec .sagRecoveryFailure s = .next s' ∧ s.wentDark s' ∧ s'.pow.inputUp = false ∧ s'.pow.sagResetAt = none) ∧
  (∀ (s : State) (u : ThermalUnit), s.pow.mode ≠ .off →
    ∃ s', exec (.thermalTrip u) s = .next s' ∧ s.wentDark s' ∧ s'.pow.thermtripN = false ∧ s'.pow.tripLatched = some u) ∧
  (∀ (s : State) (e : EnergyReading), s.pow.mode = .powered → e.dies.length = 12 → e.memStacks.length = 24 →
    s.capo.energy + intervalSum e ≤ energyTop → s.charged + intervalSum e ≤ energyTop →
    ∃ s', exec (.energyInterval e) s = .next s' ∧ s'.capo.energy = s.capo.energy + intervalSum e ∧ s'.charged = s.charged + intervalSum e
      ∧ s'.capo.vin = e.vin ∧ s'.capo.iin = e.iin ∧ s'.capo.pin = e.pin
      ∧ (∀ p, s'.part p = { s.part p with energy := (s'.part p).energy } ∧ (s.part p).energy ≤ (s'.part p).energy)
      ∧ State.reportsTo { s with capo := s'.capo, dies := s'.dies, parts := s'.parts, queues := s'.queues } s') ∧
  (∀ s : State, s.pow.mode = .dormant →
    ∃ s', exec (.wake (0x40 + s.pow.latched.setWidth 7)) s = .next s' ∧ s'.pow = { s.pow with mode := .powered, waking := true }
      ∧ s'.boot = { s.boot with state := 0, startKind := 0x04, started := s.time } ∧ s'.mem = s.mem ∧ s'.queues = s.queues ∧ s'.parts = s.parts
      ∧ s'.tb.value = s.tb.value
      ∧ ∀ i, (s.port i).state = 4 → s.licensedPort i = true → s.portFailed i = false → (s'.port i).state = 1)

/-! ## Pins, supplies, start-up, seal, presence and telemetry (R437, R459, R460, R464 to R478, R483, R485, R493 to R498, R513 to R517) -/

/-- Power comes: PWR_GOOD, a cold start, and the licensed ports that are not marked failed train (R309, R464). -/
def Sys2Proof.Machine.State.powersUp (s s' : State) : Prop :=
  s'.pow.mode = .powered ∧ s'.pow.pwrGood = true ∧ s'.pow.pwrEn = true ∧ s'.pow.enWaits = false
    ∧ s'.boot = { s.boot with
        state := 0, startKind := 0x01, started := s.time, inForce := s.boot.entries, portsInForce := BitVec.ofNat 8 (portsOf (s.licensed 1)) }
    ∧ ∀ i, (s.port i).state = 0 ∨ (s.port i).state = 4 →
        (s'.port i).state = if portsOf (s.licensed 1) ≤ i.val then 0 else if s'.portFailed i then 6 else 1

/-- What power needs beside PWR_EN (R437, R460, R497). -/
abbrev Sys2Proof.Machine.State.mayPower (s : State) : Prop :=
  s.pow.mode = .off ∧ s.pow.inputUp = true ∧ s.pow.thermtripN = true ∧ s.pow.offUntil = none

/-- R437, R455, R459, R460, R493 to R498: pins and supplies. PWR_EN brings power where the input is there, no trip is latched and the
500 ms after its last release have passed; else it waits. Its release, an overvoltage, the loss of the input or an overcurrent takes
all power. The auxiliary supply keeps latches and the latched slot; a strap that changes is told, not taken. Without the reference
clock a module-warm reset waits, and the ports are down. -/
def Obligations.PinsGiveAndTakePower : Prop :=
  (∀ s : State, exec .prsntNLow s = .next { s with pow := { s.pow with prsntN := false } }) ∧
  (∀ s : State, s.pow.pwrEn = false → s.mayPower → ∃ s', exec .pwrEnAssert s = .next s' ∧ s.powersUp s') ∧
  (∀ (s : State) (t : Nat), s.pow.pwrEn = false → s.pow.offUntil = some t →
    exec .pwrEnAssert s = .next { s with pow := { s.pow with pwrEn := true, enWaits := true } }) ∧
  (∀ s : State, s.pow.pwrEn = true → s.pow.mode ≠ .off →
    ∃ s', exec .pwrEnDeassert s = .next s' ∧ s.wentDark s' ∧ s'.pow.pwrEn = false ∧ s'.pow.thermtripN = true
      ∧ s'.pow.offUntil = some (s.time + 500000000)) ∧
  (∀ (s : State) (t : Nat), s.pow.offUntil = some t → t ≤ s.time →
    (s.pow.pwrEn = true → s.pow.inputUp = true → s.pow.thermtripN = true → s.pow.mode = .off →
      ∃ s', exec .offTimeElapsed s = .next s' ∧ s.powersUp s' ∧ s'.pow.offUntil = none) ∧
    (s.pow.pwrEn = false → exec .offTimeElapsed s = .next { s with pow := { s.pow with offUntil := none, enWaits := false } })) ∧
  (∀ i ∈ [Instr.inputOvervoltage, .inputLoss], ∀ s : State, s.pow.mode ≠ .off →
    ∃ s', exec i s = .next s' ∧ s.wentDark s' ∧ s'.pow.inputUp = false ∧ (s.pow.auxUp = true → s'.pow.tripLatched = s.pow.tripLatched)) ∧
  (∀ s : State, s.pow.auxUp = false → ∃ s', exec .inputLoss s = .next s' ∧ s'.pow.inputUp = false ∧ s'.pow.tripLatched = none
    ∧ s'.pow.overcurrent = false ∧ s'.pow.thermtripN = true ∧ s'.boot.latchedReason = 0) ∧
  (∀ s : State, s.pow.mode ≠ .off → ∃ s', exec .overcurrent s = .next s' ∧ s.wentDark s' ∧ s'.pow.overcurrent = true) ∧
  (∀ s : State, s.pow.inputUp = false →
    (s.pow.pwrEn = false → exec .inputReturn s = .next { s with
      pow := { s.pow with inputUp := true, latched := if s.pow.auxUp then s.pow.latched else s.pow.straps } }) ∧
    (s.pow.pwrEn = true → s.pow.thermtripN = true → s.pow.offUntil = none → s.pow.mode = .off →
      ∃ s', exec .inputReturn s = .next s' ∧ s.powersUp s' ∧ s'.pow.inputUp = true)) ∧
  (∀ s : State, s.pow.auxUp = true → s.pow.inputUp = true →
    ∃ s', exec .aux3v3Loss s = .next s' ∧ State.reportsTo { s with pow := { s.pow with auxUp := false } } s'
      ∧ (s.pow.mode = .powered → s.boot.running = true → ∀ pa, s.eventSlot pa 0x600B 0x0B → s.eventStands s' pa 0x600B 0x0B 0)) ∧
  (∀ s : State, s.pow.auxUp = true → s.pow.inputUp = false →
    ∃ s', exec .aux3v3Loss s = .next s' ∧ s'.pow = { s.pow with
      auxUp := false, overcurrent := false, tripLatched := none, perstLatched := false, thermtripN := true } ∧ s'.boot.latchedReason = 0) ∧
  (∀ s : State, s.pow.auxUp = false → exec .aux3v3Return s = .next { s with
    pow := { s.pow with auxUp := true, latched := if s.pow.inputUp then s.pow.latched else s.pow.straps } }) ∧
  (∀ (s : State) (v : BitVec 5),
    ∃ s', exec (.slotIdStrapChange v) s = .next s' ∧ State.reportsTo { s with pow := { s.pow with straps := v } } s'
      ∧ (s.pow.mode = .powered → s.boot.running = true → v ≠ s.pow.latched →
          ∀ pa, s.eventSlot pa 0x6000 0x0B → s.eventStands s' pa 0x6000 0x0B (1 + 2 * v.toNat))
      ∧ (v = s.pow.latched → s' = { s with pow := { s.pow with straps := v } })) ∧
  (∀ s : State, s.pow.refclk = true → s.pow.mode = .powered → s.flt.warmCause = none → s.colls = [] →
    ∃ s', exec .refclkLoss s = .next s' ∧ s.moduleStops s' ⟨0x9009, 0, 0, false⟩ ∧ s'.pow.refclk = false
      ∧ (∀ i, (s'.port i).state = if (s.port i).state = 0 ∨ (s.port i).state = 6 then (s.port i).state else 4)
      ∧ (s.tb.state ≠ 2 → s'.tb.state = 3 ∧ s'.tb.parent = none)) ∧
  (∀ s : State, exec .refclkReturn s = .next { s with pow := { s.pow with refclk := true } })

/-- A start is due, with nothing latched and attempts left (R464, R470). -/
abbrev Sys2Proof.Machine.State.startsAnew (s : State) : Prop :=
  s.pow.mode = .powered ∧ s.pow.refclk = true ∧ s.flt.warmCause = none ∧ s.pow.sagResetAt = none ∧ s.boot.running = false
    ∧ (s.boot.state = 0 ∨ s.boot.state = 3) ∧ s.boot.latchedReason = 0 ∧ s.boot.attempts.toNat < 3

/-- R464 to R473, R476, R477, R483, R485, R513 to R517: start-up, the seal and presence, trace and ageing. A start raises the attempt
counter; one whose flash, secret, counters or record fail its check logs the reason and starts again; the third failure leads to
open-string mode; else firmware runs the image with its record in force. Once training has ended the module is ready, with its
readiness record, and counts from zero again; 10 s without that is a failed start. An opening of the seal is counted and logged.
A press opens presence for 60 s. The trace mover stores a FIFO's oldest record, with the phase of its pass. An ageing sample enters
its unit's history of 90 days. -/
def Obligations.StartsReadinessAndTelemetry : Prop :=
  (∀ (s : State) (o : StartOutcome), s.startsAnew → o.flashReads = true → o.pufOk = true → o.countersOk = true → s.boot.image = none →
    s.boot.startStaged = false → s.boot.recordGen = s.flashCounter 1 → s.boot.licenceGen = s.flashCounter 2 →
    ∃ s', exec (.moduleStart o) s = .next s' ∧ s'.boot.running = true ∧ s'.boot.attempts = s.boot.attempts + 1
      ∧ s'.boot.fwVersion = Config.deliveredVersion ∧ s'.boot.fnTables = Config.deliveredTables ∧ s'.boot.runDigest = Config.deliveredDigest
      ∧ s'.boot.inForce = s.boot.entries ∧ s'.boot.recordAvail = false ∧ s'.boot.pcieRate = o.pcieRate ∧ s'.boot.pcieWidth = o.pcieWidth
      ∧ s'.boot.portsInForce = BitVec.ofNat 8 (portsOf (s.licensed 1)) ∧ s'.flt.heartbeat = s.time ∧ s'.boot.sealLatch = 0
      ∧ (∀ t, (s'.tile t).fenced = false) ∧ s'.pow.tripLatched = none ∧ s'.pow.overcurrent = false ∧ s'.boot.licences = s.boot.licences) ∧
  (∀ (s : State) (o : StartOutcome) (r : Byte), s.startsAnew → s.boot.image = none → s.boot.startStaged = false →
    (r = 0x01 ∧ o.flashReads = false) ∨ (r = 0x08 ∧ o.flashReads = true ∧ o.pufOk = false)
      ∨ (r = 0x09 ∧ o.flashReads = true ∧ o.pufOk = true ∧ o.countersOk = false)
      ∨ (r = 0x0A ∧ o.flashReads = true ∧ o.pufOk = true ∧ o.countersOk = true ∧ s.boot.recordGen ≠ s.flashCounter 1) →
    exec (.moduleStart o) s = .next { s with boot := { s.boot with
      attempts := s.boot.attempts + 1, reasons := (r :: s.boot.reasons).take 3, startKind := 0x02, started := s.time, startStaged := false
      failedVersion := if r = 0x01 then 0 else Config.deliveredVersion } }) ∧
  (∀ (s : State) (o : StartOutcome), s.startDue = true → 3 ≤ s.boot.attempts.toNat →
    ∃ s', exec (.moduleStart o) s = .next s' ∧ s' = { s with boot := s'.boot } ∧ s'.boot.state = 2 ∧ s'.boot.fwVersion = 0
      ∧ s'.boot.running = s.boot.running ∧ s'.boot.runDigest = 0 ∧ s'.boot.attempts = s.boot.attempts
      ∧ s'.boot.reasons = if s.boot.latchedReason = 0 then s.boot.reasons else (s.boot.latchedReason :: s.boot.reasons).take 3) ∧
  (∀ s : State, s.pow.mode = .powered → s.boot.running = true → s.boot.state = 0 ∨ s.boot.state = 3 → (∀ i, (s.port i).state ≠ 1) → s.jobs = [] →
    (s.pow.waking = false →
      ∃ s', exec .ready s = .next s' ∧ s' = { s with fresh := s'.fresh, boot := { s.boot with
          state := 1, recordAvail := true, attempts := 0, savedSettings := true, pcieHeld := !s.pow.perstN, readiness := s'.boot.readiness } }
        ∧ s'.boot.readiness.length = 320
        ∧ hasFields (leNat s'.boot.readiness) [(15, 0, 1), (63, 32, (s.time - s.boot.started) / 1000000 % 2 ^ 32), (71, 64, s.boot.startKind.toNat),
            (79, 72, (s.boot.attempts - 1).toNat)]) ∧
    (s.pow.waking = true →
      ∃ s', exec .ready s = .next s' ∧ s'.boot.state = 1 ∧ s'.boot.attempts = 0 ∧ s'.pow.waking = false ∧ s'.pow.smbAlertN = false
        ∧ s'.side.eventPending = true ∧ ∀ d, (s'.die d).pstate = 0)) ∧
  (∀ s : State, s.pow.mode = .powered → s.boot.state = 0 ∨ s.boot.state = 3 → s.boot.started + 10000000000 ≤ s.time → s.colls = [] →
    ∃ s', exec .startWatchdogExpiry s = .next s' ∧ s.moduleStops s' ⟨0x9009, 0, 0, false⟩ ∧ s'.boot.latchedReason = 0x06) ∧
  (∀ s : State, s.pow.auxUp = true ∨ s.pow.inputUp = true →
    (s.pow.mode = .powered → s.boot.running = true → s.boot.sealLatch = 0 →
      ∃ s', exec .sealOpening s = .next s' ∧ s'.boot = { s.boot with
          sealClosed := false, sealLog := s.boot.sealLog ++ [(s.stamp, false)], counters := s'.boot.counters }
        ∧ (s.counterFull 3 = false → s'.flashCounter 3 = s.flashCounter 3 + 1) ∧ ∀ i, i ≠ 3 → s'.flashCounter i = s.flashCounter i) ∧
    (s.pow.mode ≠ .powered ∨ s.boot.running = false →
      exec .sealOpening s = .next { s with boot := { s.boot with sealLatch := s.boot.sealLatch + 1, sealClosed := false } })) ∧
  (∀ s : State, exec .presencePress s = .next { s with boot := { s.boot with presenceOpen := true, presenceCloses := s.time + 60000000000 } }) ∧
  (∀ s : State, s.boot.presenceOpen = true → s.boot.presenceCloses ≤ s.time →
    exec .presenceWindowClose s = .next { s with boot := { s.boot with presenceOpen := false } }) ∧
  (∀ (s : State) (b : Bool), exec (.maintJumperChange b) s = .next { s with
    pow := { s.pow with maintJmpN := !b }
    boot := { s.boot with sealLog := if b && s.boot.sealClosed then s.boot.sealLog ++ [(s.stamp, true)] else s.boot.sealLog } }) ∧
  (∀ (s : State) (f : LogicDie) (w : Bytes × Nat) (l : List (Bytes × Nat)) (a o : Nat) (d : DieId), (s.xq f.val).words = w :: l → s.pow.mode = .powered →
    s.tel.trace.enable = true → s.tel.trace.host = false → s.tel.trace.buf.toNat + 32 * (s.tel.trace.written % 2 ^ s.tel.trace.size) = a → a % 32 = 0 →
    s.paKind a = .region d o → o + 32 ≤ s.regionSize d → s.agentFenced a = none → a / 64 ∉ s.poison →
    ∃ s', exec (.traceMove f) s = .next s' ∧ s'.xq f.val = { s.xq f.val with words := l }
      ∧ s' = { s with mem := s'.mem, xqs := s'.xqs, tel := { s.tel with trace := { s.tel.trace with written := s.tel.trace.written + 1 } } }
      ∧ (∀ i, i ≠ f.val → s'.xq i = s.xq i)
      ∧ ∀ i, byteAt s'.mem i =
          if a ≤ i ∧ i < a + 32 then
            if i = a + 11 then BitVec.ofNat 8 ((s.tel.trace.written / 2 ^ s.tel.trace.size + 1) % 2) else w.1.getD (i - a) 0
          else byteAt s.mem i) ∧
  (∀ (s : State) (x : AgeingSample), s.pow.mode = .powered → s.boot.running = true → s.samplable x = true →
    ∃ s' r, exec (.ageingSample x) s = .next s' ∧ State.reportsTo { s with tel := { s.tel with ageing := s'.tel.ageing } } s'
      ∧ s'.ageingOf x.cls x.unit x.lane = r ∧ r.cls = x.cls ∧ r.unit = x.unit ∧ r.lane = x.lane ∧ r.measured = x.value ∧ r.width = x.width
      ∧ r.baseline = x.baseline ∧ r.stamp = s.stamp
      ∧ r.history = ((s.ageingOf x.cls x.unit x.lane).history.filter fun h => s.time < h.1 + 90 * 86400000000000) ++ [(s.time, x.value.toNat)]
      ∧ ∀ c u n, c ≠ x.cls ∨ u ≠ x.unit ∨ n ≠ x.lane → s'.ageingOf c u n = s.ageingOf c u n)

/-! ## Reset and the invariant -/

/-- The state after reset. Given by the rules: the special registers of every tile (R131, R82), zero scratchpad and no
poison (R175), no operation in flight, semaphores and counters zero (R138, R234), queues disabled with zero indices (R243),
no partition (R419), the mailbox's and the rings' registers (R286, R299), no module identifier and no plan (R327), a
timebase of zero, unaligned (R419), the first fault number (R409), the cap and the weights (R423, R424), zero energy
(R441), refusal counters zero (R451). The model's own choices: nothing waits, both memories list nothing
(notes/assumptions/2.md), and State.reset stands before power is applied (notes/assumptions/6.md). -/
def Obligations.ResetLeavesState : Prop :=
  State.reset.Inv ∧ State.reset.pending = [] ∧ State.reset.mem = [] ∧ State.reset.host = [] ∧ State.reset.poison = [] ∧
  State.reset.pow.mode = .off ∧
  (∀ t, ((State.reset.tile t).flags = 0 ∧ (State.reset.tile t).fret = 0 ∧ (State.reset.tile t).seq.rank = 0
      ∧ (State.reset.tile t).seq.count = 0 ∧ (State.reset.tile t).seq.queue = 0 ∧ (State.reset.tile t).seq.seq = 0
      ∧ (State.reset.tile t).seq.cycles = 0 ∧ (State.reset.tile t).seq.workRing = 0 ∧ (State.reset.tile t).seq.faultInfo = 0)
    ∧ (∀ e, (State.reset.tile t).seq.event e = 0) ∧ (∀ a, mapGet 0 (State.reset.tile t).scratch a = 0) ∧ (State.reset.tile t).spoison = []
    ∧ (State.reset.tile t).aq = [] ∧ (State.reset.tile t).vq = [] ∧ (State.reset.tile t).dq = []
    ∧ (State.reset.tile t).dma.ops = [] ∧ (State.reset.tile t).cmd = none) ∧
  (∀ n, State.reset.sem n = 0) ∧ (∀ k c, State.reset.ctr k c = 0) ∧
  (∀ q, (State.reset.queue q).cfg = none ∧ (State.reset.queue q).state = 0 ∧ (State.reset.queue q).head = 0
    ∧ (State.reset.queue q).tail = 0 ∧ (State.reset.queue q).nextPub = 0 ∧ (State.reset.queue q).cplHead = 0
    ∧ (State.reset.queue q).reason = 0 ∧ (State.reset.queue q).cmds = []) ∧
  (∀ p, (State.reset.part p).exists_ = false) ∧ (∀ d, (State.reset.die d).owner = none) ∧
  (∀ f, (State.reset.fn f).busy = false ∧ (State.reset.fn f).done = false ∧ (State.reset.fn f).dbIgnored = false
    ∧ (State.reset.fn f).seqAny = true ∧ (State.reset.fn f).nextSeq = 0 ∧ (State.reset.fn f).kevCause = 0
    ∧ (State.reset.fn f).kevMask = 0xFFFF ∧ (State.reset.fn f).evr = {} ∧ (State.reset.fn f).flt = {}) ∧
  State.reset.fab.modId = 0 ∧ State.reset.fab.plan = none ∧ State.reset.tb.value = 0 ∧ State.reset.tb.state = 0 ∧
  State.reset.flt.nextNo = 1 ∧ State.reset.flt.snapshots = [] ∧ State.reset.capo.cap = 4600 ∧
  State.reset.capo.weights = 0x0101010101010101 ∧ State.reset.capo.energy = 0 ∧
  (∀ i, mapGet 0 State.reset.pow.counts i = 0)

/-- Every step from a state whose memories are in canonical form, of any command whatever its operands, leaves them so:
addresses strictly rising, and no entry equal to what an unlisted address reads as. -/
def Obligations.StepKeepsMemoriesCanonical : Prop :=
  ∀ s s' : State, s.Inv → step s = .next s' → s'.Inv
end

