-- ==== Sys2Proof/Laws/Map.lean ====
section
/-! SUPPORT. Laws of finite maps and byte maps: a read after a write, the canonical form kept by every operation. -/

namespace Sys2Proof.Machine

variable {α : Type}

/-! ## Read after write -/

theorem mapGet_insert (d : α) (m : NMap α) (i j : Nat) (x : α) :
    mapGet d (mapInsert m i x) j = if j = i then x else mapGet d m j := by
  induction m with
  | nil => simp [mapInsert, mapGet]
  | cons p m ih =>
    obtain ⟨k, v⟩ := p
    simp only [mapInsert]
    split
    · simp [mapGet]
    · split
      · subst_vars
        by_cases h : j = k <;> simp [mapGet, h]
      · by_cases h : j = k
        · subst h; simp [mapGet]; omega
        · simp [mapGet, h, ih]

theorem mapGet_erase (d : α) (m : NMap α) (i j : Nat) :
    mapGet d (mapErase m i) j = if j = i then d else mapGet d m j := by
  induction m with
  | nil => simp [mapErase, mapGet]
  | cons p m ih =>
    obtain ⟨k, v⟩ := p
    simp only [mapErase]
    split
    · subst_vars
      by_cases h : j = k
      · subst h; simpa using ih
      · simp [mapGet, h, ih]
    · by_cases h : j = k
      · subst h; simp [mapGet]; omega
      · simp [mapGet, h, ih]

/-- A read after a write: the value written at its key, the old value at every other. -/
theorem mapGet_put [DecidableEq α] (d : α) (m : NMap α) (i j : Nat) (x : α) :
    mapGet d (mapPut d m i x) j = if j = i then x else mapGet d m j := by
  unfold mapPut
  split
  · subst_vars; exact mapGet_erase _ m i j
  · exact mapGet_insert d m i j x

@[simp] theorem mapGet_put_self [DecidableEq α] (d : α) (m : NMap α) (i : Nat) (x : α) : mapGet d (mapPut d m i x) i = x := by
  simp [mapGet_put]

theorem mapGet_put_ne [DecidableEq α] (d : α) (m : NMap α) {i j : Nat} (x : α) (h : j ≠ i) : mapGet d (mapPut d m i x) j = mapGet d m j := by
  simp [mapGet_put, h]

/-! ## The canonical form -/

theorem mem_insert_fst (m : NMap α) (i : Nat) (x : α) : ∀ k ∈ (mapInsert m i x).map Prod.fst, k = i ∨ k ∈ m.map Prod.fst := by
  induction m with
  | nil => simp [mapInsert]
  | cons p m ih =>
    obtain ⟨k, v⟩ := p
    simp only [mapInsert]
    split
    · simp
    · split
      · subst_vars; simp
      · intro k' hk
        simp only [List.map_cons, List.mem_cons] at hk ⊢
        rcases hk with h | h
        · exact .inr (.inl h)
        · rcases ih k' h with h | h
          · exact .inl h
          · exact .inr (.inr h)

theorem mem_insert_snd (m : NMap α) (i : Nat) (x : α) : ∀ v ∈ (mapInsert m i x).map Prod.snd, v = x ∨ v ∈ m.map Prod.snd := by
  induction m with
  | nil => simp [mapInsert]
  | cons p m ih =>
    obtain ⟨k, v⟩ := p
    simp only [mapInsert]
    split
    · simp
    · split
      · simp only [List.map_cons, List.mem_cons]
        intro v' h; rcases h with h | h
        · exact .inl h
        · exact .inr (.inr h)
      · intro v' hk
        simp only [List.map_cons, List.mem_cons] at hk ⊢
        rcases hk with h | h
        · exact .inr (.inl h)
        · rcases ih v' h with h | h
          · exact .inl h
          · exact .inr (.inr h)

theorem mapWf_insert [DecidableEq α] {d : α} {m : NMap α} (h : mapWf d m) (i : Nat) {x : α} (hx : x ≠ d) : mapWf d (mapInsert m i x) := by
  refine ⟨?_, fun hd => ?_⟩
  · have h1 := h.1
    clear h
    induction m with
    | nil => simp [mapInsert]
    | cons p m ih =>
      obtain ⟨k, v⟩ := p
      simp only [List.map_cons, List.pairwise_cons] at h1
      simp only [mapInsert]
      split
      · simp only [List.map_cons, List.pairwise_cons, List.mem_cons]
        refine ⟨?_, h1⟩
        rintro a (rfl | ha)
        · assumption
        · exact Nat.lt_trans ‹_› (h1.1 a ha)
      · split
        · subst_vars; simpa only [List.map_cons, List.pairwise_cons] using h1
        · simp only [List.map_cons, List.pairwise_cons]
          refine ⟨fun a ha => ?_, ih h1.2⟩
          rcases mem_insert_fst m i x a ha with rfl | ha
          · omega
          · exact h1.1 a ha
  · rcases mem_insert_snd m i x d hd with e | e
    · exact hx e.symm
    · exact h.2 e

theorem mapErase_eq_filter (m : NMap α) (i : Nat) : mapErase m i = m.filter fun p => p.1 ≠ i := by
  induction m with
  | nil => rfl
  | cons p m ih =>
    obtain ⟨k, v⟩ := p
    by_cases h : k = i <;> simp [mapErase, h, ih]

/-- Leaving pairs out keeps the canonical form. -/
theorem mapWf_filter [DecidableEq α] {d : α} {m : NMap α} (h : mapWf d m) (p : Nat × α → Bool) : mapWf d (m.filter p) := by
  refine ⟨?_, fun hd => ?_⟩
  · exact h.1.sublist (List.Sublist.map _ List.filter_sublist)
  · exact h.2 ((List.Sublist.map _ (List.filter_sublist (p := p) (l := m))).subset hd)

theorem mapWf_erase [DecidableEq α] {d : α} {m : NMap α} (h : mapWf d m) (i : Nat) : mapWf d (mapErase m i) := by
  rw [mapErase_eq_filter]
  exact mapWf_filter h _

/-- A write keeps the canonical form. -/
theorem mapWf_put [DecidableEq α] {d : α} {m : NMap α} (h : mapWf d m) (i : Nat) (x : α) : mapWf d (mapPut d m i x) := by
  unfold mapPut
  split
  · exact mapWf_erase h i
  · exact mapWf_insert h i ‹_›

theorem mapWf_nil [DecidableEq α] (d : α) : mapWf d ([] : NMap α) := ⟨List.Pairwise.nil, by simp⟩

theorem mapWf_clear [DecidableEq α] {d : α} {m : NMap α} (h : mapWf d m) (a n : Nat) : mapWf d (mapClear m a n) := mapWf_filter h _

/-! ## Byte maps -/

theorem mapWf_putBytes {m : NMap Byte} (h : mapWf 0 m) (a : Nat) (b : Bytes) : mapWf 0 (putBytes m a b) := by
  induction b generalizing m a with
  | nil => exact h
  | cons x b ih => exact ih (mapWf_put h a x) (a + 1)

/-- A byte after a store: the byte stored where the address lies in the store, else the old one. -/
theorem byteAt_putBytes (m : NMap Byte) (a : Nat) (b : Bytes) (x : Nat) :
    byteAt (putBytes m a b) x = if a ≤ x ∧ x < a + b.length then b.getD (x - a) 0 else byteAt m x := by
  induction b generalizing m a with
  | nil => simp [putBytes] <;> omega
  | cons y b ih =>
    rw [putBytes, ih, List.length_cons]
    by_cases h1 : x = a
    · subst h1
      rw [if_neg (by omega), if_pos (by omega)]
      simp [byteAt]
    · by_cases h2 : a + 1 ≤ x ∧ x < a + 1 + b.length
      · rw [if_pos h2, if_pos (by omega), show x - a = (x - (a + 1)) + 1 by omega, List.getD_cons_succ]
      · rw [if_neg h2, if_neg (by omega)]
        simp [byteAt, mapGet_put_ne _ _ _ h1]

@[simp] theorem bytesAt_length (m : NMap Byte) (a n : Nat) : (bytesAt m a n).length = n := by
  induction n generalizing a with
  | zero => rfl
  | succ n ih => simp [bytesAt, ih]

theorem bytesAt_getD (m : NMap Byte) (a n i : Nat) (h : i < n) : (bytesAt m a n).getD i 0 = byteAt m (a + i) := by
  induction n generalizing a i with
  | zero => omega
  | succ n ih =>
    cases i with
    | zero => simp [bytesAt]
    | succ i =>
      simp only [bytesAt, List.getD_cons_succ]
      rw [ih (a + 1) i (by omega)]
      congr 1; omega

/-- A load after a store of the same bytes gives them. -/
theorem bytesAt_putBytes_self (m : NMap Byte) (a : Nat) (b : Bytes) : bytesAt (putBytes m a b) a b.length = b := by
  apply List.ext_getElem (by simp)
  intro i h1 h2
  have h3 := bytesAt_getD (putBytes m a b) a b.length i h2
  rw [byteAt_putBytes, if_pos (by omega), Nat.add_sub_cancel_left] at h3
  simpa [List.getD, h1, h2] using h3

end Sys2Proof.Machine
end

