-- ==== Sys2Proof/Laws/Pack.lean ====
section
/-! SUPPORT. Records laid out from fields: reading a field back (R9). -/

namespace Sys2Proof.Machine

theorem leNat_natLe (n v : Nat) : leNat (natLe v n) = v % 256 ^ n := by
  induction n generalizing v with
  | zero => simp [natLe, leNat, Nat.mod_one]
  | succ n ih =>
    have p : (256 : Nat) ^ (n + 1) = 256 * 256 ^ n := by rw [Nat.pow_succ, Nat.mul_comm]
    rw [natLe, leNat, ih, p, Nat.mod_mul]
    rfl

@[simp] theorem length_natLe (v n : Nat) : (natLe v n).length = n := by
  induction n generalizing v with
  | zero => rfl
  | succ n ih => simp [natLe, ih]

theorem bits_pack_head (w v : Nat) (fs : List (Nat × Nat)) (hi : Nat) (h : hi + 1 = w) :
    bits (packBits ((w, v) :: fs)) hi 0 = v % 2 ^ w := by
  subst h
  simp [bits, packBits, Nat.add_mul_mod_self_left]

theorem bits_pack_skip (w v : Nat) (fs : List (Nat × Nat)) (hi lo : Nat) (h : w ≤ lo) (hl : lo ≤ hi) :
    bits (packBits ((w, v) :: fs)) hi lo = bits (packBits fs) (hi - w) (lo - w) := by
  have e : (v % 2 ^ w + 2 ^ w * packBits fs) / 2 ^ w = packBits fs := by
    rw [Nat.add_mul_div_left _ _ (Nat.two_pow_pos w), Nat.div_eq_of_lt (Nat.mod_lt _ (Nat.two_pow_pos w)), Nat.zero_add]
  have p : 2 ^ lo = 2 ^ w * 2 ^ (lo - w) := by rw [← Nat.pow_add]; congr 1; omega
  simp only [bits, packBits]
  rw [p, ← Nat.div_div_eq_div_mul, e]
  congr 2; omega

theorem bits_of_nil (hi lo : Nat) : bits (packBits []) hi lo = 0 := by simp [bits, packBits]

/-- A field that lies within the bytes kept reads as in the whole value. -/
theorem bits_mod (v hi lo k : Nat) (h : hi < k) (hl : lo ≤ hi) : bits (v % 2 ^ k) hi lo = bits v hi lo := by
  unfold bits
  have p : 2 ^ k = 2 ^ lo * 2 ^ (k - lo) := by rw [← Nat.pow_add]; congr 1; omega
  rw [p, Nat.mod_mul_right_div_self]
  exact Nat.mod_mod_of_dvd _ (Nat.pow_dvd_pow 2 (by omega))

/-- A field of a record of `n` bytes. -/
theorem bits_record (v n hi lo : Nat) (h : hi < 8 * n) (hl : lo ≤ hi) : bits (leNat (natLe v n)) hi lo = bits v hi lo := by
  rw [leNat_natLe, show (256 : Nat) ^ n = 2 ^ (8 * n) by rw [show (256 : Nat) = 2 ^ 8 by rfl, ← Nat.pow_mul]]
  exact bits_mod v hi lo (8 * n) h hl

end Sys2Proof.Machine
end

