-- ==== Sys2Proof/Laws/State.lean ====
section
/-! SUPPORT. The state's accessors and updates: a unit read after a unit is written, and every other field as before. -/

namespace Sys2Proof.Machine

variable (s : State)

/-! ## A unit after a unit is written -/

theorem State.tile_setTile (t u : TileId) (x : Tile) : (s.setTile t x).tile u = if u = t then x else s.tile u := by
  simp [State.tile, State.setTile, mapGet_put, Fin.ext_iff]

@[simp] theorem State.tile_setTile_self (t : TileId) (x : Tile) : (s.setTile t x).tile t = x := by simp [State.tile_setTile]

theorem State.tile_setTile_ne {t u : TileId} (x : Tile) (h : u ≠ t) : (s.setTile t x).tile u = s.tile u := by
  simp [State.tile_setTile, h]

@[simp] theorem State.tile_updTile_self (t : TileId) (f : Tile → Tile) : (s.updTile t f).tile t = f (s.tile t) := by
  simp [State.updTile]

theorem State.tile_updTile_ne {t u : TileId} (f : Tile → Tile) (h : u ≠ t) : (s.updTile t f).tile u = s.tile u := by
  simp [State.updTile, State.tile_setTile_ne _ _ h]

theorem State.die_setDie (d e : DieId) (x : Die) : (s.setDie d x).die e = if e = d then x else s.die e := by
  simp [State.die, State.setDie, mapGet_put, Fin.ext_iff]

@[simp] theorem State.die_setDie_self (d : DieId) (x : Die) : (s.setDie d x).die d = x := by simp [State.die_setDie]

theorem State.die_setDie_ne {d e : DieId} (x : Die) (h : e ≠ d) : (s.setDie d x).die e = s.die e := by
  simp [State.die_setDie, h]

@[simp] theorem State.die_updDie_self (d : DieId) (f : Die → Die) : (s.updDie d f).die d = f (s.die d) := by
  simp [State.updDie]

theorem State.die_updDie_ne {d e : DieId} (f : Die → Die) (h : e ≠ d) : (s.updDie d f).die e = s.die e := by
  simp [State.updDie, State.die_setDie_ne _ _ h]

theorem State.stack_setStack (k l : StackId) (x : Stack) : (s.setStack k x).stack l = if l = k then x else s.stack l := by
  simp [State.stack, State.setStack, mapGet_put, Fin.ext_iff]

@[simp] theorem State.stack_setStack_self (k : StackId) (x : Stack) : (s.setStack k x).stack k = x := by simp [State.stack_setStack]

theorem State.stack_setStack_ne {k l : StackId} (x : Stack) (h : l ≠ k) : (s.setStack k x).stack l = s.stack l := by
  simp [State.stack_setStack, h]

@[simp] theorem State.stack_updStack_self (k : StackId) (f : Stack → Stack) : (s.updStack k f).stack k = f (s.stack k) := by
  simp [State.updStack]

theorem State.stack_updStack_ne {k l : StackId} (f : Stack → Stack) (h : l ≠ k) : (s.updStack k f).stack l = s.stack l := by
  simp [State.updStack, State.stack_setStack_ne _ _ h]

theorem State.queue_setQueue (q r : QueueId) (x : Queue) : (s.setQueue q x).queue r = if r = q then x else s.queue r := by
  simp [State.queue, State.setQueue, mapGet_put, Fin.ext_iff]

@[simp] theorem State.queue_setQueue_self (q : QueueId) (x : Queue) : (s.setQueue q x).queue q = x := by simp [State.queue_setQueue]

theorem State.queue_setQueue_ne {q r : QueueId} (x : Queue) (h : r ≠ q) : (s.setQueue q x).queue r = s.queue r := by
  simp [State.queue_setQueue, h]

@[simp] theorem State.queue_updQueue_self (q : QueueId) (f : Queue → Queue) : (s.updQueue q f).queue q = f (s.queue q) := by
  simp [State.updQueue]

theorem State.queue_updQueue_ne {q r : QueueId} (f : Queue → Queue) (h : r ≠ q) : (s.updQueue q f).queue r = s.queue r := by
  simp [State.updQueue, State.queue_setQueue_ne _ _ h]

theorem State.part_setPart (p o : PartId) (x : Part) : (s.setPart p x).part o = if o = p then x else s.part o := by
  simp [State.part, State.setPart, mapGet_put, Fin.ext_iff]

@[simp] theorem State.part_setPart_self (p : PartId) (x : Part) : (s.setPart p x).part p = x := by simp [State.part_setPart]

theorem State.part_setPart_ne {p o : PartId} (x : Part) (h : o ≠ p) : (s.setPart p x).part o = s.part o := by
  simp [State.part_setPart, h]

@[simp] theorem State.part_updPart_self (p : PartId) (f : Part → Part) : (s.updPart p f).part p = f (s.part p) := by
  simp [State.updPart]

theorem State.part_updPart_ne {p o : PartId} (f : Part → Part) (h : o ≠ p) : (s.updPart p f).part o = s.part o := by
  simp [State.updPart, State.part_setPart_ne _ _ h]

theorem State.fn_setFn (f g : FnId) (x : Fn) : (s.setFn f x).fn g = if g = f then x else s.fn g := by
  simp [State.fn, State.setFn, mapGet_put, Fin.ext_iff]

@[simp] theorem State.fn_setFn_self (f : FnId) (x : Fn) : (s.setFn f x).fn f = x := by simp [State.fn_setFn]

theorem State.fn_setFn_ne {f g : FnId} (x : Fn) (h : g ≠ f) : (s.setFn f x).fn g = s.fn g := by
  simp [State.fn_setFn, h]

@[simp] theorem State.fn_updFn_self (f : FnId) (c : Fn → Fn) : (s.updFn f c).fn f = c (s.fn f) := by
  simp [State.updFn]

theorem State.fn_updFn_ne {f g : FnId} (c : Fn → Fn) (h : g ≠ f) : (s.updFn f c).fn g = s.fn g := by
  simp [State.updFn, State.fn_setFn_ne _ _ h]

theorem State.port_setPort (i j : PortId) (x : Port) : (s.setPort i x).port j = if j = i then x else s.port j := by
  simp [State.port, State.setPort, mapGet_put, Fin.ext_iff]

@[simp] theorem State.port_setPort_self (i : PortId) (x : Port) : (s.setPort i x).port i = x := by simp [State.port_setPort]

theorem State.port_setPort_ne {i j : PortId} (x : Port) (h : j ≠ i) : (s.setPort i x).port j = s.port j := by
  simp [State.port_setPort, h]

@[simp] theorem State.port_updPort_self (i : PortId) (f : Port → Port) : (s.updPort i f).port i = f (s.port i) := by
  simp [State.updPort]

theorem State.port_updPort_ne {i j : PortId} (f : Port → Port) (h : j ≠ i) : (s.updPort i f).port j = s.port j := by
  simp [State.updPort, State.port_setPort_ne _ _ h]

/-! ## Another unit after a unit is written -/

@[simp] theorem State.die_setTile (t : TileId) (x : Tile) (d : DieId) : (s.setTile t x).die d = s.die d := rfl
@[simp] theorem State.die_updTile (t : TileId) (h : Tile → Tile) (d : DieId) : (s.updTile t h).die d = s.die d := rfl
@[simp] theorem State.stack_setTile (t : TileId) (x : Tile) (k : StackId) : (s.setTile t x).stack k = s.stack k := rfl
@[simp] theorem State.stack_updTile (t : TileId) (h : Tile → Tile) (k : StackId) : (s.updTile t h).stack k = s.stack k := rfl
@[simp] theorem State.queue_setTile (t : TileId) (x : Tile) (q : QueueId) : (s.setTile t x).queue q = s.queue q := rfl
@[simp] theorem State.queue_updTile (t : TileId) (h : Tile → Tile) (q : QueueId) : (s.updTile t h).queue q = s.queue q := rfl
@[simp] theorem State.part_setTile (t : TileId) (x : Tile) (p : PartId) : (s.setTile t x).part p = s.part p := rfl
@[simp] theorem State.part_updTile (t : TileId) (h : Tile → Tile) (p : PartId) : (s.updTile t h).part p = s.part p := rfl
@[simp] theorem State.fn_setTile (t : TileId) (x : Tile) (f : FnId) : (s.setTile t x).fn f = s.fn f := rfl
@[simp] theorem State.fn_updTile (t : TileId) (h : Tile → Tile) (f : FnId) : (s.updTile t h).fn f = s.fn f := rfl
@[simp] theorem State.port_setTile (t : TileId) (x : Tile) (i : PortId) : (s.setTile t x).port i = s.port i := rfl
@[simp] theorem State.port_updTile (t : TileId) (h : Tile → Tile) (i : PortId) : (s.updTile t h).port i = s.port i := rfl
@[simp] theorem State.tile_setDie (d : DieId) (x : Die) (t : TileId) : (s.setDie d x).tile t = s.tile t := rfl
@[simp] theorem State.tile_updDie (d : DieId) (h : Die → Die) (t : TileId) : (s.updDie d h).tile t = s.tile t := rfl
@[simp] theorem State.stack_setDie (d : DieId) (x : Die) (k : StackId) : (s.setDie d x).stack k = s.stack k := rfl
@[simp] theorem State.stack_updDie (d : DieId) (h : Die → Die) (k : StackId) : (s.updDie d h).stack k = s.stack k := rfl
@[simp] theorem State.queue_setDie (d : DieId) (x : Die) (q : QueueId) : (s.setDie d x).queue q = s.queue q := rfl
@[simp] theorem State.queue_updDie (d : DieId) (h : Die → Die) (q : QueueId) : (s.updDie d h).queue q = s.queue q := rfl
@[simp] theorem State.part_setDie (d : DieId) (x : Die) (p : PartId) : (s.setDie d x).part p = s.part p := rfl
@[simp] theorem State.part_updDie (d : DieId) (h : Die → Die) (p : PartId) : (s.updDie d h).part p = s.part p := rfl
@[simp] theorem State.fn_setDie (d : DieId) (x : Die) (f : FnId) : (s.setDie d x).fn f = s.fn f := rfl
@[simp] theorem State.fn_updDie (d : DieId) (h : Die → Die) (f : FnId) : (s.updDie d h).fn f = s.fn f := rfl
@[simp] theorem State.port_setDie (d : DieId) (x : Die) (i : PortId) : (s.setDie d x).port i = s.port i := rfl
@[simp] theorem State.port_updDie (d : DieId) (h : Die → Die) (i : PortId) : (s.updDie d h).port i = s.port i := rfl
@[simp] theorem State.tile_setStack (k : StackId) (x : Stack) (t : TileId) : (s.setStack k x).tile t = s.tile t := rfl
@[simp] theorem State.tile_updStack (k : StackId) (h : Stack → Stack) (t : TileId) : (s.updStack k h).tile t = s.tile t := rfl
@[simp] theorem State.die_setStack (k : StackId) (x : Stack) (d : DieId) : (s.setStack k x).die d = s.die d := rfl
@[simp] theorem State.die_updStack (k : StackId) (h : Stack → Stack) (d : DieId) : (s.updStack k h).die d = s.die d := rfl
@[simp] theorem State.queue_setStack (k : StackId) (x : Stack) (q : QueueId) : (s.setStack k x).queue q = s.queue q := rfl
@[simp] theorem State.queue_updStack (k : StackId) (h : Stack → Stack) (q : QueueId) : (s.updStack k h).queue q = s.queue q := rfl
@[simp] theorem State.part_setStack (k : StackId) (x : Stack) (p : PartId) : (s.setStack k x).part p = s.part p := rfl
@[simp] theorem State.part_updStack (k : StackId) (h : Stack → Stack) (p : PartId) : (s.updStack k h).part p = s.part p := rfl
@[simp] theorem State.fn_setStack (k : StackId) (x : Stack) (f : FnId) : (s.setStack k x).fn f = s.fn f := rfl
@[simp] theorem State.fn_updStack (k : StackId) (h : Stack → Stack) (f : FnId) : (s.updStack k h).fn f = s.fn f := rfl
@[simp] theorem State.port_setStack (k : StackId) (x : Stack) (i : PortId) : (s.setStack k x).port i = s.port i := rfl
@[simp] theorem State.port_updStack (k : StackId) (h : Stack → Stack) (i : PortId) : (s.updStack k h).port i = s.port i := rfl
@[simp] theorem State.tile_setQueue (q : QueueId) (x : Queue) (t : TileId) : (s.setQueue q x).tile t = s.tile t := rfl
@[simp] theorem State.tile_updQueue (q : QueueId) (h : Queue → Queue) (t : TileId) : (s.updQueue q h).tile t = s.tile t := rfl
@[simp] theorem State.die_setQueue (q : QueueId) (x : Queue) (d : DieId) : (s.setQueue q x).die d = s.die d := rfl
@[simp] theorem State.die_updQueue (q : QueueId) (h : Queue → Queue) (d : DieId) : (s.updQueue q h).die d = s.die d := rfl
@[simp] theorem State.stack_setQueue (q : QueueId) (x : Queue) (k : StackId) : (s.setQueue q x).stack k = s.stack k := rfl
@[simp] theorem State.stack_updQueue (q : QueueId) (h : Queue → Queue) (k : StackId) : (s.updQueue q h).stack k = s.stack k := rfl
@[simp] theorem State.part_setQueue (q : QueueId) (x : Queue) (p : PartId) : (s.setQueue q x).part p = s.part p := rfl
@[simp] theorem State.part_updQueue (q : QueueId) (h : Queue → Queue) (p : PartId) : (s.updQueue q h).part p = s.part p := rfl
@[simp] theorem State.fn_setQueue (q : QueueId) (x : Queue) (f : FnId) : (s.setQueue q x).fn f = s.fn f := rfl
@[simp] theorem State.fn_updQueue (q : QueueId) (h : Queue → Queue) (f : FnId) : (s.updQueue q h).fn f = s.fn f := rfl
@[simp] theorem State.port_setQueue (q : QueueId) (x : Queue) (i : PortId) : (s.setQueue q x).port i = s.port i := rfl
@[simp] theorem State.port_updQueue (q : QueueId) (h : Queue → Queue) (i : PortId) : (s.updQueue q h).port i = s.port i := rfl
@[simp] theorem State.tile_setPart (p : PartId) (x : Part) (t : TileId) : (s.setPart p x).tile t = s.tile t := rfl
@[simp] theorem State.tile_updPart (p : PartId) (h : Part → Part) (t : TileId) : (s.updPart p h).tile t = s.tile t := rfl
@[simp] theorem State.die_setPart (p : PartId) (x : Part) (d : DieId) : (s.setPart p x).die d = s.die d := rfl
@[simp] theorem State.die_updPart (p : PartId) (h : Part → Part) (d : DieId) : (s.updPart p h).die d = s.die d := rfl
@[simp] theorem State.stack_setPart (p : PartId) (x : Part) (k : StackId) : (s.setPart p x).stack k = s.stack k := rfl
@[simp] theorem State.stack_updPart (p : PartId) (h : Part → Part) (k : StackId) : (s.updPart p h).stack k = s.stack k := rfl
@[simp] theorem State.queue_setPart (p : PartId) (x : Part) (q : QueueId) : (s.setPart p x).queue q = s.queue q := rfl
@[simp] theorem State.queue_updPart (p : PartId) (h : Part → Part) (q : QueueId) : (s.updPart p h).queue q = s.queue q := rfl
@[simp] theorem State.fn_setPart (p : PartId) (x : Part) (f : FnId) : (s.setPart p x).fn f = s.fn f := rfl
@[simp] theorem State.fn_updPart (p : PartId) (h : Part → Part) (f : FnId) : (s.updPart p h).fn f = s.fn f := rfl
@[simp] theorem State.port_setPart (p : PartId) (x : Part) (i : PortId) : (s.setPart p x).port i = s.port i := rfl
@[simp] theorem State.port_updPart (p : PartId) (h : Part → Part) (i : PortId) : (s.updPart p h).port i = s.port i := rfl
@[simp] theorem State.tile_setFn (f : FnId) (x : Fn) (t : TileId) : (s.setFn f x).tile t = s.tile t := rfl
@[simp] theorem State.tile_updFn (f : FnId) (h : Fn → Fn) (t : TileId) : (s.updFn f h).tile t = s.tile t := rfl
@[simp] theorem State.die_setFn (f : FnId) (x : Fn) (d : DieId) : (s.setFn f x).die d = s.die d := rfl
@[simp] theorem State.die_updFn (f : FnId) (h : Fn → Fn) (d : DieId) : (s.updFn f h).die d = s.die d := rfl
@[simp] theorem State.stack_setFn (f : FnId) (x : Fn) (k : StackId) : (s.setFn f x).stack k = s.stack k := rfl
@[simp] theorem State.stack_updFn (f : FnId) (h : Fn → Fn) (k : StackId) : (s.updFn f h).stack k = s.stack k := rfl
@[simp] theorem State.queue_setFn (f : FnId) (x : Fn) (q : QueueId) : (s.setFn f x).queue q = s.queue q := rfl
@[simp] theorem State.queue_updFn (f : FnId) (h : Fn → Fn) (q : QueueId) : (s.updFn f h).queue q = s.queue q := rfl
@[simp] theorem State.part_setFn (f : FnId) (x : Fn) (p : PartId) : (s.setFn f x).part p = s.part p := rfl
@[simp] theorem State.part_updFn (f : FnId) (h : Fn → Fn) (p : PartId) : (s.updFn f h).part p = s.part p := rfl
@[simp] theorem State.port_setFn (f : FnId) (x : Fn) (i : PortId) : (s.setFn f x).port i = s.port i := rfl
@[simp] theorem State.port_updFn (f : FnId) (h : Fn → Fn) (i : PortId) : (s.updFn f h).port i = s.port i := rfl
@[simp] theorem State.tile_setPort (i : PortId) (x : Port) (t : TileId) : (s.setPort i x).tile t = s.tile t := rfl
@[simp] theorem State.tile_updPort (i : PortId) (h : Port → Port) (t : TileId) : (s.updPort i h).tile t = s.tile t := rfl
@[simp] theorem State.die_setPort (i : PortId) (x : Port) (d : DieId) : (s.setPort i x).die d = s.die d := rfl
@[simp] theorem State.die_updPort (i : PortId) (h : Port → Port) (d : DieId) : (s.updPort i h).die d = s.die d := rfl
@[simp] theorem State.stack_setPort (i : PortId) (x : Port) (k : StackId) : (s.setPort i x).stack k = s.stack k := rfl
@[simp] theorem State.stack_updPort (i : PortId) (h : Port → Port) (k : StackId) : (s.updPort i h).stack k = s.stack k := rfl
@[simp] theorem State.queue_setPort (i : PortId) (x : Port) (q : QueueId) : (s.setPort i x).queue q = s.queue q := rfl
@[simp] theorem State.queue_updPort (i : PortId) (h : Port → Port) (q : QueueId) : (s.updPort i h).queue q = s.queue q := rfl
@[simp] theorem State.part_setPort (i : PortId) (x : Port) (p : PartId) : (s.setPort i x).part p = s.part p := rfl
@[simp] theorem State.part_updPort (i : PortId) (h : Port → Port) (p : PartId) : (s.updPort i h).part p = s.part p := rfl
@[simp] theorem State.fn_setPort (i : PortId) (x : Port) (f : FnId) : (s.setPort i x).fn f = s.fn f := rfl
@[simp] theorem State.fn_updPort (i : PortId) (h : Port → Port) (f : FnId) : (s.updPort i h).fn f = s.fn f := rfl

/-! ## The fields of the state after a unit is written -/

@[simp] theorem State.pending_setTile (t : TileId) (x : Tile) : (s.setTile t x).pending = s.pending := rfl
@[simp] theorem State.pending_updTile (t : TileId) (h : Tile → Tile) : (s.updTile t h).pending = s.pending := rfl
@[simp] theorem State.time_setTile (t : TileId) (x : Tile) : (s.setTile t x).time = s.time := rfl
@[simp] theorem State.time_updTile (t : TileId) (h : Tile → Tile) : (s.updTile t h).time = s.time := rfl
@[simp] theorem State.fresh_setTile (t : TileId) (x : Tile) : (s.setTile t x).fresh = s.fresh := rfl
@[simp] theorem State.fresh_updTile (t : TileId) (h : Tile → Tile) : (s.updTile t h).fresh = s.fresh := rfl
@[simp] theorem State.dies_setTile (t : TileId) (x : Tile) : (s.setTile t x).dies = s.dies := rfl
@[simp] theorem State.dies_updTile (t : TileId) (h : Tile → Tile) : (s.updTile t h).dies = s.dies := rfl
@[simp] theorem State.memStacks_setTile (t : TileId) (x : Tile) : (s.setTile t x).memStacks = s.memStacks := rfl
@[simp] theorem State.memStacks_updTile (t : TileId) (h : Tile → Tile) : (s.updTile t h).memStacks = s.memStacks := rfl
@[simp] theorem State.mem_setTile (t : TileId) (x : Tile) : (s.setTile t x).mem = s.mem := rfl
@[simp] theorem State.mem_updTile (t : TileId) (h : Tile → Tile) : (s.updTile t h).mem = s.mem := rfl
@[simp] theorem State.poison_setTile (t : TileId) (x : Tile) : (s.setTile t x).poison = s.poison := rfl
@[simp] theorem State.poison_updTile (t : TileId) (h : Tile → Tile) : (s.updTile t h).poison = s.poison := rfl
@[simp] theorem State.host_setTile (t : TileId) (x : Tile) : (s.setTile t x).host = s.host := rfl
@[simp] theorem State.host_updTile (t : TileId) (h : Tile → Tile) : (s.updTile t h).host = s.host := rfl
@[simp] theorem State.atsOn_setTile (t : TileId) (x : Tile) : (s.setTile t x).atsOn = s.atsOn := rfl
@[simp] theorem State.atsOn_updTile (t : TileId) (h : Tile → Tile) : (s.updTile t h).atsOn = s.atsOn := rfl
@[simp] theorem State.sems_setTile (t : TileId) (x : Tile) : (s.setTile t x).sems = s.sems := rfl
@[simp] theorem State.sems_updTile (t : TileId) (h : Tile → Tile) : (s.updTile t h).sems = s.sems := rfl
@[simp] theorem State.semWaits_setTile (t : TileId) (x : Tile) : (s.setTile t x).semWaits = s.semWaits := rfl
@[simp] theorem State.semWaits_updTile (t : TileId) (h : Tile → Tile) : (s.updTile t h).semWaits = s.semWaits := rfl
@[simp] theorem State.ctrs_setTile (t : TileId) (x : Tile) : (s.setTile t x).ctrs = s.ctrs := rfl
@[simp] theorem State.ctrs_updTile (t : TileId) (h : Tile → Tile) : (s.updTile t h).ctrs = s.ctrs := rfl
@[simp] theorem State.ctrWaits_setTile (t : TileId) (x : Tile) : (s.setTile t x).ctrWaits = s.ctrWaits := rfl
@[simp] theorem State.ctrWaits_updTile (t : TileId) (h : Tile → Tile) : (s.updTile t h).ctrWaits = s.ctrWaits := rfl
@[simp] theorem State.queues_setTile (t : TileId) (x : Tile) : (s.setTile t x).queues = s.queues := rfl
@[simp] theorem State.queues_updTile (t : TileId) (h : Tile → Tile) : (s.updTile t h).queues = s.queues := rfl
@[simp] theorem State.parts_setTile (t : TileId) (x : Tile) : (s.setTile t x).parts = s.parts := rfl
@[simp] theorem State.parts_updTile (t : TileId) (h : Tile → Tile) : (s.updTile t h).parts = s.parts := rfl
@[simp] theorem State.loans_setTile (t : TileId) (x : Tile) : (s.setTile t x).loans = s.loans := rfl
@[simp] theorem State.loans_updTile (t : TileId) (h : Tile → Tile) : (s.updTile t h).loans = s.loans := rfl
@[simp] theorem State.fns_setTile (t : TileId) (x : Tile) : (s.setTile t x).fns = s.fns := rfl
@[simp] theorem State.fns_updTile (t : TileId) (h : Tile → Tile) : (s.updTile t h).fns = s.fns := rfl
@[simp] theorem State.vfs_setTile (t : TileId) (x : Tile) : (s.setTile t x).vfs = s.vfs := rfl
@[simp] theorem State.vfs_updTile (t : TileId) (h : Tile → Tile) : (s.updTile t h).vfs = s.vfs := rfl
@[simp] theorem State.jobs_setTile (t : TileId) (x : Tile) : (s.setTile t x).jobs = s.jobs := rfl
@[simp] theorem State.jobs_updTile (t : TileId) (h : Tile → Tile) : (s.updTile t h).jobs = s.jobs := rfl
@[simp] theorem State.msixSent_setTile (t : TileId) (x : Tile) : (s.setTile t x).msixSent = s.msixSent := rfl
@[simp] theorem State.msixSent_updTile (t : TileId) (h : Tile → Tile) : (s.updTile t h).msixSent = s.msixSent := rfl
@[simp] theorem State.fab_setTile (t : TileId) (x : Tile) : (s.setTile t x).fab = s.fab := rfl
@[simp] theorem State.fab_updTile (t : TileId) (h : Tile → Tile) : (s.updTile t h).fab = s.fab := rfl
@[simp] theorem State.tb_setTile (t : TileId) (x : Tile) : (s.setTile t x).tb = s.tb := rfl
@[simp] theorem State.tb_updTile (t : TileId) (h : Tile → Tile) : (s.updTile t h).tb = s.tb := rfl
@[simp] theorem State.colls_setTile (t : TileId) (x : Tile) : (s.setTile t x).colls = s.colls := rfl
@[simp] theorem State.colls_updTile (t : TileId) (h : Tile → Tile) : (s.updTile t h).colls = s.colls := rfl
@[simp] theorem State.flt_setTile (t : TileId) (x : Tile) : (s.setTile t x).flt = s.flt := rfl
@[simp] theorem State.flt_updTile (t : TileId) (h : Tile → Tile) : (s.updTile t h).flt = s.flt := rfl
@[simp] theorem State.xqs_setTile (t : TileId) (x : Tile) : (s.setTile t x).xqs = s.xqs := rfl
@[simp] theorem State.xqs_updTile (t : TileId) (h : Tile → Tile) : (s.updTile t h).xqs = s.xqs := rfl
@[simp] theorem State.capo_setTile (t : TileId) (x : Tile) : (s.setTile t x).capo = s.capo := rfl
@[simp] theorem State.capo_updTile (t : TileId) (h : Tile → Tile) : (s.updTile t h).capo = s.capo := rfl
@[simp] theorem State.pow_setTile (t : TileId) (x : Tile) : (s.setTile t x).pow = s.pow := rfl
@[simp] theorem State.pow_updTile (t : TileId) (h : Tile → Tile) : (s.updTile t h).pow = s.pow := rfl
@[simp] theorem State.boot_setTile (t : TileId) (x : Tile) : (s.setTile t x).boot = s.boot := rfl
@[simp] theorem State.boot_updTile (t : TileId) (h : Tile → Tile) : (s.updTile t h).boot = s.boot := rfl
@[simp] theorem State.tel_setTile (t : TileId) (x : Tile) : (s.setTile t x).tel = s.tel := rfl
@[simp] theorem State.tel_updTile (t : TileId) (h : Tile → Tile) : (s.updTile t h).tel = s.tel := rfl
@[simp] theorem State.side_setTile (t : TileId) (x : Tile) : (s.setTile t x).side = s.side := rfl
@[simp] theorem State.side_updTile (t : TileId) (h : Tile → Tile) : (s.updTile t h).side = s.side := rfl
@[simp] theorem State.pending_setDie (d : DieId) (x : Die) : (s.setDie d x).pending = s.pending := rfl
@[simp] theorem State.pending_updDie (d : DieId) (h : Die → Die) : (s.updDie d h).pending = s.pending := rfl
@[simp] theorem State.time_setDie (d : DieId) (x : Die) : (s.setDie d x).time = s.time := rfl
@[simp] theorem State.time_updDie (d : DieId) (h : Die → Die) : (s.updDie d h).time = s.time := rfl
@[simp] theorem State.fresh_setDie (d : DieId) (x : Die) : (s.setDie d x).fresh = s.fresh := rfl
@[simp] theorem State.fresh_updDie (d : DieId) (h : Die → Die) : (s.updDie d h).fresh = s.fresh := rfl
@[simp] theorem State.tiles_setDie (d : DieId) (x : Die) : (s.setDie d x).tiles = s.tiles := rfl
@[simp] theorem State.tiles_updDie (d : DieId) (h : Die → Die) : (s.updDie d h).tiles = s.tiles := rfl
@[simp] theorem State.memStacks_setDie (d : DieId) (x : Die) : (s.setDie d x).memStacks = s.memStacks := rfl
@[simp] theorem State.memStacks_updDie (d : DieId) (h : Die → Die) : (s.updDie d h).memStacks = s.memStacks := rfl
@[simp] theorem State.mem_setDie (d : DieId) (x : Die) : (s.setDie d x).mem = s.mem := rfl
@[simp] theorem State.mem_updDie (d : DieId) (h : Die → Die) : (s.updDie d h).mem = s.mem := rfl
@[simp] theorem State.poison_setDie (d : DieId) (x : Die) : (s.setDie d x).poison = s.poison := rfl
@[simp] theorem State.poison_updDie (d : DieId) (h : Die → Die) : (s.updDie d h).poison = s.poison := rfl
@[simp] theorem State.host_setDie (d : DieId) (x : Die) : (s.setDie d x).host = s.host := rfl
@[simp] theorem State.host_updDie (d : DieId) (h : Die → Die) : (s.updDie d h).host = s.host := rfl
@[simp] theorem State.atsOn_setDie (d : DieId) (x : Die) : (s.setDie d x).atsOn = s.atsOn := rfl
@[simp] theorem State.atsOn_updDie (d : DieId) (h : Die → Die) : (s.updDie d h).atsOn = s.atsOn := rfl
@[simp] theorem State.sems_setDie (d : DieId) (x : Die) : (s.setDie d x).sems = s.sems := rfl
@[simp] theorem State.sems_updDie (d : DieId) (h : Die → Die) : (s.updDie d h).sems = s.sems := rfl
@[simp] theorem State.semWaits_setDie (d : DieId) (x : Die) : (s.setDie d x).semWaits = s.semWaits := rfl
@[simp] theorem State.semWaits_updDie (d : DieId) (h : Die → Die) : (s.updDie d h).semWaits = s.semWaits := rfl
@[simp] theorem State.ctrs_setDie (d : DieId) (x : Die) : (s.setDie d x).ctrs = s.ctrs := rfl
@[simp] theorem State.ctrs_updDie (d : DieId) (h : Die → Die) : (s.updDie d h).ctrs = s.ctrs := rfl
@[simp] theorem State.ctrWaits_setDie (d : DieId) (x : Die) : (s.setDie d x).ctrWaits = s.ctrWaits := rfl
@[simp] theorem State.ctrWaits_updDie (d : DieId) (h : Die → Die) : (s.updDie d h).ctrWaits = s.ctrWaits := rfl
@[simp] theorem State.queues_setDie (d : DieId) (x : Die) : (s.setDie d x).queues = s.queues := rfl
@[simp] theorem State.queues_updDie (d : DieId) (h : Die → Die) : (s.updDie d h).queues = s.queues := rfl
@[simp] theorem State.parts_setDie (d : DieId) (x : Die) : (s.setDie d x).parts = s.parts := rfl
@[simp] theorem State.parts_updDie (d : DieId) (h : Die → Die) : (s.updDie d h).parts = s.parts := rfl
@[simp] theorem State.loans_setDie (d : DieId) (x : Die) : (s.setDie d x).loans = s.loans := rfl
@[simp] theorem State.loans_updDie (d : DieId) (h : Die → Die) : (s.updDie d h).loans = s.loans := rfl
@[simp] theorem State.fns_setDie (d : DieId) (x : Die) : (s.setDie d x).fns = s.fns := rfl
@[simp] theorem State.fns_updDie (d : DieId) (h : Die → Die) : (s.updDie d h).fns = s.fns := rfl
@[simp] theorem State.vfs_setDie (d : DieId) (x : Die) : (s.setDie d x).vfs = s.vfs := rfl
@[simp] theorem State.vfs_updDie (d : DieId) (h : Die → Die) : (s.updDie d h).vfs = s.vfs := rfl
@[simp] theorem State.jobs_setDie (d : DieId) (x : Die) : (s.setDie d x).jobs = s.jobs := rfl
@[simp] theorem State.jobs_updDie (d : DieId) (h : Die → Die) : (s.updDie d h).jobs = s.jobs := rfl
@[simp] theorem State.msixSent_setDie (d : DieId) (x : Die) : (s.setDie d x).msixSent = s.msixSent := rfl
@[simp] theorem State.msixSent_updDie (d : DieId) (h : Die → Die) : (s.updDie d h).msixSent = s.msixSent := rfl
@[simp] theorem State.fab_setDie (d : DieId) (x : Die) : (s.setDie d x).fab = s.fab := rfl
@[simp] theorem State.fab_updDie (d : DieId) (h : Die → Die) : (s.updDie d h).fab = s.fab := rfl
@[simp] theorem State.tb_setDie (d : DieId) (x : Die) : (s.setDie d x).tb = s.tb := rfl
@[simp] theorem State.tb_updDie (d : DieId) (h : Die → Die) : (s.updDie d h).tb = s.tb := rfl
@[simp] theorem State.colls_setDie (d : DieId) (x : Die) : (s.setDie d x).colls = s.colls := rfl
@[simp] theorem State.colls_updDie (d : DieId) (h : Die → Die) : (s.updDie d h).colls = s.colls := rfl
@[simp] theorem State.flt_setDie (d : DieId) (x : Die) : (s.setDie d x).flt = s.flt := rfl
@[simp] theorem State.flt_updDie (d : DieId) (h : Die → Die) : (s.updDie d h).flt = s.flt := rfl
@[simp] theorem State.xqs_setDie (d : DieId) (x : Die) : (s.setDie d x).xqs = s.xqs := rfl
@[simp] theorem State.xqs_updDie (d : DieId) (h : Die → Die) : (s.updDie d h).xqs = s.xqs := rfl
@[simp] theorem State.capo_setDie (d : DieId) (x : Die) : (s.setDie d x).capo = s.capo := rfl
@[simp] theorem State.capo_updDie (d : DieId) (h : Die → Die) : (s.updDie d h).capo = s.capo := rfl
@[simp] theorem State.pow_setDie (d : DieId) (x : Die) : (s.setDie d x).pow = s.pow := rfl
@[simp] theorem State.pow_updDie (d : DieId) (h : Die → Die) : (s.updDie d h).pow = s.pow := rfl
@[simp] theorem State.boot_setDie (d : DieId) (x : Die) : (s.setDie d x).boot = s.boot := rfl
@[simp] theorem State.boot_updDie (d : DieId) (h : Die → Die) : (s.updDie d h).boot = s.boot := rfl
@[simp] theorem State.tel_setDie (d : DieId) (x : Die) : (s.setDie d x).tel = s.tel := rfl
@[simp] theorem State.tel_updDie (d : DieId) (h : Die → Die) : (s.updDie d h).tel = s.tel := rfl
@[simp] theorem State.side_setDie (d : DieId) (x : Die) : (s.setDie d x).side = s.side := rfl
@[simp] theorem State.side_updDie (d : DieId) (h : Die → Die) : (s.updDie d h).side = s.side := rfl
@[simp] theorem State.pending_setStack (k : StackId) (x : Stack) : (s.setStack k x).pending = s.pending := rfl
@[simp] theorem State.pending_updStack (k : StackId) (h : Stack → Stack) : (s.updStack k h).pending = s.pending := rfl
@[simp] theorem State.time_setStack (k : StackId) (x : Stack) : (s.setStack k x).time = s.time := rfl
@[simp] theorem State.time_updStack (k : StackId) (h : Stack → Stack) : (s.updStack k h).time = s.time := rfl
@[simp] theorem State.fresh_setStack (k : StackId) (x : Stack) : (s.setStack k x).fresh = s.fresh := rfl
@[simp] theorem State.fresh_updStack (k : StackId) (h : Stack → Stack) : (s.updStack k h).fresh = s.fresh := rfl
@[simp] theorem State.tiles_setStack (k : StackId) (x : Stack) : (s.setStack k x).tiles = s.tiles := rfl
@[simp] theorem State.tiles_updStack (k : StackId) (h : Stack → Stack) : (s.updStack k h).tiles = s.tiles := rfl
@[simp] theorem State.dies_setStack (k : StackId) (x : Stack) : (s.setStack k x).dies = s.dies := rfl
@[simp] theorem State.dies_updStack (k : StackId) (h : Stack → Stack) : (s.updStack k h).dies = s.dies := rfl
@[simp] theorem State.mem_setStack (k : StackId) (x : Stack) : (s.setStack k x).mem = s.mem := rfl
@[simp] theorem State.mem_updStack (k : StackId) (h : Stack → Stack) : (s.updStack k h).mem = s.mem := rfl
@[simp] theorem State.poison_setStack (k : StackId) (x : Stack) : (s.setStack k x).poison = s.poison := rfl
@[simp] theorem State.poison_updStack (k : StackId) (h : Stack → Stack) : (s.updStack k h).poison = s.poison := rfl
@[simp] theorem State.host_setStack (k : StackId) (x : Stack) : (s.setStack k x).host = s.host := rfl
@[simp] theorem State.host_updStack (k : StackId) (h : Stack → Stack) : (s.updStack k h).host = s.host := rfl
@[simp] theorem State.atsOn_setStack (k : StackId) (x : Stack) : (s.setStack k x).atsOn = s.atsOn := rfl
@[simp] theorem State.atsOn_updStack (k : StackId) (h : Stack → Stack) : (s.updStack k h).atsOn = s.atsOn := rfl
@[simp] theorem State.sems_setStack (k : StackId) (x : Stack) : (s.setStack k x).sems = s.sems := rfl
@[simp] theorem State.sems_updStack (k : StackId) (h : Stack → Stack) : (s.updStack k h).sems = s.sems := rfl
@[simp] theorem State.semWaits_setStack (k : StackId) (x : Stack) : (s.setStack k x).semWaits = s.semWaits := rfl
@[simp] theorem State.semWaits_updStack (k : StackId) (h : Stack → Stack) : (s.updStack k h).semWaits = s.semWaits := rfl
@[simp] theorem State.ctrs_setStack (k : StackId) (x : Stack) : (s.setStack k x).ctrs = s.ctrs := rfl
@[simp] theorem State.ctrs_updStack (k : StackId) (h : Stack → Stack) : (s.updStack k h).ctrs = s.ctrs := rfl
@[simp] theorem State.ctrWaits_setStack (k : StackId) (x : Stack) : (s.setStack k x).ctrWaits = s.ctrWaits := rfl
@[simp] theorem State.ctrWaits_updStack (k : StackId) (h : Stack → Stack) : (s.updStack k h).ctrWaits = s.ctrWaits := rfl
@[simp] theorem State.queues_setStack (k : StackId) (x : Stack) : (s.setStack k x).queues = s.queues := rfl
@[simp] theorem State.queues_updStack (k : StackId) (h : Stack → Stack) : (s.updStack k h).queues = s.queues := rfl
@[simp] theorem State.parts_setStack (k : StackId) (x : Stack) : (s.setStack k x).parts = s.parts := rfl
@[simp] theorem State.parts_updStack (k : StackId) (h : Stack → Stack) : (s.updStack k h).parts = s.parts := rfl
@[simp] theorem State.loans_setStack (k : StackId) (x : Stack) : (s.setStack k x).loans = s.loans := rfl
@[simp] theorem State.loans_updStack (k : StackId) (h : Stack → Stack) : (s.updStack k h).loans = s.loans := rfl
@[simp] theorem State.fns_setStack (k : StackId) (x : Stack) : (s.setStack k x).fns = s.fns := rfl
@[simp] theorem State.fns_updStack (k : StackId) (h : Stack → Stack) : (s.updStack k h).fns = s.fns := rfl
@[simp] theorem State.vfs_setStack (k : StackId) (x : Stack) : (s.setStack k x).vfs = s.vfs := rfl
@[simp] theorem State.vfs_updStack (k : StackId) (h : Stack → Stack) : (s.updStack k h).vfs = s.vfs := rfl
@[simp] theorem State.jobs_setStack (k : StackId) (x : Stack) : (s.setStack k x).jobs = s.jobs := rfl
@[simp] theorem State.jobs_updStack (k : StackId) (h : Stack → Stack) : (s.updStack k h).jobs = s.jobs := rfl
@[simp] theorem State.msixSent_setStack (k : StackId) (x : Stack) : (s.setStack k x).msixSent = s.msixSent := rfl
@[simp] theorem State.msixSent_updStack (k : StackId) (h : Stack → Stack) : (s.updStack k h).msixSent = s.msixSent := rfl
@[simp] theorem State.fab_setStack (k : StackId) (x : Stack) : (s.setStack k x).fab = s.fab := rfl
@[simp] theorem State.fab_updStack (k : StackId) (h : Stack → Stack) : (s.updStack k h).fab = s.fab := rfl
@[simp] theorem State.tb_setStack (k : StackId) (x : Stack) : (s.setStack k x).tb = s.tb := rfl
@[simp] theorem State.tb_updStack (k : StackId) (h : Stack → Stack) : (s.updStack k h).tb = s.tb := rfl
@[simp] theorem State.colls_setStack (k : StackId) (x : Stack) : (s.setStack k x).colls = s.colls := rfl
@[simp] theorem State.colls_updStack (k : StackId) (h : Stack → Stack) : (s.updStack k h).colls = s.colls := rfl
@[simp] theorem State.flt_setStack (k : StackId) (x : Stack) : (s.setStack k x).flt = s.flt := rfl
@[simp] theorem State.flt_updStack (k : StackId) (h : Stack → Stack) : (s.updStack k h).flt = s.flt := rfl
@[simp] theorem State.xqs_setStack (k : StackId) (x : Stack) : (s.setStack k x).xqs = s.xqs := rfl
@[simp] theorem State.xqs_updStack (k : StackId) (h : Stack → Stack) : (s.updStack k h).xqs = s.xqs := rfl
@[simp] theorem State.capo_setStack (k : StackId) (x : Stack) : (s.setStack k x).capo = s.capo := rfl
@[simp] theorem State.capo_updStack (k : StackId) (h : Stack → Stack) : (s.updStack k h).capo = s.capo := rfl
@[simp] theorem State.pow_setStack (k : StackId) (x : Stack) : (s.setStack k x).pow = s.pow := rfl
@[simp] theorem State.pow_updStack (k : StackId) (h : Stack → Stack) : (s.updStack k h).pow = s.pow := rfl
@[simp] theorem State.boot_setStack (k : StackId) (x : Stack) : (s.setStack k x).boot = s.boot := rfl
@[simp] theorem State.boot_updStack (k : StackId) (h : Stack → Stack) : (s.updStack k h).boot = s.boot := rfl
@[simp] theorem State.tel_setStack (k : StackId) (x : Stack) : (s.setStack k x).tel = s.tel := rfl
@[simp] theorem State.tel_updStack (k : StackId) (h : Stack → Stack) : (s.updStack k h).tel = s.tel := rfl
@[simp] theorem State.side_setStack (k : StackId) (x : Stack) : (s.setStack k x).side = s.side := rfl
@[simp] theorem State.side_updStack (k : StackId) (h : Stack → Stack) : (s.updStack k h).side = s.side := rfl
@[simp] theorem State.pending_setQueue (q : QueueId) (x : Queue) : (s.setQueue q x).pending = s.pending := rfl
@[simp] theorem State.pending_updQueue (q : QueueId) (h : Queue → Queue) : (s.updQueue q h).pending = s.pending := rfl
@[simp] theorem State.time_setQueue (q : QueueId) (x : Queue) : (s.setQueue q x).time = s.time := rfl
@[simp] theorem State.time_updQueue (q : QueueId) (h : Queue → Queue) : (s.updQueue q h).time = s.time := rfl
@[simp] theorem State.fresh_setQueue (q : QueueId) (x : Queue) : (s.setQueue q x).fresh = s.fresh := rfl
@[simp] theorem State.fresh_updQueue (q : QueueId) (h : Queue → Queue) : (s.updQueue q h).fresh = s.fresh := rfl
@[simp] theorem State.tiles_setQueue (q : QueueId) (x : Queue) : (s.setQueue q x).tiles = s.tiles := rfl
@[simp] theorem State.tiles_updQueue (q : QueueId) (h : Queue → Queue) : (s.updQueue q h).tiles = s.tiles := rfl
@[simp] theorem State.dies_setQueue (q : QueueId) (x : Queue) : (s.setQueue q x).dies = s.dies := rfl
@[simp] theorem State.dies_updQueue (q : QueueId) (h : Queue → Queue) : (s.updQueue q h).dies = s.dies := rfl
@[simp] theorem State.memStacks_setQueue (q : QueueId) (x : Queue) : (s.setQueue q x).memStacks = s.memStacks := rfl
@[simp] theorem State.memStacks_updQueue (q : QueueId) (h : Queue → Queue) : (s.updQueue q h).memStacks = s.memStacks := rfl
@[simp] theorem State.mem_setQueue (q : QueueId) (x : Queue) : (s.setQueue q x).mem = s.mem := rfl
@[simp] theorem State.mem_updQueue (q : QueueId) (h : Queue → Queue) : (s.updQueue q h).mem = s.mem := rfl
@[simp] theorem State.poison_setQueue (q : QueueId) (x : Queue) : (s.setQueue q x).poison = s.poison := rfl
@[simp] theorem State.poison_updQueue (q : QueueId) (h : Queue → Queue) : (s.updQueue q h).poison = s.poison := rfl
@[simp] theorem State.host_setQueue (q : QueueId) (x : Queue) : (s.setQueue q x).host = s.host := rfl
@[simp] theorem State.host_updQueue (q : QueueId) (h : Queue → Queue) : (s.updQueue q h).host = s.host := rfl
@[simp] theorem State.atsOn_setQueue (q : QueueId) (x : Queue) : (s.setQueue q x).atsOn = s.atsOn := rfl
@[simp] theorem State.atsOn_updQueue (q : QueueId) (h : Queue → Queue) : (s.updQueue q h).atsOn = s.atsOn := rfl
@[simp] theorem State.sems_setQueue (q : QueueId) (x : Queue) : (s.setQueue q x).sems = s.sems := rfl
@[simp] theorem State.sems_updQueue (q : QueueId) (h : Queue → Queue) : (s.updQueue q h).sems = s.sems := rfl
@[simp] theorem State.semWaits_setQueue (q : QueueId) (x : Queue) : (s.setQueue q x).semWaits = s.semWaits := rfl
@[simp] theorem State.semWaits_updQueue (q : QueueId) (h : Queue → Queue) : (s.updQueue q h).semWaits = s.semWaits := rfl
@[simp] theorem State.ctrs_setQueue (q : QueueId) (x : Queue) : (s.setQueue q x).ctrs = s.ctrs := rfl
@[simp] theorem State.ctrs_updQueue (q : QueueId) (h : Queue → Queue) : (s.updQueue q h).ctrs = s.ctrs := rfl
@[simp] theorem State.ctrWaits_setQueue (q : QueueId) (x : Queue) : (s.setQueue q x).ctrWaits = s.ctrWaits := rfl
@[simp] theorem State.ctrWaits_updQueue (q : QueueId) (h : Queue → Queue) : (s.updQueue q h).ctrWaits = s.ctrWaits := rfl
@[simp] theorem State.parts_setQueue (q : QueueId) (x : Queue) : (s.setQueue q x).parts = s.parts := rfl
@[simp] theorem State.parts_updQueue (q : QueueId) (h : Queue → Queue) : (s.updQueue q h).parts = s.parts := rfl
@[simp] theorem State.loans_setQueue (q : QueueId) (x : Queue) : (s.setQueue q x).loans = s.loans := rfl
@[simp] theorem State.loans_updQueue (q : QueueId) (h : Queue → Queue) : (s.updQueue q h).loans = s.loans := rfl
@[simp] theorem State.fns_setQueue (q : QueueId) (x : Queue) : (s.setQueue q x).fns = s.fns := rfl
@[simp] theorem State.fns_updQueue (q : QueueId) (h : Queue → Queue) : (s.updQueue q h).fns = s.fns := rfl
@[simp] theorem State.vfs_setQueue (q : QueueId) (x : Queue) : (s.setQueue q x).vfs = s.vfs := rfl
@[simp] theorem State.vfs_updQueue (q : QueueId) (h : Queue → Queue) : (s.updQueue q h).vfs = s.vfs := rfl
@[simp] theorem State.jobs_setQueue (q : QueueId) (x : Queue) : (s.setQueue q x).jobs = s.jobs := rfl
@[simp] theorem State.jobs_updQueue (q : QueueId) (h : Queue → Queue) : (s.updQueue q h).jobs = s.jobs := rfl
@[simp] theorem State.msixSent_setQueue (q : QueueId) (x : Queue) : (s.setQueue q x).msixSent = s.msixSent := rfl
@[simp] theorem State.msixSent_updQueue (q : QueueId) (h : Queue → Queue) : (s.updQueue q h).msixSent = s.msixSent := rfl
@[simp] theorem State.fab_setQueue (q : QueueId) (x : Queue) : (s.setQueue q x).fab = s.fab := rfl
@[simp] theorem State.fab_updQueue (q : QueueId) (h : Queue → Queue) : (s.updQueue q h).fab = s.fab := rfl
@[simp] theorem State.tb_setQueue (q : QueueId) (x : Queue) : (s.setQueue q x).tb = s.tb := rfl
@[simp] theorem State.tb_updQueue (q : QueueId) (h : Queue → Queue) : (s.updQueue q h).tb = s.tb := rfl
@[simp] theorem State.colls_setQueue (q : QueueId) (x : Queue) : (s.setQueue q x).colls = s.colls := rfl
@[simp] theorem State.colls_updQueue (q : QueueId) (h : Queue → Queue) : (s.updQueue q h).colls = s.colls := rfl
@[simp] theorem State.flt_setQueue (q : QueueId) (x : Queue) : (s.setQueue q x).flt = s.flt := rfl
@[simp] theorem State.flt_updQueue (q : QueueId) (h : Queue → Queue) : (s.updQueue q h).flt = s.flt := rfl
@[simp] theorem State.xqs_setQueue (q : QueueId) (x : Queue) : (s.setQueue q x).xqs = s.xqs := rfl
@[simp] theorem State.xqs_updQueue (q : QueueId) (h : Queue → Queue) : (s.updQueue q h).xqs = s.xqs := rfl
@[simp] theorem State.capo_setQueue (q : QueueId) (x : Queue) : (s.setQueue q x).capo = s.capo := rfl
@[simp] theorem State.capo_updQueue (q : QueueId) (h : Queue → Queue) : (s.updQueue q h).capo = s.capo := rfl
@[simp] theorem State.pow_setQueue (q : QueueId) (x : Queue) : (s.setQueue q x).pow = s.pow := rfl
@[simp] theorem State.pow_updQueue (q : QueueId) (h : Queue → Queue) : (s.updQueue q h).pow = s.pow := rfl
@[simp] theorem State.boot_setQueue (q : QueueId) (x : Queue) : (s.setQueue q x).boot = s.boot := rfl
@[simp] theorem State.boot_updQueue (q : QueueId) (h : Queue → Queue) : (s.updQueue q h).boot = s.boot := rfl
@[simp] theorem State.tel_setQueue (q : QueueId) (x : Queue) : (s.setQueue q x).tel = s.tel := rfl
@[simp] theorem State.tel_updQueue (q : QueueId) (h : Queue → Queue) : (s.updQueue q h).tel = s.tel := rfl
@[simp] theorem State.side_setQueue (q : QueueId) (x : Queue) : (s.setQueue q x).side = s.side := rfl
@[simp] theorem State.side_updQueue (q : QueueId) (h : Queue → Queue) : (s.updQueue q h).side = s.side := rfl
@[simp] theorem State.pending_setPart (p : PartId) (x : Part) : (s.setPart p x).pending = s.pending := rfl
@[simp] theorem State.pending_updPart (p : PartId) (h : Part → Part) : (s.updPart p h).pending = s.pending := rfl
@[simp] theorem State.time_setPart (p : PartId) (x : Part) : (s.setPart p x).time = s.time := rfl
@[simp] theorem State.time_updPart (p : PartId) (h : Part → Part) : (s.updPart p h).time = s.time := rfl
@[simp] theorem State.fresh_setPart (p : PartId) (x : Part) : (s.setPart p x).fresh = s.fresh := rfl
@[simp] theorem State.fresh_updPart (p : PartId) (h : Part → Part) : (s.updPart p h).fresh = s.fresh := rfl
@[simp] theorem State.tiles_setPart (p : PartId) (x : Part) : (s.setPart p x).tiles = s.tiles := rfl
@[simp] theorem State.tiles_updPart (p : PartId) (h : Part → Part) : (s.updPart p h).tiles = s.tiles := rfl
@[simp] theorem State.dies_setPart (p : PartId) (x : Part) : (s.setPart p x).dies = s.dies := rfl
@[simp] theorem State.dies_updPart (p : PartId) (h : Part → Part) : (s.updPart p h).dies = s.dies := rfl
@[simp] theorem State.memStacks_setPart (p : PartId) (x : Part) : (s.setPart p x).memStacks = s.memStacks := rfl
@[simp] theorem State.memStacks_updPart (p : PartId) (h : Part → Part) : (s.updPart p h).memStacks = s.memStacks := rfl
@[simp] theorem State.mem_setPart (p : PartId) (x : Part) : (s.setPart p x).mem = s.mem := rfl
@[simp] theorem State.mem_updPart (p : PartId) (h : Part → Part) : (s.updPart p h).mem = s.mem := rfl
@[simp] theorem State.poison_setPart (p : PartId) (x : Part) : (s.setPart p x).poison = s.poison := rfl
@[simp] theorem State.poison_updPart (p : PartId) (h : Part → Part) : (s.updPart p h).poison = s.poison := rfl
@[simp] theorem State.host_setPart (p : PartId) (x : Part) : (s.setPart p x).host = s.host := rfl
@[simp] theorem State.host_updPart (p : PartId) (h : Part → Part) : (s.updPart p h).host = s.host := rfl
@[simp] theorem State.atsOn_setPart (p : PartId) (x : Part) : (s.setPart p x).atsOn = s.atsOn := rfl
@[simp] theorem State.atsOn_updPart (p : PartId) (h : Part → Part) : (s.updPart p h).atsOn = s.atsOn := rfl
@[simp] theorem State.sems_setPart (p : PartId) (x : Part) : (s.setPart p x).sems = s.sems := rfl
@[simp] theorem State.sems_updPart (p : PartId) (h : Part → Part) : (s.updPart p h).sems = s.sems := rfl
@[simp] theorem State.semWaits_setPart (p : PartId) (x : Part) : (s.setPart p x).semWaits = s.semWaits := rfl
@[simp] theorem State.semWaits_updPart (p : PartId) (h : Part → Part) : (s.updPart p h).semWaits = s.semWaits := rfl
@[simp] theorem State.ctrs_setPart (p : PartId) (x : Part) : (s.setPart p x).ctrs = s.ctrs := rfl
@[simp] theorem State.ctrs_updPart (p : PartId) (h : Part → Part) : (s.updPart p h).ctrs = s.ctrs := rfl
@[simp] theorem State.ctrWaits_setPart (p : PartId) (x : Part) : (s.setPart p x).ctrWaits = s.ctrWaits := rfl
@[simp] theorem State.ctrWaits_updPart (p : PartId) (h : Part → Part) : (s.updPart p h).ctrWaits = s.ctrWaits := rfl
@[simp] theorem State.queues_setPart (p : PartId) (x : Part) : (s.setPart p x).queues = s.queues := rfl
@[simp] theorem State.queues_updPart (p : PartId) (h : Part → Part) : (s.updPart p h).queues = s.queues := rfl
@[simp] theorem State.loans_setPart (p : PartId) (x : Part) : (s.setPart p x).loans = s.loans := rfl
@[simp] theorem State.loans_updPart (p : PartId) (h : Part → Part) : (s.updPart p h).loans = s.loans := rfl
@[simp] theorem State.fns_setPart (p : PartId) (x : Part) : (s.setPart p x).fns = s.fns := rfl
@[simp] theorem State.fns_updPart (p : PartId) (h : Part → Part) : (s.updPart p h).fns = s.fns := rfl
@[simp] theorem State.vfs_setPart (p : PartId) (x : Part) : (s.setPart p x).vfs = s.vfs := rfl
@[simp] theorem State.vfs_updPart (p : PartId) (h : Part → Part) : (s.updPart p h).vfs = s.vfs := rfl
@[simp] theorem State.jobs_setPart (p : PartId) (x : Part) : (s.setPart p x).jobs = s.jobs := rfl
@[simp] theorem State.jobs_updPart (p : PartId) (h : Part → Part) : (s.updPart p h).jobs = s.jobs := rfl
@[simp] theorem State.msixSent_setPart (p : PartId) (x : Part) : (s.setPart p x).msixSent = s.msixSent := rfl
@[simp] theorem State.msixSent_updPart (p : PartId) (h : Part → Part) : (s.updPart p h).msixSent = s.msixSent := rfl
@[simp] theorem State.fab_setPart (p : PartId) (x : Part) : (s.setPart p x).fab = s.fab := rfl
@[simp] theorem State.fab_updPart (p : PartId) (h : Part → Part) : (s.updPart p h).fab = s.fab := rfl
@[simp] theorem State.tb_setPart (p : PartId) (x : Part) : (s.setPart p x).tb = s.tb := rfl
@[simp] theorem State.tb_updPart (p : PartId) (h : Part → Part) : (s.updPart p h).tb = s.tb := rfl
@[simp] theorem State.colls_setPart (p : PartId) (x : Part) : (s.setPart p x).colls = s.colls := rfl
@[simp] theorem State.colls_updPart (p : PartId) (h : Part → Part) : (s.updPart p h).colls = s.colls := rfl
@[simp] theorem State.flt_setPart (p : PartId) (x : Part) : (s.setPart p x).flt = s.flt := rfl
@[simp] theorem State.flt_updPart (p : PartId) (h : Part → Part) : (s.updPart p h).flt = s.flt := rfl
@[simp] theorem State.xqs_setPart (p : PartId) (x : Part) : (s.setPart p x).xqs = s.xqs := rfl
@[simp] theorem State.xqs_updPart (p : PartId) (h : Part → Part) : (s.updPart p h).xqs = s.xqs := rfl
@[simp] theorem State.capo_setPart (p : PartId) (x : Part) : (s.setPart p x).capo = s.capo := rfl
@[simp] theorem State.capo_updPart (p : PartId) (h : Part → Part) : (s.updPart p h).capo = s.capo := rfl
@[simp] theorem State.pow_setPart (p : PartId) (x : Part) : (s.setPart p x).pow = s.pow := rfl
@[simp] theorem State.pow_updPart (p : PartId) (h : Part → Part) : (s.updPart p h).pow = s.pow := rfl
@[simp] theorem State.boot_setPart (p : PartId) (x : Part) : (s.setPart p x).boot = s.boot := rfl
@[simp] theorem State.boot_updPart (p : PartId) (h : Part → Part) : (s.updPart p h).boot = s.boot := rfl
@[simp] theorem State.tel_setPart (p : PartId) (x : Part) : (s.setPart p x).tel = s.tel := rfl
@[simp] theorem State.tel_updPart (p : PartId) (h : Part → Part) : (s.updPart p h).tel = s.tel := rfl
@[simp] theorem State.side_setPart (p : PartId) (x : Part) : (s.setPart p x).side = s.side := rfl
@[simp] theorem State.side_updPart (p : PartId) (h : Part → Part) : (s.updPart p h).side = s.side := rfl
@[simp] theorem State.pending_setFn (f : FnId) (x : Fn) : (s.setFn f x).pending = s.pending := rfl
@[simp] theorem State.pending_updFn (f : FnId) (h : Fn → Fn) : (s.updFn f h).pending = s.pending := rfl
@[simp] theorem State.time_setFn (f : FnId) (x : Fn) : (s.setFn f x).time = s.time := rfl
@[simp] theorem State.time_updFn (f : FnId) (h : Fn → Fn) : (s.updFn f h).time = s.time := rfl
@[simp] theorem State.fresh_setFn (f : FnId) (x : Fn) : (s.setFn f x).fresh = s.fresh := rfl
@[simp] theorem State.fresh_updFn (f : FnId) (h : Fn → Fn) : (s.updFn f h).fresh = s.fresh := rfl
@[simp] theorem State.tiles_setFn (f : FnId) (x : Fn) : (s.setFn f x).tiles = s.tiles := rfl
@[simp] theorem State.tiles_updFn (f : FnId) (h : Fn → Fn) : (s.updFn f h).tiles = s.tiles := rfl
@[simp] theorem State.dies_setFn (f : FnId) (x : Fn) : (s.setFn f x).dies = s.dies := rfl
@[simp] theorem State.dies_updFn (f : FnId) (h : Fn → Fn) : (s.updFn f h).dies = s.dies := rfl
@[simp] theorem State.memStacks_setFn (f : FnId) (x : Fn) : (s.setFn f x).memStacks = s.memStacks := rfl
@[simp] theorem State.memStacks_updFn (f : FnId) (h : Fn → Fn) : (s.updFn f h).memStacks = s.memStacks := rfl
@[simp] theorem State.mem_setFn (f : FnId) (x : Fn) : (s.setFn f x).mem = s.mem := rfl
@[simp] theorem State.mem_updFn (f : FnId) (h : Fn → Fn) : (s.updFn f h).mem = s.mem := rfl
@[simp] theorem State.poison_setFn (f : FnId) (x : Fn) : (s.setFn f x).poison = s.poison := rfl
@[simp] theorem State.poison_updFn (f : FnId) (h : Fn → Fn) : (s.updFn f h).poison = s.poison := rfl
@[simp] theorem State.host_setFn (f : FnId) (x : Fn) : (s.setFn f x).host = s.host := rfl
@[simp] theorem State.host_updFn (f : FnId) (h : Fn → Fn) : (s.updFn f h).host = s.host := rfl
@[simp] theorem State.atsOn_setFn (f : FnId) (x : Fn) : (s.setFn f x).atsOn = s.atsOn := rfl
@[simp] theorem State.atsOn_updFn (f : FnId) (h : Fn → Fn) : (s.updFn f h).atsOn = s.atsOn := rfl
@[simp] theorem State.sems_setFn (f : FnId) (x : Fn) : (s.setFn f x).sems = s.sems := rfl
@[simp] theorem State.sems_updFn (f : FnId) (h : Fn → Fn) : (s.updFn f h).sems = s.sems := rfl
@[simp] theorem State.semWaits_setFn (f : FnId) (x : Fn) : (s.setFn f x).semWaits = s.semWaits := rfl
@[simp] theorem State.semWaits_updFn (f : FnId) (h : Fn → Fn) : (s.updFn f h).semWaits = s.semWaits := rfl
@[simp] theorem State.ctrs_setFn (f : FnId) (x : Fn) : (s.setFn f x).ctrs = s.ctrs := rfl
@[simp] theorem State.ctrs_updFn (f : FnId) (h : Fn → Fn) : (s.updFn f h).ctrs = s.ctrs := rfl
@[simp] theorem State.ctrWaits_setFn (f : FnId) (x : Fn) : (s.setFn f x).ctrWaits = s.ctrWaits := rfl
@[simp] theorem State.ctrWaits_updFn (f : FnId) (h : Fn → Fn) : (s.updFn f h).ctrWaits = s.ctrWaits := rfl
@[simp] theorem State.queues_setFn (f : FnId) (x : Fn) : (s.setFn f x).queues = s.queues := rfl
@[simp] theorem State.queues_updFn (f : FnId) (h : Fn → Fn) : (s.updFn f h).queues = s.queues := rfl
@[simp] theorem State.parts_setFn (f : FnId) (x : Fn) : (s.setFn f x).parts = s.parts := rfl
@[simp] theorem State.parts_updFn (f : FnId) (h : Fn → Fn) : (s.updFn f h).parts = s.parts := rfl
@[simp] theorem State.loans_setFn (f : FnId) (x : Fn) : (s.setFn f x).loans = s.loans := rfl
@[simp] theorem State.loans_updFn (f : FnId) (h : Fn → Fn) : (s.updFn f h).loans = s.loans := rfl
@[simp] theorem State.vfs_setFn (f : FnId) (x : Fn) : (s.setFn f x).vfs = s.vfs := rfl
@[simp] theorem State.vfs_updFn (f : FnId) (h : Fn → Fn) : (s.updFn f h).vfs = s.vfs := rfl
@[simp] theorem State.jobs_setFn (f : FnId) (x : Fn) : (s.setFn f x).jobs = s.jobs := rfl
@[simp] theorem State.jobs_updFn (f : FnId) (h : Fn → Fn) : (s.updFn f h).jobs = s.jobs := rfl
@[simp] theorem State.msixSent_setFn (f : FnId) (x : Fn) : (s.setFn f x).msixSent = s.msixSent := rfl
@[simp] theorem State.msixSent_updFn (f : FnId) (h : Fn → Fn) : (s.updFn f h).msixSent = s.msixSent := rfl
@[simp] theorem State.fab_setFn (f : FnId) (x : Fn) : (s.setFn f x).fab = s.fab := rfl
@[simp] theorem State.fab_updFn (f : FnId) (h : Fn → Fn) : (s.updFn f h).fab = s.fab := rfl
@[simp] theorem State.tb_setFn (f : FnId) (x : Fn) : (s.setFn f x).tb = s.tb := rfl
@[simp] theorem State.tb_updFn (f : FnId) (h : Fn → Fn) : (s.updFn f h).tb = s.tb := rfl
@[simp] theorem State.colls_setFn (f : FnId) (x : Fn) : (s.setFn f x).colls = s.colls := rfl
@[simp] theorem State.colls_updFn (f : FnId) (h : Fn → Fn) : (s.updFn f h).colls = s.colls := rfl
@[simp] theorem State.flt_setFn (f : FnId) (x : Fn) : (s.setFn f x).flt = s.flt := rfl
@[simp] theorem State.flt_updFn (f : FnId) (h : Fn → Fn) : (s.updFn f h).flt = s.flt := rfl
@[simp] theorem State.xqs_setFn (f : FnId) (x : Fn) : (s.setFn f x).xqs = s.xqs := rfl
@[simp] theorem State.xqs_updFn (f : FnId) (h : Fn → Fn) : (s.updFn f h).xqs = s.xqs := rfl
@[simp] theorem State.capo_setFn (f : FnId) (x : Fn) : (s.setFn f x).capo = s.capo := rfl
@[simp] theorem State.capo_updFn (f : FnId) (h : Fn → Fn) : (s.updFn f h).capo = s.capo := rfl
@[simp] theorem State.pow_setFn (f : FnId) (x : Fn) : (s.setFn f x).pow = s.pow := rfl
@[simp] theorem State.pow_updFn (f : FnId) (h : Fn → Fn) : (s.updFn f h).pow = s.pow := rfl
@[simp] theorem State.boot_setFn (f : FnId) (x : Fn) : (s.setFn f x).boot = s.boot := rfl
@[simp] theorem State.boot_updFn (f : FnId) (h : Fn → Fn) : (s.updFn f h).boot = s.boot := rfl
@[simp] theorem State.tel_setFn (f : FnId) (x : Fn) : (s.setFn f x).tel = s.tel := rfl
@[simp] theorem State.tel_updFn (f : FnId) (h : Fn → Fn) : (s.updFn f h).tel = s.tel := rfl
@[simp] theorem State.side_setFn (f : FnId) (x : Fn) : (s.setFn f x).side = s.side := rfl
@[simp] theorem State.side_updFn (f : FnId) (h : Fn → Fn) : (s.updFn f h).side = s.side := rfl
@[simp] theorem State.pending_setPort (i : PortId) (x : Port) : (s.setPort i x).pending = s.pending := rfl
@[simp] theorem State.pending_updPort (i : PortId) (h : Port → Port) : (s.updPort i h).pending = s.pending := rfl
@[simp] theorem State.time_setPort (i : PortId) (x : Port) : (s.setPort i x).time = s.time := rfl
@[simp] theorem State.time_updPort (i : PortId) (h : Port → Port) : (s.updPort i h).time = s.time := rfl
@[simp] theorem State.fresh_setPort (i : PortId) (x : Port) : (s.setPort i x).fresh = s.fresh := rfl
@[simp] theorem State.fresh_updPort (i : PortId) (h : Port → Port) : (s.updPort i h).fresh = s.fresh := rfl
@[simp] theorem State.tiles_setPort (i : PortId) (x : Port) : (s.setPort i x).tiles = s.tiles := rfl
@[simp] theorem State.tiles_updPort (i : PortId) (h : Port → Port) : (s.updPort i h).tiles = s.tiles := rfl
@[simp] theorem State.dies_setPort (i : PortId) (x : Port) : (s.setPort i x).dies = s.dies := rfl
@[simp] theorem State.dies_updPort (i : PortId) (h : Port → Port) : (s.updPort i h).dies = s.dies := rfl
@[simp] theorem State.memStacks_setPort (i : PortId) (x : Port) : (s.setPort i x).memStacks = s.memStacks := rfl
@[simp] theorem State.memStacks_updPort (i : PortId) (h : Port → Port) : (s.updPort i h).memStacks = s.memStacks := rfl
@[simp] theorem State.mem_setPort (i : PortId) (x : Port) : (s.setPort i x).mem = s.mem := rfl
@[simp] theorem State.mem_updPort (i : PortId) (h : Port → Port) : (s.updPort i h).mem = s.mem := rfl
@[simp] theorem State.poison_setPort (i : PortId) (x : Port) : (s.setPort i x).poison = s.poison := rfl
@[simp] theorem State.poison_updPort (i : PortId) (h : Port → Port) : (s.updPort i h).poison = s.poison := rfl
@[simp] theorem State.host_setPort (i : PortId) (x : Port) : (s.setPort i x).host = s.host := rfl
@[simp] theorem State.host_updPort (i : PortId) (h : Port → Port) : (s.updPort i h).host = s.host := rfl
@[simp] theorem State.atsOn_setPort (i : PortId) (x : Port) : (s.setPort i x).atsOn = s.atsOn := rfl
@[simp] theorem State.atsOn_updPort (i : PortId) (h : Port → Port) : (s.updPort i h).atsOn = s.atsOn := rfl
@[simp] theorem State.sems_setPort (i : PortId) (x : Port) : (s.setPort i x).sems = s.sems := rfl
@[simp] theorem State.sems_updPort (i : PortId) (h : Port → Port) : (s.updPort i h).sems = s.sems := rfl
@[simp] theorem State.semWaits_setPort (i : PortId) (x : Port) : (s.setPort i x).semWaits = s.semWaits := rfl
@[simp] theorem State.semWaits_updPort (i : PortId) (h : Port → Port) : (s.updPort i h).semWaits = s.semWaits := rfl
@[simp] theorem State.ctrs_setPort (i : PortId) (x : Port) : (s.setPort i x).ctrs = s.ctrs := rfl
@[simp] theorem State.ctrs_updPort (i : PortId) (h : Port → Port) : (s.updPort i h).ctrs = s.ctrs := rfl
@[simp] theorem State.ctrWaits_setPort (i : PortId) (x : Port) : (s.setPort i x).ctrWaits = s.ctrWaits := rfl
@[simp] theorem State.ctrWaits_updPort (i : PortId) (h : Port → Port) : (s.updPort i h).ctrWaits = s.ctrWaits := rfl
@[simp] theorem State.queues_setPort (i : PortId) (x : Port) : (s.setPort i x).queues = s.queues := rfl
@[simp] theorem State.queues_updPort (i : PortId) (h : Port → Port) : (s.updPort i h).queues = s.queues := rfl
@[simp] theorem State.parts_setPort (i : PortId) (x : Port) : (s.setPort i x).parts = s.parts := rfl
@[simp] theorem State.parts_updPort (i : PortId) (h : Port → Port) : (s.updPort i h).parts = s.parts := rfl
@[simp] theorem State.loans_setPort (i : PortId) (x : Port) : (s.setPort i x).loans = s.loans := rfl
@[simp] theorem State.loans_updPort (i : PortId) (h : Port → Port) : (s.updPort i h).loans = s.loans := rfl
@[simp] theorem State.fns_setPort (i : PortId) (x : Port) : (s.setPort i x).fns = s.fns := rfl
@[simp] theorem State.fns_updPort (i : PortId) (h : Port → Port) : (s.updPort i h).fns = s.fns := rfl
@[simp] theorem State.vfs_setPort (i : PortId) (x : Port) : (s.setPort i x).vfs = s.vfs := rfl
@[simp] theorem State.vfs_updPort (i : PortId) (h : Port → Port) : (s.updPort i h).vfs = s.vfs := rfl
@[simp] theorem State.jobs_setPort (i : PortId) (x : Port) : (s.setPort i x).jobs = s.jobs := rfl
@[simp] theorem State.jobs_updPort (i : PortId) (h : Port → Port) : (s.updPort i h).jobs = s.jobs := rfl
@[simp] theorem State.msixSent_setPort (i : PortId) (x : Port) : (s.setPort i x).msixSent = s.msixSent := rfl
@[simp] theorem State.msixSent_updPort (i : PortId) (h : Port → Port) : (s.updPort i h).msixSent = s.msixSent := rfl
@[simp] theorem State.tb_setPort (i : PortId) (x : Port) : (s.setPort i x).tb = s.tb := rfl
@[simp] theorem State.tb_updPort (i : PortId) (h : Port → Port) : (s.updPort i h).tb = s.tb := rfl
@[simp] theorem State.colls_setPort (i : PortId) (x : Port) : (s.setPort i x).colls = s.colls := rfl
@[simp] theorem State.colls_updPort (i : PortId) (h : Port → Port) : (s.updPort i h).colls = s.colls := rfl
@[simp] theorem State.flt_setPort (i : PortId) (x : Port) : (s.setPort i x).flt = s.flt := rfl
@[simp] theorem State.flt_updPort (i : PortId) (h : Port → Port) : (s.updPort i h).flt = s.flt := rfl
@[simp] theorem State.xqs_setPort (i : PortId) (x : Port) : (s.setPort i x).xqs = s.xqs := rfl
@[simp] theorem State.xqs_updPort (i : PortId) (h : Port → Port) : (s.updPort i h).xqs = s.xqs := rfl
@[simp] theorem State.capo_setPort (i : PortId) (x : Port) : (s.setPort i x).capo = s.capo := rfl
@[simp] theorem State.capo_updPort (i : PortId) (h : Port → Port) : (s.updPort i h).capo = s.capo := rfl
@[simp] theorem State.pow_setPort (i : PortId) (x : Port) : (s.setPort i x).pow = s.pow := rfl
@[simp] theorem State.pow_updPort (i : PortId) (h : Port → Port) : (s.updPort i h).pow = s.pow := rfl
@[simp] theorem State.boot_setPort (i : PortId) (x : Port) : (s.setPort i x).boot = s.boot := rfl
@[simp] theorem State.boot_updPort (i : PortId) (h : Port → Port) : (s.updPort i h).boot = s.boot := rfl
@[simp] theorem State.tel_setPort (i : PortId) (x : Port) : (s.setPort i x).tel = s.tel := rfl
@[simp] theorem State.tel_updPort (i : PortId) (h : Port → Port) : (s.updPort i h).tel = s.tel := rfl
@[simp] theorem State.side_setPort (i : PortId) (x : Port) : (s.setPort i x).side = s.side := rfl
@[simp] theorem State.side_updPort (i : PortId) (h : Port → Port) : (s.updPort i h).side = s.side := rfl

/-! ## A unit after a field of the state is written -/

@[simp] theorem State.tile_with_pending (y : List Instr) (t : TileId) : State.tile { s with pending := y } t = s.tile t := rfl
@[simp] theorem State.die_with_pending (y : List Instr) (d : DieId) : State.die { s with pending := y } d = s.die d := rfl
@[simp] theorem State.stack_with_pending (y : List Instr) (k : StackId) : State.stack { s with pending := y } k = s.stack k := rfl
@[simp] theorem State.queue_with_pending (y : List Instr) (q : QueueId) : State.queue { s with pending := y } q = s.queue q := rfl
@[simp] theorem State.part_with_pending (y : List Instr) (p : PartId) : State.part { s with pending := y } p = s.part p := rfl
@[simp] theorem State.fn_with_pending (y : List Instr) (f : FnId) : State.fn { s with pending := y } f = s.fn f := rfl
@[simp] theorem State.port_with_pending (y : List Instr) (i : PortId) : State.port { s with pending := y } i = s.port i := rfl
@[simp] theorem State.tile_with_time (y : Nat) (t : TileId) : State.tile { s with time := y } t = s.tile t := rfl
@[simp] theorem State.die_with_time (y : Nat) (d : DieId) : State.die { s with time := y } d = s.die d := rfl
@[simp] theorem State.stack_with_time (y : Nat) (k : StackId) : State.stack { s with time := y } k = s.stack k := rfl
@[simp] theorem State.queue_with_time (y : Nat) (q : QueueId) : State.queue { s with time := y } q = s.queue q := rfl
@[simp] theorem State.part_with_time (y : Nat) (p : PartId) : State.part { s with time := y } p = s.part p := rfl
@[simp] theorem State.fn_with_time (y : Nat) (f : FnId) : State.fn { s with time := y } f = s.fn f := rfl
@[simp] theorem State.port_with_time (y : Nat) (i : PortId) : State.port { s with time := y } i = s.port i := rfl
@[simp] theorem State.tile_with_fresh (y : Nat) (t : TileId) : State.tile { s with fresh := y } t = s.tile t := rfl
@[simp] theorem State.die_with_fresh (y : Nat) (d : DieId) : State.die { s with fresh := y } d = s.die d := rfl
@[simp] theorem State.stack_with_fresh (y : Nat) (k : StackId) : State.stack { s with fresh := y } k = s.stack k := rfl
@[simp] theorem State.queue_with_fresh (y : Nat) (q : QueueId) : State.queue { s with fresh := y } q = s.queue q := rfl
@[simp] theorem State.part_with_fresh (y : Nat) (p : PartId) : State.part { s with fresh := y } p = s.part p := rfl
@[simp] theorem State.fn_with_fresh (y : Nat) (f : FnId) : State.fn { s with fresh := y } f = s.fn f := rfl
@[simp] theorem State.port_with_fresh (y : Nat) (i : PortId) : State.port { s with fresh := y } i = s.port i := rfl
@[simp] theorem State.die_with_tiles (y : NMap Tile) (d : DieId) : State.die { s with tiles := y } d = s.die d := rfl
@[simp] theorem State.stack_with_tiles (y : NMap Tile) (k : StackId) : State.stack { s with tiles := y } k = s.stack k := rfl
@[simp] theorem State.queue_with_tiles (y : NMap Tile) (q : QueueId) : State.queue { s with tiles := y } q = s.queue q := rfl
@[simp] theorem State.part_with_tiles (y : NMap Tile) (p : PartId) : State.part { s with tiles := y } p = s.part p := rfl
@[simp] theorem State.fn_with_tiles (y : NMap Tile) (f : FnId) : State.fn { s with tiles := y } f = s.fn f := rfl
@[simp] theorem State.port_with_tiles (y : NMap Tile) (i : PortId) : State.port { s with tiles := y } i = s.port i := rfl
@[simp] theorem State.tile_with_dies (y : NMap Die) (t : TileId) : State.tile { s with dies := y } t = s.tile t := rfl
@[simp] theorem State.stack_with_dies (y : NMap Die) (k : StackId) : State.stack { s with dies := y } k = s.stack k := rfl
@[simp] theorem State.queue_with_dies (y : NMap Die) (q : QueueId) : State.queue { s with dies := y } q = s.queue q := rfl
@[simp] theorem State.part_with_dies (y : NMap Die) (p : PartId) : State.part { s with dies := y } p = s.part p := rfl
@[simp] theorem State.fn_with_dies (y : NMap Die) (f : FnId) : State.fn { s with dies := y } f = s.fn f := rfl
@[simp] theorem State.port_with_dies (y : NMap Die) (i : PortId) : State.port { s with dies := y } i = s.port i := rfl
@[simp] theorem State.tile_with_stacks (y : NMap Stack) (t : TileId) : State.tile { s with memStacks := y } t = s.tile t := rfl
@[simp] theorem State.die_with_stacks (y : NMap Stack) (d : DieId) : State.die { s with memStacks := y } d = s.die d := rfl
@[simp] theorem State.queue_with_stacks (y : NMap Stack) (q : QueueId) : State.queue { s with memStacks := y } q = s.queue q := rfl
@[simp] theorem State.part_with_stacks (y : NMap Stack) (p : PartId) : State.part { s with memStacks := y } p = s.part p := rfl
@[simp] theorem State.fn_with_stacks (y : NMap Stack) (f : FnId) : State.fn { s with memStacks := y } f = s.fn f := rfl
@[simp] theorem State.port_with_stacks (y : NMap Stack) (i : PortId) : State.port { s with memStacks := y } i = s.port i := rfl
@[simp] theorem State.tile_with_mem (y : List Host.Cell) (t : TileId) : State.tile { s with mem := y } t = s.tile t := rfl
@[simp] theorem State.die_with_mem (y : List Host.Cell) (d : DieId) : State.die { s with mem := y } d = s.die d := rfl
@[simp] theorem State.stack_with_mem (y : List Host.Cell) (k : StackId) : State.stack { s with mem := y } k = s.stack k := rfl
@[simp] theorem State.queue_with_mem (y : List Host.Cell) (q : QueueId) : State.queue { s with mem := y } q = s.queue q := rfl
@[simp] theorem State.part_with_mem (y : List Host.Cell) (p : PartId) : State.part { s with mem := y } p = s.part p := rfl
@[simp] theorem State.fn_with_mem (y : List Host.Cell) (f : FnId) : State.fn { s with mem := y } f = s.fn f := rfl
@[simp] theorem State.port_with_mem (y : List Host.Cell) (i : PortId) : State.port { s with mem := y } i = s.port i := rfl
@[simp] theorem State.tile_with_poison (y : List Nat) (t : TileId) : State.tile { s with poison := y } t = s.tile t := rfl
@[simp] theorem State.die_with_poison (y : List Nat) (d : DieId) : State.die { s with poison := y } d = s.die d := rfl
@[simp] theorem State.stack_with_poison (y : List Nat) (k : StackId) : State.stack { s with poison := y } k = s.stack k := rfl
@[simp] theorem State.queue_with_poison (y : List Nat) (q : QueueId) : State.queue { s with poison := y } q = s.queue q := rfl
@[simp] theorem State.part_with_poison (y : List Nat) (p : PartId) : State.part { s with poison := y } p = s.part p := rfl
@[simp] theorem State.fn_with_poison (y : List Nat) (f : FnId) : State.fn { s with poison := y } f = s.fn f := rfl
@[simp] theorem State.port_with_poison (y : List Nat) (i : PortId) : State.port { s with poison := y } i = s.port i := rfl
@[simp] theorem State.tile_with_host (y : List Host.Cell) (t : TileId) : State.tile { s with host := y } t = s.tile t := rfl
@[simp] theorem State.die_with_host (y : List Host.Cell) (d : DieId) : State.die { s with host := y } d = s.die d := rfl
@[simp] theorem State.stack_with_host (y : List Host.Cell) (k : StackId) : State.stack { s with host := y } k = s.stack k := rfl
@[simp] theorem State.queue_with_host (y : List Host.Cell) (q : QueueId) : State.queue { s with host := y } q = s.queue q := rfl
@[simp] theorem State.part_with_host (y : List Host.Cell) (p : PartId) : State.part { s with host := y } p = s.part p := rfl
@[simp] theorem State.fn_with_host (y : List Host.Cell) (f : FnId) : State.fn { s with host := y } f = s.fn f := rfl
@[simp] theorem State.port_with_host (y : List Host.Cell) (i : PortId) : State.port { s with host := y } i = s.port i := rfl
@[simp] theorem State.tile_with_atsOn (y : Bool) (t : TileId) : State.tile { s with atsOn := y } t = s.tile t := rfl
@[simp] theorem State.die_with_atsOn (y : Bool) (d : DieId) : State.die { s with atsOn := y } d = s.die d := rfl
@[simp] theorem State.stack_with_atsOn (y : Bool) (k : StackId) : State.stack { s with atsOn := y } k = s.stack k := rfl
@[simp] theorem State.queue_with_atsOn (y : Bool) (q : QueueId) : State.queue { s with atsOn := y } q = s.queue q := rfl
@[simp] theorem State.part_with_atsOn (y : Bool) (p : PartId) : State.part { s with atsOn := y } p = s.part p := rfl
@[simp] theorem State.fn_with_atsOn (y : Bool) (f : FnId) : State.fn { s with atsOn := y } f = s.fn f := rfl
@[simp] theorem State.port_with_atsOn (y : Bool) (i : PortId) : State.port { s with atsOn := y } i = s.port i := rfl
@[simp] theorem State.tile_with_sems (y : NMap (BitVec 32)) (t : TileId) : State.tile { s with sems := y } t = s.tile t := rfl
@[simp] theorem State.die_with_sems (y : NMap (BitVec 32)) (d : DieId) : State.die { s with sems := y } d = s.die d := rfl
@[simp] theorem State.stack_with_sems (y : NMap (BitVec 32)) (k : StackId) : State.stack { s with sems := y } k = s.stack k := rfl
@[simp] theorem State.queue_with_sems (y : NMap (BitVec 32)) (q : QueueId) : State.queue { s with sems := y } q = s.queue q := rfl
@[simp] theorem State.part_with_sems (y : NMap (BitVec 32)) (p : PartId) : State.part { s with sems := y } p = s.part p := rfl
@[simp] theorem State.fn_with_sems (y : NMap (BitVec 32)) (f : FnId) : State.fn { s with sems := y } f = s.fn f := rfl
@[simp] theorem State.port_with_sems (y : NMap (BitVec 32)) (i : PortId) : State.port { s with sems := y } i = s.port i := rfl
@[simp] theorem State.tile_with_semWaits (y : List SemWait) (t : TileId) : State.tile { s with semWaits := y } t = s.tile t := rfl
@[simp] theorem State.die_with_semWaits (y : List SemWait) (d : DieId) : State.die { s with semWaits := y } d = s.die d := rfl
@[simp] theorem State.stack_with_semWaits (y : List SemWait) (k : StackId) : State.stack { s with semWaits := y } k = s.stack k := rfl
@[simp] theorem State.queue_with_semWaits (y : List SemWait) (q : QueueId) : State.queue { s with semWaits := y } q = s.queue q := rfl
@[simp] theorem State.part_with_semWaits (y : List SemWait) (p : PartId) : State.part { s with semWaits := y } p = s.part p := rfl
@[simp] theorem State.fn_with_semWaits (y : List SemWait) (f : FnId) : State.fn { s with semWaits := y } f = s.fn f := rfl
@[simp] theorem State.port_with_semWaits (y : List SemWait) (i : PortId) : State.port { s with semWaits := y } i = s.port i := rfl
@[simp] theorem State.tile_with_ctrs (y : NMap (BitVec 48)) (t : TileId) : State.tile { s with ctrs := y } t = s.tile t := rfl
@[simp] theorem State.die_with_ctrs (y : NMap (BitVec 48)) (d : DieId) : State.die { s with ctrs := y } d = s.die d := rfl
@[simp] theorem State.stack_with_ctrs (y : NMap (BitVec 48)) (k : StackId) : State.stack { s with ctrs := y } k = s.stack k := rfl
@[simp] theorem State.queue_with_ctrs (y : NMap (BitVec 48)) (q : QueueId) : State.queue { s with ctrs := y } q = s.queue q := rfl
@[simp] theorem State.part_with_ctrs (y : NMap (BitVec 48)) (p : PartId) : State.part { s with ctrs := y } p = s.part p := rfl
@[simp] theorem State.fn_with_ctrs (y : NMap (BitVec 48)) (f : FnId) : State.fn { s with ctrs := y } f = s.fn f := rfl
@[simp] theorem State.port_with_ctrs (y : NMap (BitVec 48)) (i : PortId) : State.port { s with ctrs := y } i = s.port i := rfl
@[simp] theorem State.tile_with_ctrWaits (y : List CtrWait) (t : TileId) : State.tile { s with ctrWaits := y } t = s.tile t := rfl
@[simp] theorem State.die_with_ctrWaits (y : List CtrWait) (d : DieId) : State.die { s with ctrWaits := y } d = s.die d := rfl
@[simp] theorem State.stack_with_ctrWaits (y : List CtrWait) (k : StackId) : State.stack { s with ctrWaits := y } k = s.stack k := rfl
@[simp] theorem State.queue_with_ctrWaits (y : List CtrWait) (q : QueueId) : State.queue { s with ctrWaits := y } q = s.queue q := rfl
@[simp] theorem State.part_with_ctrWaits (y : List CtrWait) (p : PartId) : State.part { s with ctrWaits := y } p = s.part p := rfl
@[simp] theorem State.fn_with_ctrWaits (y : List CtrWait) (f : FnId) : State.fn { s with ctrWaits := y } f = s.fn f := rfl
@[simp] theorem State.port_with_ctrWaits (y : List CtrWait) (i : PortId) : State.port { s with ctrWaits := y } i = s.port i := rfl
@[simp] theorem State.tile_with_queues (y : NMap Queue) (t : TileId) : State.tile { s with queues := y } t = s.tile t := rfl
@[simp] theorem State.die_with_queues (y : NMap Queue) (d : DieId) : State.die { s with queues := y } d = s.die d := rfl
@[simp] theorem State.stack_with_queues (y : NMap Queue) (k : StackId) : State.stack { s with queues := y } k = s.stack k := rfl
@[simp] theorem State.part_with_queues (y : NMap Queue) (p : PartId) : State.part { s with queues := y } p = s.part p := rfl
@[simp] theorem State.fn_with_queues (y : NMap Queue) (f : FnId) : State.fn { s with queues := y } f = s.fn f := rfl
@[simp] theorem State.port_with_queues (y : NMap Queue) (i : PortId) : State.port { s with queues := y } i = s.port i := rfl
@[simp] theorem State.tile_with_parts (y : NMap Part) (t : TileId) : State.tile { s with parts := y } t = s.tile t := rfl
@[simp] theorem State.die_with_parts (y : NMap Part) (d : DieId) : State.die { s with parts := y } d = s.die d := rfl
@[simp] theorem State.stack_with_parts (y : NMap Part) (k : StackId) : State.stack { s with parts := y } k = s.stack k := rfl
@[simp] theorem State.queue_with_parts (y : NMap Part) (q : QueueId) : State.queue { s with parts := y } q = s.queue q := rfl
@[simp] theorem State.fn_with_parts (y : NMap Part) (f : FnId) : State.fn { s with parts := y } f = s.fn f := rfl
@[simp] theorem State.port_with_parts (y : NMap Part) (i : PortId) : State.port { s with parts := y } i = s.port i := rfl
@[simp] theorem State.tile_with_loans (y : List Loan) (t : TileId) : State.tile { s with loans := y } t = s.tile t := rfl
@[simp] theorem State.die_with_loans (y : List Loan) (d : DieId) : State.die { s with loans := y } d = s.die d := rfl
@[simp] theorem State.stack_with_loans (y : List Loan) (k : StackId) : State.stack { s with loans := y } k = s.stack k := rfl
@[simp] theorem State.queue_with_loans (y : List Loan) (q : QueueId) : State.queue { s with loans := y } q = s.queue q := rfl
@[simp] theorem State.part_with_loans (y : List Loan) (p : PartId) : State.part { s with loans := y } p = s.part p := rfl
@[simp] theorem State.fn_with_loans (y : List Loan) (f : FnId) : State.fn { s with loans := y } f = s.fn f := rfl
@[simp] theorem State.port_with_loans (y : List Loan) (i : PortId) : State.port { s with loans := y } i = s.port i := rfl
@[simp] theorem State.tile_with_fns (y : NMap Fn) (t : TileId) : State.tile { s with fns := y } t = s.tile t := rfl
@[simp] theorem State.die_with_fns (y : NMap Fn) (d : DieId) : State.die { s with fns := y } d = s.die d := rfl
@[simp] theorem State.stack_with_fns (y : NMap Fn) (k : StackId) : State.stack { s with fns := y } k = s.stack k := rfl
@[simp] theorem State.queue_with_fns (y : NMap Fn) (q : QueueId) : State.queue { s with fns := y } q = s.queue q := rfl
@[simp] theorem State.part_with_fns (y : NMap Fn) (p : PartId) : State.part { s with fns := y } p = s.part p := rfl
@[simp] theorem State.port_with_fns (y : NMap Fn) (i : PortId) : State.port { s with fns := y } i = s.port i := rfl
@[simp] theorem State.tile_with_vfs (y : BitVec 4) (t : TileId) : State.tile { s with vfs := y } t = s.tile t := rfl
@[simp] theorem State.die_with_vfs (y : BitVec 4) (d : DieId) : State.die { s with vfs := y } d = s.die d := rfl
@[simp] theorem State.stack_with_vfs (y : BitVec 4) (k : StackId) : State.stack { s with vfs := y } k = s.stack k := rfl
@[simp] theorem State.queue_with_vfs (y : BitVec 4) (q : QueueId) : State.queue { s with vfs := y } q = s.queue q := rfl
@[simp] theorem State.part_with_vfs (y : BitVec 4) (p : PartId) : State.part { s with vfs := y } p = s.part p := rfl
@[simp] theorem State.fn_with_vfs (y : BitVec 4) (f : FnId) : State.fn { s with vfs := y } f = s.fn f := rfl
@[simp] theorem State.port_with_vfs (y : BitVec 4) (i : PortId) : State.port { s with vfs := y } i = s.port i := rfl
@[simp] theorem State.tile_with_jobs (y : List Job) (t : TileId) : State.tile { s with jobs := y } t = s.tile t := rfl
@[simp] theorem State.die_with_jobs (y : List Job) (d : DieId) : State.die { s with jobs := y } d = s.die d := rfl
@[simp] theorem State.stack_with_jobs (y : List Job) (k : StackId) : State.stack { s with jobs := y } k = s.stack k := rfl
@[simp] theorem State.queue_with_jobs (y : List Job) (q : QueueId) : State.queue { s with jobs := y } q = s.queue q := rfl
@[simp] theorem State.part_with_jobs (y : List Job) (p : PartId) : State.part { s with jobs := y } p = s.part p := rfl
@[simp] theorem State.fn_with_jobs (y : List Job) (f : FnId) : State.fn { s with jobs := y } f = s.fn f := rfl
@[simp] theorem State.port_with_jobs (y : List Job) (i : PortId) : State.port { s with jobs := y } i = s.port i := rfl
@[simp] theorem State.tile_with_msixSent (y : List MsixSent) (t : TileId) : State.tile { s with msixSent := y } t = s.tile t := rfl
@[simp] theorem State.die_with_msixSent (y : List MsixSent) (d : DieId) : State.die { s with msixSent := y } d = s.die d := rfl
@[simp] theorem State.stack_with_msixSent (y : List MsixSent) (k : StackId) : State.stack { s with msixSent := y } k = s.stack k := rfl
@[simp] theorem State.queue_with_msixSent (y : List MsixSent) (q : QueueId) : State.queue { s with msixSent := y } q = s.queue q := rfl
@[simp] theorem State.part_with_msixSent (y : List MsixSent) (p : PartId) : State.part { s with msixSent := y } p = s.part p := rfl
@[simp] theorem State.fn_with_msixSent (y : List MsixSent) (f : FnId) : State.fn { s with msixSent := y } f = s.fn f := rfl
@[simp] theorem State.port_with_msixSent (y : List MsixSent) (i : PortId) : State.port { s with msixSent := y } i = s.port i := rfl
@[simp] theorem State.tile_with_fab (y : Fabric) (t : TileId) : State.tile { s with fab := y } t = s.tile t := rfl
@[simp] theorem State.die_with_fab (y : Fabric) (d : DieId) : State.die { s with fab := y } d = s.die d := rfl
@[simp] theorem State.stack_with_fab (y : Fabric) (k : StackId) : State.stack { s with fab := y } k = s.stack k := rfl
@[simp] theorem State.queue_with_fab (y : Fabric) (q : QueueId) : State.queue { s with fab := y } q = s.queue q := rfl
@[simp] theorem State.part_with_fab (y : Fabric) (p : PartId) : State.part { s with fab := y } p = s.part p := rfl
@[simp] theorem State.fn_with_fab (y : Fabric) (f : FnId) : State.fn { s with fab := y } f = s.fn f := rfl
@[simp] theorem State.tile_with_tb (y : Timebase) (t : TileId) : State.tile { s with tb := y } t = s.tile t := rfl
@[simp] theorem State.die_with_tb (y : Timebase) (d : DieId) : State.die { s with tb := y } d = s.die d := rfl
@[simp] theorem State.stack_with_tb (y : Timebase) (k : StackId) : State.stack { s with tb := y } k = s.stack k := rfl
@[simp] theorem State.queue_with_tb (y : Timebase) (q : QueueId) : State.queue { s with tb := y } q = s.queue q := rfl
@[simp] theorem State.part_with_tb (y : Timebase) (p : PartId) : State.part { s with tb := y } p = s.part p := rfl
@[simp] theorem State.fn_with_tb (y : Timebase) (f : FnId) : State.fn { s with tb := y } f = s.fn f := rfl
@[simp] theorem State.port_with_tb (y : Timebase) (i : PortId) : State.port { s with tb := y } i = s.port i := rfl
@[simp] theorem State.tile_with_colls (y : List Coll) (t : TileId) : State.tile { s with colls := y } t = s.tile t := rfl
@[simp] theorem State.die_with_colls (y : List Coll) (d : DieId) : State.die { s with colls := y } d = s.die d := rfl
@[simp] theorem State.stack_with_colls (y : List Coll) (k : StackId) : State.stack { s with colls := y } k = s.stack k := rfl
@[simp] theorem State.queue_with_colls (y : List Coll) (q : QueueId) : State.queue { s with colls := y } q = s.queue q := rfl
@[simp] theorem State.part_with_colls (y : List Coll) (p : PartId) : State.part { s with colls := y } p = s.part p := rfl
@[simp] theorem State.fn_with_colls (y : List Coll) (f : FnId) : State.fn { s with colls := y } f = s.fn f := rfl
@[simp] theorem State.port_with_colls (y : List Coll) (i : PortId) : State.port { s with colls := y } i = s.port i := rfl
@[simp] theorem State.tile_with_flt (y : FaultUnit) (t : TileId) : State.tile { s with flt := y } t = s.tile t := rfl
@[simp] theorem State.die_with_flt (y : FaultUnit) (d : DieId) : State.die { s with flt := y } d = s.die d := rfl
@[simp] theorem State.stack_with_flt (y : FaultUnit) (k : StackId) : State.stack { s with flt := y } k = s.stack k := rfl
@[simp] theorem State.queue_with_flt (y : FaultUnit) (q : QueueId) : State.queue { s with flt := y } q = s.queue q := rfl
@[simp] theorem State.part_with_flt (y : FaultUnit) (p : PartId) : State.part { s with flt := y } p = s.part p := rfl
@[simp] theorem State.fn_with_flt (y : FaultUnit) (f : FnId) : State.fn { s with flt := y } f = s.fn f := rfl
@[simp] theorem State.port_with_flt (y : FaultUnit) (i : PortId) : State.port { s with flt := y } i = s.port i := rfl
@[simp] theorem State.tile_with_xqs (y : NMap XQueue) (t : TileId) : State.tile { s with xqs := y } t = s.tile t := rfl
@[simp] theorem State.die_with_xqs (y : NMap XQueue) (d : DieId) : State.die { s with xqs := y } d = s.die d := rfl
@[simp] theorem State.stack_with_xqs (y : NMap XQueue) (k : StackId) : State.stack { s with xqs := y } k = s.stack k := rfl
@[simp] theorem State.queue_with_xqs (y : NMap XQueue) (q : QueueId) : State.queue { s with xqs := y } q = s.queue q := rfl
@[simp] theorem State.part_with_xqs (y : NMap XQueue) (p : PartId) : State.part { s with xqs := y } p = s.part p := rfl
@[simp] theorem State.fn_with_xqs (y : NMap XQueue) (f : FnId) : State.fn { s with xqs := y } f = s.fn f := rfl
@[simp] theorem State.port_with_xqs (y : NMap XQueue) (i : PortId) : State.port { s with xqs := y } i = s.port i := rfl
@[simp] theorem State.tile_with_capo (y : Capo) (t : TileId) : State.tile { s with capo := y } t = s.tile t := rfl
@[simp] theorem State.die_with_capo (y : Capo) (d : DieId) : State.die { s with capo := y } d = s.die d := rfl
@[simp] theorem State.stack_with_capo (y : Capo) (k : StackId) : State.stack { s with capo := y } k = s.stack k := rfl
@[simp] theorem State.queue_with_capo (y : Capo) (q : QueueId) : State.queue { s with capo := y } q = s.queue q := rfl
@[simp] theorem State.part_with_capo (y : Capo) (p : PartId) : State.part { s with capo := y } p = s.part p := rfl
@[simp] theorem State.fn_with_capo (y : Capo) (f : FnId) : State.fn { s with capo := y } f = s.fn f := rfl
@[simp] theorem State.port_with_capo (y : Capo) (i : PortId) : State.port { s with capo := y } i = s.port i := rfl
@[simp] theorem State.tile_with_pow (y : Power) (t : TileId) : State.tile { s with pow := y } t = s.tile t := rfl
@[simp] theorem State.die_with_pow (y : Power) (d : DieId) : State.die { s with pow := y } d = s.die d := rfl
@[simp] theorem State.stack_with_pow (y : Power) (k : StackId) : State.stack { s with pow := y } k = s.stack k := rfl
@[simp] theorem State.queue_with_pow (y : Power) (q : QueueId) : State.queue { s with pow := y } q = s.queue q := rfl
@[simp] theorem State.part_with_pow (y : Power) (p : PartId) : State.part { s with pow := y } p = s.part p := rfl
@[simp] theorem State.fn_with_pow (y : Power) (f : FnId) : State.fn { s with pow := y } f = s.fn f := rfl
@[simp] theorem State.port_with_pow (y : Power) (i : PortId) : State.port { s with pow := y } i = s.port i := rfl
@[simp] theorem State.tile_with_boot (y : Boot) (t : TileId) : State.tile { s with boot := y } t = s.tile t := rfl
@[simp] theorem State.die_with_boot (y : Boot) (d : DieId) : State.die { s with boot := y } d = s.die d := rfl
@[simp] theorem State.stack_with_boot (y : Boot) (k : StackId) : State.stack { s with boot := y } k = s.stack k := rfl
@[simp] theorem State.queue_with_boot (y : Boot) (q : QueueId) : State.queue { s with boot := y } q = s.queue q := rfl
@[simp] theorem State.part_with_boot (y : Boot) (p : PartId) : State.part { s with boot := y } p = s.part p := rfl
@[simp] theorem State.fn_with_boot (y : Boot) (f : FnId) : State.fn { s with boot := y } f = s.fn f := rfl
@[simp] theorem State.port_with_boot (y : Boot) (i : PortId) : State.port { s with boot := y } i = s.port i := rfl
@[simp] theorem State.tile_with_tel (y : Telem) (t : TileId) : State.tile { s with tel := y } t = s.tile t := rfl
@[simp] theorem State.die_with_tel (y : Telem) (d : DieId) : State.die { s with tel := y } d = s.die d := rfl
@[simp] theorem State.stack_with_tel (y : Telem) (k : StackId) : State.stack { s with tel := y } k = s.stack k := rfl
@[simp] theorem State.queue_with_tel (y : Telem) (q : QueueId) : State.queue { s with tel := y } q = s.queue q := rfl
@[simp] theorem State.part_with_tel (y : Telem) (p : PartId) : State.part { s with tel := y } p = s.part p := rfl
@[simp] theorem State.fn_with_tel (y : Telem) (f : FnId) : State.fn { s with tel := y } f = s.fn f := rfl
@[simp] theorem State.port_with_tel (y : Telem) (i : PortId) : State.port { s with tel := y } i = s.port i := rfl
@[simp] theorem State.tile_with_side (y : Sideband) (t : TileId) : State.tile { s with side := y } t = s.tile t := rfl
@[simp] theorem State.die_with_side (y : Sideband) (d : DieId) : State.die { s with side := y } d = s.die d := rfl
@[simp] theorem State.stack_with_side (y : Sideband) (k : StackId) : State.stack { s with side := y } k = s.stack k := rfl
@[simp] theorem State.queue_with_side (y : Sideband) (q : QueueId) : State.queue { s with side := y } q = s.queue q := rfl
@[simp] theorem State.part_with_side (y : Sideband) (p : PartId) : State.part { s with side := y } p = s.part p := rfl
@[simp] theorem State.fn_with_side (y : Sideband) (f : FnId) : State.fn { s with side := y } f = s.fn f := rfl
@[simp] theorem State.port_with_side (y : Sideband) (i : PortId) : State.port { s with side := y } i = s.port i := rfl

/-! ## Semaphores and counters -/

theorem State.sem_setSem (n m : BitVec 14) (v : BitVec 32) : (s.setSem n v).sem m = if m = n then v else s.sem m := by
  simp [State.sem, State.setSem, mapGet_put, BitVec.toNat_inj]

@[simp] theorem State.sem_setSem_self (n : BitVec 14) (v : BitVec 32) : (s.setSem n v).sem n = v := by simp [State.sem_setSem]

@[simp] theorem State.ctr_setCtr_self (k : StackId) (c : BitVec 12) (v : BitVec 48) : (s.setCtr k c v).ctr k c = v := by
  simp [State.ctr, State.setCtr]

@[simp] theorem State.pending_setSem (m : BitVec 14) (v : BitVec 32) : (s.setSem m v).pending = s.pending := rfl
@[simp] theorem State.pending_setCtr (k : StackId) (c : BitVec 12) (v : BitVec 48) : (s.setCtr k c v).pending = s.pending := rfl
@[simp] theorem State.time_setSem (m : BitVec 14) (v : BitVec 32) : (s.setSem m v).time = s.time := rfl
@[simp] theorem State.time_setCtr (k : StackId) (c : BitVec 12) (v : BitVec 48) : (s.setCtr k c v).time = s.time := rfl
@[simp] theorem State.fresh_setSem (m : BitVec 14) (v : BitVec 32) : (s.setSem m v).fresh = s.fresh := rfl
@[simp] theorem State.fresh_setCtr (k : StackId) (c : BitVec 12) (v : BitVec 48) : (s.setCtr k c v).fresh = s.fresh := rfl
@[simp] theorem State.tiles_setSem (m : BitVec 14) (v : BitVec 32) : (s.setSem m v).tiles = s.tiles := rfl
@[simp] theorem State.tiles_setCtr (k : StackId) (c : BitVec 12) (v : BitVec 48) : (s.setCtr k c v).tiles = s.tiles := rfl
@[simp] theorem State.dies_setSem (m : BitVec 14) (v : BitVec 32) : (s.setSem m v).dies = s.dies := rfl
@[simp] theorem State.dies_setCtr (k : StackId) (c : BitVec 12) (v : BitVec 48) : (s.setCtr k c v).dies = s.dies := rfl
@[simp] theorem State.memStacks_setSem (m : BitVec 14) (v : BitVec 32) : (s.setSem m v).memStacks = s.memStacks := rfl
@[simp] theorem State.memStacks_setCtr (k : StackId) (c : BitVec 12) (v : BitVec 48) : (s.setCtr k c v).memStacks = s.memStacks := rfl
@[simp] theorem State.mem_setSem (m : BitVec 14) (v : BitVec 32) : (s.setSem m v).mem = s.mem := rfl
@[simp] theorem State.mem_setCtr (k : StackId) (c : BitVec 12) (v : BitVec 48) : (s.setCtr k c v).mem = s.mem := rfl
@[simp] theorem State.poison_setSem (m : BitVec 14) (v : BitVec 32) : (s.setSem m v).poison = s.poison := rfl
@[simp] theorem State.poison_setCtr (k : StackId) (c : BitVec 12) (v : BitVec 48) : (s.setCtr k c v).poison = s.poison := rfl
@[simp] theorem State.host_setSem (m : BitVec 14) (v : BitVec 32) : (s.setSem m v).host = s.host := rfl
@[simp] theorem State.host_setCtr (k : StackId) (c : BitVec 12) (v : BitVec 48) : (s.setCtr k c v).host = s.host := rfl
@[simp] theorem State.atsOn_setSem (m : BitVec 14) (v : BitVec 32) : (s.setSem m v).atsOn = s.atsOn := rfl
@[simp] theorem State.atsOn_setCtr (k : StackId) (c : BitVec 12) (v : BitVec 48) : (s.setCtr k c v).atsOn = s.atsOn := rfl
@[simp] theorem State.sems_setCtr (k : StackId) (c : BitVec 12) (v : BitVec 48) : (s.setCtr k c v).sems = s.sems := rfl
@[simp] theorem State.semWaits_setSem (m : BitVec 14) (v : BitVec 32) : (s.setSem m v).semWaits = s.semWaits := rfl
@[simp] theorem State.semWaits_setCtr (k : StackId) (c : BitVec 12) (v : BitVec 48) : (s.setCtr k c v).semWaits = s.semWaits := rfl
@[simp] theorem State.ctrs_setSem (m : BitVec 14) (v : BitVec 32) : (s.setSem m v).ctrs = s.ctrs := rfl
@[simp] theorem State.ctrWaits_setSem (m : BitVec 14) (v : BitVec 32) : (s.setSem m v).ctrWaits = s.ctrWaits := rfl
@[simp] theorem State.ctrWaits_setCtr (k : StackId) (c : BitVec 12) (v : BitVec 48) : (s.setCtr k c v).ctrWaits = s.ctrWaits := rfl
@[simp] theorem State.queues_setSem (m : BitVec 14) (v : BitVec 32) : (s.setSem m v).queues = s.queues := rfl
@[simp] theorem State.queues_setCtr (k : StackId) (c : BitVec 12) (v : BitVec 48) : (s.setCtr k c v).queues = s.queues := rfl
@[simp] theorem State.parts_setSem (m : BitVec 14) (v : BitVec 32) : (s.setSem m v).parts = s.parts := rfl
@[simp] theorem State.parts_setCtr (k : StackId) (c : BitVec 12) (v : BitVec 48) : (s.setCtr k c v).parts = s.parts := rfl
@[simp] theorem State.loans_setSem (m : BitVec 14) (v : BitVec 32) : (s.setSem m v).loans = s.loans := rfl
@[simp] theorem State.loans_setCtr (k : StackId) (c : BitVec 12) (v : BitVec 48) : (s.setCtr k c v).loans = s.loans := rfl
@[simp] theorem State.fns_setSem (m : BitVec 14) (v : BitVec 32) : (s.setSem m v).fns = s.fns := rfl
@[simp] theorem State.fns_setCtr (k : StackId) (c : BitVec 12) (v : BitVec 48) : (s.setCtr k c v).fns = s.fns := rfl
@[simp] theorem State.vfs_setSem (m : BitVec 14) (v : BitVec 32) : (s.setSem m v).vfs = s.vfs := rfl
@[simp] theorem State.vfs_setCtr (k : StackId) (c : BitVec 12) (v : BitVec 48) : (s.setCtr k c v).vfs = s.vfs := rfl
@[simp] theorem State.jobs_setSem (m : BitVec 14) (v : BitVec 32) : (s.setSem m v).jobs = s.jobs := rfl
@[simp] theorem State.jobs_setCtr (k : StackId) (c : BitVec 12) (v : BitVec 48) : (s.setCtr k c v).jobs = s.jobs := rfl
@[simp] theorem State.msixSent_setSem (m : BitVec 14) (v : BitVec 32) : (s.setSem m v).msixSent = s.msixSent := rfl
@[simp] theorem State.msixSent_setCtr (k : StackId) (c : BitVec 12) (v : BitVec 48) : (s.setCtr k c v).msixSent = s.msixSent := rfl
@[simp] theorem State.fab_setSem (m : BitVec 14) (v : BitVec 32) : (s.setSem m v).fab = s.fab := rfl
@[simp] theorem State.fab_setCtr (k : StackId) (c : BitVec 12) (v : BitVec 48) : (s.setCtr k c v).fab = s.fab := rfl
@[simp] theorem State.tb_setSem (m : BitVec 14) (v : BitVec 32) : (s.setSem m v).tb = s.tb := rfl
@[simp] theorem State.tb_setCtr (k : StackId) (c : BitVec 12) (v : BitVec 48) : (s.setCtr k c v).tb = s.tb := rfl
@[simp] theorem State.colls_setSem (m : BitVec 14) (v : BitVec 32) : (s.setSem m v).colls = s.colls := rfl
@[simp] theorem State.colls_setCtr (k : StackId) (c : BitVec 12) (v : BitVec 48) : (s.setCtr k c v).colls = s.colls := rfl
@[simp] theorem State.flt_setSem (m : BitVec 14) (v : BitVec 32) : (s.setSem m v).flt = s.flt := rfl
@[simp] theorem State.flt_setCtr (k : StackId) (c : BitVec 12) (v : BitVec 48) : (s.setCtr k c v).flt = s.flt := rfl
@[simp] theorem State.xqs_setSem (m : BitVec 14) (v : BitVec 32) : (s.setSem m v).xqs = s.xqs := rfl
@[simp] theorem State.xqs_setCtr (k : StackId) (c : BitVec 12) (v : BitVec 48) : (s.setCtr k c v).xqs = s.xqs := rfl
@[simp] theorem State.capo_setSem (m : BitVec 14) (v : BitVec 32) : (s.setSem m v).capo = s.capo := rfl
@[simp] theorem State.capo_setCtr (k : StackId) (c : BitVec 12) (v : BitVec 48) : (s.setCtr k c v).capo = s.capo := rfl
@[simp] theorem State.pow_setSem (m : BitVec 14) (v : BitVec 32) : (s.setSem m v).pow = s.pow := rfl
@[simp] theorem State.pow_setCtr (k : StackId) (c : BitVec 12) (v : BitVec 48) : (s.setCtr k c v).pow = s.pow := rfl
@[simp] theorem State.boot_setSem (m : BitVec 14) (v : BitVec 32) : (s.setSem m v).boot = s.boot := rfl
@[simp] theorem State.boot_setCtr (k : StackId) (c : BitVec 12) (v : BitVec 48) : (s.setCtr k c v).boot = s.boot := rfl
@[simp] theorem State.tel_setSem (m : BitVec 14) (v : BitVec 32) : (s.setSem m v).tel = s.tel := rfl
@[simp] theorem State.tel_setCtr (k : StackId) (c : BitVec 12) (v : BitVec 48) : (s.setCtr k c v).tel = s.tel := rfl
@[simp] theorem State.side_setSem (m : BitVec 14) (v : BitVec 32) : (s.setSem m v).side = s.side := rfl
@[simp] theorem State.side_setCtr (k : StackId) (c : BitVec 12) (v : BitVec 48) : (s.setCtr k c v).side = s.side := rfl
@[simp] theorem State.tile_setSem (m : BitVec 14) (v : BitVec 32) (t : TileId) : (s.setSem m v).tile t = s.tile t := rfl
@[simp] theorem State.die_setSem (m : BitVec 14) (v : BitVec 32) (d : DieId) : (s.setSem m v).die d = s.die d := rfl
@[simp] theorem State.stack_setSem (m : BitVec 14) (v : BitVec 32) (k : StackId) : (s.setSem m v).stack k = s.stack k := rfl
@[simp] theorem State.queue_setSem (m : BitVec 14) (v : BitVec 32) (q : QueueId) : (s.setSem m v).queue q = s.queue q := rfl
@[simp] theorem State.part_setSem (m : BitVec 14) (v : BitVec 32) (p : PartId) : (s.setSem m v).part p = s.part p := rfl
@[simp] theorem State.fn_setSem (m : BitVec 14) (v : BitVec 32) (f : FnId) : (s.setSem m v).fn f = s.fn f := rfl
@[simp] theorem State.port_setSem (m : BitVec 14) (v : BitVec 32) (i : PortId) : (s.setSem m v).port i = s.port i := rfl

/-! ## Sequencers and panes -/

@[simp] theorem State.updSeq_tile_self (t : TileId) (h : Seq → Seq) :
    (s.updSeq t h).tile t = { s.tile t with seq := h (s.tile t).seq } := by simp [State.updSeq]

theorem State.updSeq_tile_ne {t u : TileId} (h : Seq → Seq) (hu : u ≠ t) : (s.updSeq t h).tile u = s.tile u := by
  simp [State.updSeq, State.tile_updTile_ne _ _ hu]

@[simp] theorem State.pending_updSeq (t : TileId) (h : Seq → Seq) : (s.updSeq t h).pending = s.pending := rfl
@[simp] theorem State.time_updSeq (t : TileId) (h : Seq → Seq) : (s.updSeq t h).time = s.time := rfl
@[simp] theorem State.fresh_updSeq (t : TileId) (h : Seq → Seq) : (s.updSeq t h).fresh = s.fresh := rfl
@[simp] theorem State.dies_updSeq (t : TileId) (h : Seq → Seq) : (s.updSeq t h).dies = s.dies := rfl
@[simp] theorem State.memStacks_updSeq (t : TileId) (h : Seq → Seq) : (s.updSeq t h).memStacks = s.memStacks := rfl
@[simp] theorem State.mem_updSeq (t : TileId) (h : Seq → Seq) : (s.updSeq t h).mem = s.mem := rfl
@[simp] theorem State.poison_updSeq (t : TileId) (h : Seq → Seq) : (s.updSeq t h).poison = s.poison := rfl
@[simp] theorem State.host_updSeq (t : TileId) (h : Seq → Seq) : (s.updSeq t h).host = s.host := rfl
@[simp] theorem State.atsOn_updSeq (t : TileId) (h : Seq → Seq) : (s.updSeq t h).atsOn = s.atsOn := rfl
@[simp] theorem State.sems_updSeq (t : TileId) (h : Seq → Seq) : (s.updSeq t h).sems = s.sems := rfl
@[simp] theorem State.semWaits_updSeq (t : TileId) (h : Seq → Seq) : (s.updSeq t h).semWaits = s.semWaits := rfl
@[simp] theorem State.ctrs_updSeq (t : TileId) (h : Seq → Seq) : (s.updSeq t h).ctrs = s.ctrs := rfl
@[simp] theorem State.ctrWaits_updSeq (t : TileId) (h : Seq → Seq) : (s.updSeq t h).ctrWaits = s.ctrWaits := rfl
@[simp] theorem State.queues_updSeq (t : TileId) (h : Seq → Seq) : (s.updSeq t h).queues = s.queues := rfl
@[simp] theorem State.parts_updSeq (t : TileId) (h : Seq → Seq) : (s.updSeq t h).parts = s.parts := rfl
@[simp] theorem State.loans_updSeq (t : TileId) (h : Seq → Seq) : (s.updSeq t h).loans = s.loans := rfl
@[simp] theorem State.fns_updSeq (t : TileId) (h : Seq → Seq) : (s.updSeq t h).fns = s.fns := rfl
@[simp] theorem State.vfs_updSeq (t : TileId) (h : Seq → Seq) : (s.updSeq t h).vfs = s.vfs := rfl
@[simp] theorem State.jobs_updSeq (t : TileId) (h : Seq → Seq) : (s.updSeq t h).jobs = s.jobs := rfl
@[simp] theorem State.msixSent_updSeq (t : TileId) (h : Seq → Seq) : (s.updSeq t h).msixSent = s.msixSent := rfl
@[simp] theorem State.fab_updSeq (t : TileId) (h : Seq → Seq) : (s.updSeq t h).fab = s.fab := rfl
@[simp] theorem State.tb_updSeq (t : TileId) (h : Seq → Seq) : (s.updSeq t h).tb = s.tb := rfl
@[simp] theorem State.colls_updSeq (t : TileId) (h : Seq → Seq) : (s.updSeq t h).colls = s.colls := rfl
@[simp] theorem State.flt_updSeq (t : TileId) (h : Seq → Seq) : (s.updSeq t h).flt = s.flt := rfl
@[simp] theorem State.xqs_updSeq (t : TileId) (h : Seq → Seq) : (s.updSeq t h).xqs = s.xqs := rfl
@[simp] theorem State.capo_updSeq (t : TileId) (h : Seq → Seq) : (s.updSeq t h).capo = s.capo := rfl
@[simp] theorem State.pow_updSeq (t : TileId) (h : Seq → Seq) : (s.updSeq t h).pow = s.pow := rfl
@[simp] theorem State.boot_updSeq (t : TileId) (h : Seq → Seq) : (s.updSeq t h).boot = s.boot := rfl
@[simp] theorem State.tel_updSeq (t : TileId) (h : Seq → Seq) : (s.updSeq t h).tel = s.tel := rfl
@[simp] theorem State.side_updSeq (t : TileId) (h : Seq → Seq) : (s.updSeq t h).side = s.side := rfl
@[simp] theorem State.die_updSeq (t : TileId) (h : Seq → Seq) (d : DieId) : (s.updSeq t h).die d = s.die d := rfl
@[simp] theorem State.stack_updSeq (t : TileId) (h : Seq → Seq) (k : StackId) : (s.updSeq t h).stack k = s.stack k := rfl
@[simp] theorem State.queue_updSeq (t : TileId) (h : Seq → Seq) (q : QueueId) : (s.updSeq t h).queue q = s.queue q := rfl
@[simp] theorem State.part_updSeq (t : TileId) (h : Seq → Seq) (p : PartId) : (s.updSeq t h).part p = s.part p := rfl
@[simp] theorem State.fn_updSeq (t : TileId) (h : Seq → Seq) (f : FnId) : (s.updSeq t h).fn f = s.fn f := rfl
@[simp] theorem State.port_updSeq (t : TileId) (h : Seq → Seq) (i : PortId) : (s.updSeq t h).port i = s.port i := rfl

@[simp] theorem Tile.pane_setPane_self (x : Tile) (p : PaneId) (y : Pane) : (x.setPane p y).pane p = y := by
  simp [Tile.pane, Tile.setPane]

theorem Tile.pane_setPane_ne (x : Tile) {p o : PaneId} (y : Pane) (h : o ≠ p) : (x.setPane p y).pane o = x.pane o := by
  simp [Tile.pane, Tile.setPane, mapGet_put, Fin.val_ne_of_ne h]

@[simp] theorem State.updPane_pane_self (t : TileId) (p : PaneId) (h : Pane → Pane) :
    ((s.updPane t p h).tile t).pane p = h ((s.tile t).pane p) := by simp [State.updPane]

end Sys2Proof.Machine
end

