-- ==== Sys2Proof/Laws/Report.lean ====
section
/-! SUPPORT. What a report can change: the rings and what they are written into, the causes and vectors, the records'
numbers, the counters (R297 to R300, R409 to R411, R506 to R511). -/

namespace Sys2Proof.Machine

theorem State.reportsTo.refl (s : State) : s.reportsTo s := rfl

theorem State.reportsTo.trans {a b c : State} (h : a.reportsTo b) (k : b.reportsTo c) : a.reportsTo c :=
  Eq.trans k (congrArg (fun x : State => { x with
    mem := c.mem, poison := c.poison, host := c.host, ctrs := c.ctrs, ctrWaits := c.ctrWaits, fns := c.fns
    msixSent := c.msixSent, fresh := c.fresh
    tel := { x.tel with evSeq := c.tel.evSeq, evAt := c.tel.evAt, perf := c.tel.perf, err := c.tel.err }
    flt := { x.flt with nextNo := c.flt.nextNo, masked := c.flt.masked } }) h)

theorem State.agentWriteLine_reportsTo (s : State) (pa : Nat) (b : Bytes) : s.reportsTo (s.agentWriteLine pa b).1 := by
  simp only [State.agentWriteLine]
  split
  · rfl
  · split <;> rfl

theorem State.agentWritePieces_reportsTo (l : List (Nat × Bytes)) : ∀ s : State, s.reportsTo (s.agentWritePieces l).1 := by
  induction l with
  | nil => exact fun s => rfl
  | cons p l ih => exact fun s => (s.agentWriteLine_reportsTo p.1 p.2).trans (ih _)

theorem State.writeCounter_reportsTo (s : State) (k : StackId) (c : BitVec 12) (v : BitVec 48) : s.reportsTo (s.writeCounter k c v) := rfl

theorem State.agentWrite_reportsTo (s : State) (kn : Bool) (pa : Nat) (b : Bytes) : s.reportsTo (s.agentWrite kn pa b).1 := by
  unfold State.agentWrite
  split
  · rfl
  · split
    · split
      · rfl
      · exact s.agentWritePieces_reportsTo _
    · split
      · split <;> rfl
      · rfl
    · rfl
    · rfl

theorem State.agentWriteVa_reportsTo (p : PartId) (kn : Bool) (l : List (Nat × Bytes)) : ∀ s : State, s.reportsTo (s.agentWriteVa p kn l).1 := by
  induction l with
  | nil => exact fun s => rfl
  | cons e l ih =>
    intro s
    unfold State.agentWriteVa
    split
    · rfl
    · have h := s.agentWrite_reportsTo kn (Xlat.pa ‹_›) e.2
      split
      · rename_i h2; rw [h2] at h; exact h.trans (ih _)
      · rename_i h2; rw [h2] at h; exact h

theorem State.hostWrite_reportsTo (s : State) (a : Nat) (b : Bytes) : s.reportsTo (s.hostWrite a b).1 := by
  simp only [State.hostWrite, State.ats]; split <;> split <;> rfl

theorem State.ringWrite_reportsTo (s : State) (f : FnId) (a : Nat) (b : Bytes) : s.reportsTo (s.ringWrite f a b).1 := by
  unfold State.ringWrite
  split
  · exact s.agentWrite_reportsTo _ _ _
  · exact State.agentWriteVa_reportsTo _ _ _ s
  · exact s.hostWrite_reportsTo _ _
  · rfl

theorem State.ringWriteAll_reportsTo (f : FnId) (r : Ring) (l : List Bytes) : ∀ (s : State) (i : Nat), s.reportsTo (s.ringWriteAll f r i l).1 := by
  induction l with
  | nil => exact fun s i => rfl
  | cons b l ih =>
    intro s i
    unfold State.ringWriteAll
    have h := s.ringWrite_reportsTo f (r.base.toNat + 64 * ((r.prod.toNat + i) % 2 ^ r.sizeLog2)) b
    split
    · rename_i h2; rw [h2] at h; exact h.trans (ih _ _)
    · rename_i h2; rw [h2] at h; exact h

theorem State.raiseVector_reportsTo (s : State) (f : FnId) (e : Nat) : s.reportsTo (s.raiseVector f e) := by
  simp only [State.raiseVector]; split <;> rfl

theorem State.setCause_reportsTo (s : State) (f : FnId) (i : Nat) : s.reportsTo (s.setCause f i) := by
  simp only [State.setCause]
  split
  · rfl
  · exact State.reportsTo.trans (b := s.setFn f _) rfl (State.raiseVector_reportsTo _ _ _)

theorem State.causeBoth_reportsTo (s : State) (p : Option PartId) (i : Nat) : s.reportsTo (s.causeBoth p i) := by
  simp only [State.causeBoth]
  split
  · exact s.setCause_reportsTo _ _
  · exact (s.setCause_reportsTo _ _).trans (State.setCause_reportsTo _ _ _)

theorem State.ringDrop_reportsTo (s : State) (f : FnId) (k : RingId) : s.reportsTo (s.ringDrop f k) :=
  State.reportsTo.trans (b := s.setRing f k _) rfl (State.setCause_reportsTo _ _ _)

theorem State.ringPut_reportsTo (s : State) (f : FnId) (k : RingId) (l : List Bytes) : s.reportsTo (s.ringPut f k l) := by
  simp only [State.ringPut]
  split
  · rfl
  · split
    · exact s.ringDrop_reportsTo _ _
    · have h := State.ringWriteAll_reportsTo f (s.ringOf f k) l s 0
      split
      · rename_i h2; rw [h2] at h; exact h.trans (State.ringDrop_reportsTo _ _ _)
      · rename_i h2; rw [h2] at h
        exact h.trans (State.reportsTo.trans (b := State.setRing _ f k _) rfl (State.setCause_reportsTo _ _ _))

theorem State.nextSrcSeq_reportsTo (s : State) (src : BitVec 16) : s.reportsTo (s.nextSrcSeq src).2 := rfl

theorem State.numbered_reportsTo (s : State) (n : BitVec 24) : s.reportsTo { s with flt := { s.flt with nextNo := n } } := rfl

theorem State.evAt_reportsTo (s : State) (m : NMap (Option Nat)) : s.reportsTo { s with tel := { s.tel with evAt := m } } := rfl

theorem State.perf_reportsTo (s : State) (m : NMap (BitVec 49)) : s.reportsTo { s with tel := { s.tel with perf := m } } := rfl

theorem State.masked_reportsTo (s : State) (m : List MaskedRun) : s.reportsTo { s with flt := { s.flt with masked := m } } := rfl

/-- A fault record takes the next number and goes into the rings. -/
theorem State.recordFault_reportsTo (s : State) (r : FaultRec) : s.reportsTo (s.recordFault r).2 := by
  simp only [State.recordFault]
  split
  · exact ((s.nextSrcSeq_reportsTo r.src).trans (State.numbered_reportsTo _ _)).trans (State.ringPut_reportsTo _ _ _ _)
  · exact (((s.nextSrcSeq_reportsTo r.src).trans (State.numbered_reportsTo _ _)).trans (State.ringPut_reportsTo _ _ _ _)).trans
      (State.ringPut_reportsTo _ _ _ _)

theorem State.event_reportsTo (s : State) (src : BitVec 16) (code : Byte) (data : Nat) (part : Option PartId) :
    s.reportsTo (s.event src code data part) := by
  have go : ∀ key, s.reportsTo (State.event.go s src code data part key) := by
    intro key
    simp only [State.event.go]
    split
    · exact ((s.nextSrcSeq_reportsTo src).trans (State.evAt_reportsTo _ _)).trans (State.ringPut_reportsTo _ _ _ _)
    · exact (((s.nextSrcSeq_reportsTo src).trans (State.evAt_reportsTo _ _)).trans (State.ringPut_reportsTo _ _ _ _)).trans
        (State.ringPut_reportsTo _ _ _ _)
  simp only [State.event]
  split
  · split
    · rfl
    · exact go _
  · exact go _

theorem State.perfAdd_reportsTo (s : State) (src : BitVec 16) (i n : Nat) : s.reportsTo (s.perfAdd src i n) := by
  simp only [State.perfAdd]
  split
  · exact (s.perf_reportsTo _).trans (State.event_reportsTo _ _ _ _ _)
  · rfl

theorem State.errAdd_reportsTo (s : State) (src : BitVec 16) (i : Nat) : s.reportsTo (s.errAdd src i) := rfl

theorem State.maskedRecord_reportsTo (s : State) (r : FaultRec) (n : Nat) (l : List MaskedRun) : s.reportsTo (s.maskedRecord r n l) :=
  (s.masked_reportsTo _).trans (State.recordFault_reportsTo _ _)

theorem State.maskedError_reportsTo (s : State) (r : FaultRec) : s.reportsTo (s.maskedError r) := by
  simp only [State.maskedError]
  split
  · split
    · rfl
    · exact s.maskedRecord_reportsTo _ _ _
  · exact s.maskedRecord_reportsTo _ _ _

theorem State.maskedDue_reportsTo (s : State) : s.reportsTo s.maskedDue := by
  simp only [State.maskedDue]
  split
  · rfl
  · exact s.maskedRecord_reportsTo _ _ _

/-- Without overflow events a performance counter's addition changes that counter alone. -/
theorem State.perfAdd_quiet (s : State) (src : BitVec 16) (i n : Nat) (h : s.tel.trace.ovfEvent = false) :
    s.perfAdd src i n = { s with tel := { s.tel with perf := (s.perfAdd src i n).tel.perf } } := by
  simp only [State.perfAdd, h, Bool.and_false]; rfl

/-- A trace record changes the trace's numbers and FIFOs alone. -/
theorem State.trace_frame (s : State) (src : BitVec 16) (k d : Nat) :
    s.trace src k d = { s with tel := { s.tel with trSeq := (s.trace src k d).tel.trSeq }, xqs := (s.trace src k d).xqs } := by
  simp only [State.trace]; split <;> rfl

end Sys2Proof.Machine
end

