-- ==== Sys2Proof/WellFormed.lean ====
section
/-! DEFINITION. Well-formed commands: operands of the sizes that the interfaces carry. What a command's meaning checks
itself (a reserved field, a length that a layout states) is no matter of form. -/

namespace Sys2Proof

/-- A payload fits the buffer behind its header (R288). -/
def msgFits (m : Msg) : Bool := m.payload.length ≤ 4080

def sourceFits (r : PartSource) : Bool :=
  match r with
  | .msg m => msgFits m
  | .cmd _ => true

/-- A packet carries at most 4,096 bytes (R315). -/
def packetFits (k : Packet) : Bool := k.data.length ≤ 4096

/-- A stack agent's access lies in one line of 64 bytes (R225). -/
def accessFits (a : StackAccess) : Bool := 1 ≤ a.bytes && a.pa.toNat % 64 + a.bytes ≤ 64

/-- An outcome for each of the 24 stacks, and a rate and a width that R467 lists. -/
def startFits (o : StartOutcome) : Bool :=
  o.memStacks.length = 24 && o.pcieRate.toNat ≤ 6 && ([0, 1, 4, 8, 16] : List (BitVec 5)).contains o.pcieWidth

/-- Whether a command's operands have the sizes that its interface carries. -/
def Instr.wellFormed (i : Instr) : Bool :=
  match i with
  | .aluAdd _ _ => true
  | .aluSub _ _ => true
  | .aluAnd _ _ => true
  | .aluOr _ _ => true
  | .aluXor _ _ => true
  | .aluShl _ _ => true
  | .aluShr _ _ => true
  | .aluSar _ _ => true
  | .aluMul _ _ => true
  | .aluMulhs _ _ => true
  | .aluMulhu _ _ => true
  | .aluDivs _ _ => true
  | .aluDivu _ _ => true
  | .aluRems _ _ => true
  | .aluRemu _ _ => true
  | .aluSlt _ _ => true
  | .aluSltu _ _ => true
  | .aluMin _ _ => true
  | .aluMax _ _ => true
  | .addi _ _ => true
  | .andi _ _ => true
  | .ori _ _ => true
  | .xori _ _ => true
  | .shi _ _ => true
  | .slti _ _ => true
  | .sltiu _ _ => true
  | .lui _ _ => true
  | .limm _ _ => true
  | .ld8u _ _ => true
  | .ld16u _ _ => true
  | .ld32u _ _ => true
  | .ld64 _ _ => true
  | .ld8s _ _ => true
  | .ld16s _ _ => true
  | .ld32s _ _ => true
  | .st8 _ _ => true
  | .st16 _ _ => true
  | .st32 _ _ => true
  | .st64 _ _ => true
  | .beq _ _ => true
  | .bne _ _ => true
  | .blt _ _ => true
  | .bge _ _ => true
  | .bltu _ _ => true
  | .bgeu _ _ => true
  | .jmp _ _ => true
  | .call _ _ => true
  | .jr _ _ => true
  | .evsig _ _ => true
  | .evwait _ _ => true
  | .evwaitRelease _ => true
  | .srrd _ _ => true
  | .srwr _ _ => true
  | .sync _ _ => true
  | .syncRelease _ => true
  | .endProgram _ _ => true
  | .tileDone _ => true
  | .trap _ _ => true
  | .wdone _ _ => true
  | .mma _ _ => true
  | .vec _ _ => true
  | .dma _ _ => true
  | .issueStallRelease _ => true
  | .semSignal _ _ => true
  | .semWait _ _ => true
  | .semTake _ _ => true
  | .semRead _ _ => true
  | .semSet _ _ => true
  | .semWaitRelease _ => true
  | .semBudgetExpiry _ => true
  | .instructionStoreFill _ => true
  | .matrixInstructionStart _ => true
  | .paneReconfigure _ => true
  | .stationarySetLoaded _ _ => true
  | .swap _ _ => true
  | .passEnd _ _ _ => true
  | .readout _ _ _ => true
  | .spill _ _ _ => true
  | .reload _ _ => true
  | .operationComplete _ _ _ => true
  | .vecAdd _ => true
  | .vecSub _ => true
  | .vecMul _ => true
  | .fma _ => true
  | .fnma _ => true
  | .div _ => true
  | .sqrt _ => true
  | .vecMin _ => true
  | .vecMax _ => true
  | .minnum _ => true
  | .maxnum _ => true
  | .abs _ => true
  | .neg _ => true
  | .cmp _ => true
  | .sel _ => true
  | .cvt _ => true
  | .funOp _ => true
  | .vecAnd _ => true
  | .vecOr _ => true
  | .vecXor _ => true
  | .vecShl _ => true
  | .vecShr _ => true
  | .vecSar _ => true
  | .mov _ => true
  | .perm _ => true
  | .iota _ => true
  | .vld _ => true
  | .vst _ => true
  | .gather _ => true
  | .scatter _ => true
  | .bcast _ => true
  | .ext _ => true
  | .kld _ => true
  | .kst _ => true
  | .cbind _ => true
  | .tmap _ => true
  | .treduce _ => true
  | .ttopk _ => true
  | .dmaCopy _ => true
  | .dmaGather _ => true
  | .dmaScatter _ => true
  | .segmentComplete _ _ => true
  | .scratchpadScrub _ _ => true
  | .zeroingDone _ => true
  | .dieCacheEviction _ line => line < 2 ^ 36
  | .cacheClearingDone _ => true
  | .stackRead _ a _ => accessFits a
  | .stackWrite _ a data _ => accessFits a && data.length = a.bytes
  | .stackScrub _ _ => true
  | .atomicAdd _ => true
  | .atomicSmin _ => true
  | .atomicSmax _ => true
  | .atomicUmin _ => true
  | .atomicUmax _ => true
  | .atomicAnd _ => true
  | .atomicOr _ => true
  | .atomicXor _ => true
  | .atomicSwap _ => true
  | .atomicCas _ => true
  | .atomicFret64Add _ => true
  | .atomicFret128Add _ => true
  | .atomicFp32Add _ => true
  | .counterWindowWrite _ _ _ _ _ => true
  | .counterPoll _ => true
  | .doorbellTailWrite _ _ _ => true
  | .cplHeadWrite _ _ _ => true
  | .commandFetch _ => true
  | .nop _ => true
  | .matmul _ => true
  | .kernel _ => true
  | .dmaCommand _ => true
  | .allReduce _ => true
  | .reduceScatter _ => true
  | .allGather _ => true
  | .broadcast _ => true
  | .reduce _ => true
  | .allToAll _ => true
  | .topKMerge _ => true
  | .barrier _ => true
  | .waitSemaphore _ => true
  | .takeSemaphore _ => true
  | .counterWait _ => true
  | .waitSatisfied _ => true
  | .signalSemaphoreAdd _ => true
  | .signalSemaphoreSet _ => true
  | .signalDoorbell _ => true
  | .signalWriteValue _ => true
  | .fence _ => true
  | .fenceAcquire _ => true
  | .fenceFlush _ => true
  | .cond _ => true
  | .loop _ => true
  | .callBuffer _ => true
  | .ptinval _ => true
  | .fwpass _ => true
  | .endOfCommandRelease _ _ => true
  | .completionPublish _ => true
  | .queueTimeout _ => true
  | .preemption _ => true
  | .arrayStopped _ => true
  | .vectorStopped _ => true
  | .dmaStopped _ => true
  | .contextSaveDone _ => true
  | .queueRestore _ => true
  | .partitionCreate r => sourceFits r
  | .partitionLend r => sourceFits r
  | .partitionReturn r => sourceFits r
  | .partitionDelete r => sourceFits r
  | .partitionConfigure r => sourceFits r
  | .becomeRoot _ => true
  | .resign _ => true
  | .stepForward _ => true
  | .setClockCeiling _ => true
  | .enterMatchedClock _ => true
  | .leaveMatchedClock _ => true
  | .getIdentity m => msgFits m
  | .getReadinessRecord m => msgFits m
  | .createQueue m => msgFits m
  | .destroyQueue m => msgFits m
  | .resumeQueue m => msgFits m
  | .haltQueue m => msgFits m
  | .resumeCompletionPath m => msgFits m
  | .setCheckedArithmetic m => msgFits m
  | .getPartitionConfiguration m => msgFits m
  | .setTranslationRoot m => msgFits m
  | .setScrubPeriod m => msgFits m
  | .getStackHealth m => msgFits m
  | .getDieCapacities m => msgFits m
  | .enterIdleReady m => msgFits m
  | .enterDrowse m => msgFits m
  | .enterDormant m => msgFits m
  | .enterActive m => msgFits m
  | .setPowerCap m => msgFits m
  | .getPowerState m => msgFits m
  | .installLicence m => msgFits m
  | .listLicences m => msgFits m
  | .stageFirmwareChunk m => msgFits m
  | .verifyStagedImage m => msgFits m
  | .commitStagedImage m => msgFits m
  | .startStagedImage m => msgFits m
  | .restartFromFlash m => msgFits m
  | .readCounters m => msgFits m
  | .configureTrace m => msgFits m
  | .readAgeing m => msgFits m
  | .setModuleIdentifier m => msgFits m
  | .loadRoutingTable m => msgFits m
  | .getPortStatus m => msgFits m
  | .readPostMortemArea m => msgFits m
  | .getOpenStringReason m => msgFits m
  | .runDiagnostic m => msgFits m
  | .readFirmwareTrace m => msgFits m
  | .readHubMemory m => msgFits m
  | .removeLicence m => msgFits m
  | .rollFirmwareBack m => msgFits m
  | .resetDisabledUnitRecord m => msgFits m
  | .debugUnlock m => msgFits m
  | .mailboxResponseExpiry _ => true
  | .bar0InvalidAccess _ _ _ size => 1 ≤ size && size ≤ 4096
  | .bar2Read _ _ n => 1 ≤ n && n ≤ 4096
  | .bar2Write _ _ data => 1 ≤ data.length && data.length ≤ 4096
  | .ringBaseWrite _ _ _ => true
  | .ringCfgWrite _ _ _ => true
  | .ringConsWrite _ _ _ => true
  | .kevMaskWrite _ _ => true
  | .msixUnmask _ _ => true
  | .registerWrite _ _ data => 1 ≤ data.length && data.length ≤ 64
  | .flrPhysicalFunction => true
  | .flrVirtualFunction _ => true
  | .perstNAssert => true
  | .perstNDeassert => true
  | .setEndpointId _ => true
  | .pldmRequest _ _ => true
  | .getVersion _ => true
  | .getCapabilities _ => true
  | .negotiateAlgorithms _ _ _ => true
  | .getDigests _ => true
  | .getCertificate _ _ _ _ => true
  | .challenge _ _ nonce => nonce.length = 32
  | .getMeasurements _ _ _ nonce => nonce.length = 32
  | .portTrained _ _ => true
  | .portRetrainAttempt _ => true
  | .codewordReceive _ _ => true
  | .laneUnfit _ _ _ => true
  | .lossOfSignal _ => true
  | .routeThrough _ k => packetFits k
  | .writePacket k => packetFits k
  | .writeAcknowledgement k => packetFits k
  | .readRequest k => packetFits k
  | .readData k => packetFits k
  | .refusal k => packetFits k
  | .resynchronise k => packetFits k
  | .resynchroniseAcknowledgement k => packetFits k
  | .retransmissionTimer _ _ _ => true
  | .packetAbandon _ _ _ => true
  | .resynchronisationRepeat _ _ => true
  | .managementPacket _ _ => true
  | .holdLapse _ _ => true
  | .routingTableLoad ds => ds.length ≤ 16384
  | .timeFlit _ _ => true
  | .timebaseAligned => true
  | .collectiveData k => packetFits k
  | .chunkSend _ _ _ => true
  | .collectiveOpening k => packetFits k
  | .closingRound _ _ => true
  | .collectiveClosing k => packetFits k
  | .collectiveCredit k => packetFits k
  | .collectiveAbort k => packetFits k
  | .abortCompletion _ _ => true
  | .progressTimeout _ _ => true
  | .collectiveDamp k => packetFits k
  | .dampBoundary _ _ => true
  | .collectiveUndamp k => packetFits k
  | .stagingRestore _ _ => true
  | .barrierRelease _ _ => true
  | .hashRecord _ _ _ => true
  | .peerLost _ => true
  | .engineWatchdog _ => true
  | .firmwareHeartbeat => true
  | .heartbeatExpiry => true
  | .hubLockstepMismatch _ _ => true
  | .crossingQueueMismatch _ => true
  | .bridgeFlitReceive _ _ => true
  | .regulatorFault _ _ => true
  | .tileReset _ => true
  | .dieReset _ => true
  | .moduleWarmReset => true
  | .moduleColdReset => true
  | .tileResetEscalation _ => true
  | .dieResetEscalation _ => true
  | .capoModuleLoop m => m.dies.length = 12
  | .dieLoop _ _ => true
  | .inputCeilingStretch _ => true
  | .inputCeilingRelease _ => true
  | .droopStretch _ _ => true
  | .droopRelease _ => true
  | .sagWarningAssert => true
  | .sagWarningDeassert => true
  | .sagLimitRelease => true
  | .sagReset => true
  | .sagRecovery => true
  | .sagRecoveryFailure => true
  | .thermalTrip _ => true
  | .energyInterval e => e.dies.length = 12 && e.memStacks.length ≤ 24 && e.links.length ≤ 6
  | .wake _ => true
  | .prsntNLow => true
  | .pwrEnAssert => true
  | .pwrEnDeassert => true
  | .inputOvervoltage => true
  | .inputLoss => true
  | .overcurrent => true
  | .aux3v3Loss => true
  | .refclkLoss => true
  | .refclkReturn => true
  | .moduleStart o => startFits o
  | .ready => true
  | .startWatchdogExpiry => true
  | .sealOpening => true
  | .presencePress => true
  | .presenceWindowClose => true
  | .maintJumperChange _ => true
  | .traceMove _ => true
  | .ageingSample a => 1 ≤ a.cls.toNat && a.cls.toNat ≤ 3
  | .inputReturn => true
  | .offTimeElapsed => true
  | .aux3v3Return => true
  | .slotIdStrapChange _ => true
  | .holdRenewal => true

end Sys2Proof
end

