-- ==== Sys2Proof/Tests/Slice0.lean ====
section
/-! SUPPORT. The package's own tests: ill-formed commands refused, a witness for the hypotheses of every clause of the
statements, and single steps with the results that the spec gives. -/

namespace Sys2Proof.Tests

open Sys2Proof.Machine

set_option Elab.async false

/-! ## Small states -/

/-- A tile that a command holds, its instruction store holding the bytes given at the start of the image, s1 and s2 set. -/
def codeTile (b : Bytes) : Tile :=
  { cmd := some ⟨0, 1⟩, seq := { run := .running, imgLen := 4096, store := [⟨0, putBytes [] 0 b⟩], regs := [(1, 0x40), (2, 3)] } }

/-- The module after reset but for tile 3. -/
def onTile (x : Tile) : State := State.reset.setTile 3 x

/-- Tile 3 with one instruction before it. -/
def in32 (w : BitVec 32) : State := onTile (codeTile (natLe w.toNat 4))
def in64 (x : BitVec 64) : State := onTile (codeTile (natLe x.toNat 8))

/-- An instruction's word of R128: opcode, d, a and the low 16 bits. -/
def asm (op d a low : Nat) : BitVec 32 := BitVec.ofNat 32 (op * 2 ^ 26 + d * 2 ^ 21 + a * 2 ^ 16 + low)

/-- The two words of a 64-bit instruction. -/
def asm64 (lo : BitVec 32) (hi : Nat) : BitVec 64 := BitVec.ofNat 32 hi ++ lo

/-- The value of a result, and whether it is one. -/
def got {α : Type} (d : α) : Except Fail α → α
  | .ok x => x
  | .error _ => d
def isOk {α : Type} : Except Fail α → Bool
  | .ok _ => true
  | .error _ => false

theorem ok_got {α : Type} (d : α) {x : Except Fail α} (h : isOk x = true) : x = .ok (got d x) := by
  cases x with
  | ok _ => rfl
  | error _ => cases h

theorem ok_is {α : Type} {a : α} {x : Except Fail α} (h : isOk x = true) (g : got a x = a) : x = .ok a := by
  rw [ok_got a h, g]

theorem pair_is {α : Type} {s : State} {a : α} {x : State × Except Fail α} (e : x.1 = s) (h : isOk x.2 = true)
    (g : got a x.2 = a) : x = (s, .ok a) := Prod.ext e (ok_is h g)

theorem pair_out {α : Type} {a : α} {x : State × Except Fail α} (h : isOk x.2 = true) (g : got a x.2 = a) :
    x = (x.1, .ok a) := Prod.ext rfl (ok_is h g)

/-- A tile's sequencer changed. -/
def seqd (x : Tile) (f : Seq → Seq) : Tile := { x with seq := f x.seq }

/-! ## Witnesses of the statements' hypotheses -/

theorem witness_ScalarArithmeticWritesDestination_1 :
    ∀ r ∈ aluRules, ∃ (s : State) (t : TileId) (w : BitVec 32), (s.at32 t w) ∧ (opOf w = 0x00) ∧ (fFn w = r.1) :=
  fun r hr => ⟨in32 (asm 0 5 1 (0x1000 + r.1)), 3, asm 0 5 1 (0x1000 + r.1), (by decide +kernel : ∀ r ∈ aluRules, ((in32 (asm 0 5 1 (0x1000 + r.1))).at32 3 (asm 0 5 1 (0x1000 + r.1))) ∧ (opOf (asm 0 5 1 (0x1000 + r.1)) = 0x00) ∧ (fFn (asm 0 5 1 (0x1000 + r.1)) = r.1)) r hr⟩

theorem witness_ScalarArithmeticWritesDestination_2 :
    ∀ r ∈ immRules, ∃ (s : State) (t : TileId) (w : BitVec 32), (s.at32 t w) ∧ (opOf w = r.1) :=
  fun r hr => ⟨in32 (asm r.1 5 (if r.1 = 0x08 then 0 else 1) (if r.1 = 0x05 then 0x43 else 0x8001)), 3, asm r.1 5 (if r.1 = 0x08 then 0 else 1) (if r.1 = 0x05 then 0x43 else 0x8001), (by decide +kernel : ∀ r ∈ immRules, ((in32 (asm r.1 5 (if r.1 = 0x08 then 0 else 1) (if r.1 = 0x05 then 0x43 else 0x8001))).at32 3 (asm r.1 5 (if r.1 = 0x08 then 0 else 1) (if r.1 = 0x05 then 0x43 else 0x8001))) ∧ (opOf (asm r.1 5 (if r.1 = 0x08 then 0 else 1) (if r.1 = 0x05 then 0x43 else 0x8001)) = r.1)) r hr⟩

theorem witness_ScalarArithmeticWritesDestination_3 :
    ∃ (s : State) (t : TileId) (x : BitVec 64), (s.at64 t x) ∧ (opOf (lowWord x) = 0x3A) ∧ (x.extractLsb' 0 21 = 0) :=
  ⟨in64 (asm64 (asm 0x3A 0 0 0) 0x80000000), 3, asm64 (asm 0x3A 0 0 0) 0x80000000, (by decide +kernel), (by decide +kernel), (by decide +kernel)⟩

theorem witness_ScalarLoadsAndStores_1 :
    ∀ r ∈ loadRules, ∃ (s : State) (t : TileId) (w : BitVec 32), (s.at32 t w) ∧ (opOf w = r.1) ∧ ((s.scalarAddr t w).toNat + r.2.2.1 ≤ 0x1800000) ∧ ((s.scalarAddr t w).toNat % r.2.2.1 = 0) ∧ ((s.scalarAddr t w).toNat / 8 ∉ (s.tile t).spoison) :=
  fun r hr => ⟨in32 (asm r.1 5 1 0xFFF8), 3, asm r.1 5 1 0xFFF8, (by decide +kernel : ∀ r ∈ loadRules, ((in32 (asm r.1 5 1 0xFFF8)).at32 3 (asm r.1 5 1 0xFFF8)) ∧ (opOf (asm r.1 5 1 0xFFF8) = r.1) ∧ (((in32 (asm r.1 5 1 0xFFF8)).scalarAddr 3 (asm r.1 5 1 0xFFF8)).toNat + r.2.2.1 ≤ 0x1800000) ∧ (((in32 (asm r.1 5 1 0xFFF8)).scalarAddr 3 (asm r.1 5 1 0xFFF8)).toNat % r.2.2.1 = 0) ∧ (((in32 (asm r.1 5 1 0xFFF8)).scalarAddr 3 (asm r.1 5 1 0xFFF8)).toNat / 8 ∉ ((in32 (asm r.1 5 1 0xFFF8)).tile 3).spoison)) r hr⟩

theorem witness_ScalarLoadsAndStores_2 :
    ∀ r ∈ storeRules, ∃ (s : State) (t : TileId) (w : BitVec 32), (s.at32 t w) ∧ (opOf w = r.1) ∧ ((s.scalarAddr t w).toNat + r.2.2 ≤ 0x1800000) ∧ ((s.scalarAddr t w).toNat % r.2.2 = 0) :=
  fun r hr => ⟨in32 (asm r.1 5 1 0xFFF8), 3, asm r.1 5 1 0xFFF8, (by decide +kernel : ∀ r ∈ storeRules, ((in32 (asm r.1 5 1 0xFFF8)).at32 3 (asm r.1 5 1 0xFFF8)) ∧ (opOf (asm r.1 5 1 0xFFF8) = r.1) ∧ (((in32 (asm r.1 5 1 0xFFF8)).scalarAddr 3 (asm r.1 5 1 0xFFF8)).toNat + r.2.2 ≤ 0x1800000) ∧ (((in32 (asm r.1 5 1 0xFFF8)).scalarAddr 3 (asm r.1 5 1 0xFFF8)).toNat % r.2.2 = 0)) r hr⟩

theorem witness_ScalarLoadsAndStores_3 :
    ∀ r ∈ loadRules, ∃ (s : State) (t : TileId) (w : BitVec 32), (s.at32 t w) ∧ (opOf w = r.1) ∧ (0x1800000 < (s.scalarAddr t w).toNat + r.2.2.1 ∨ (s.scalarAddr t w).toNat % r.2.2.1 ≠ 0) :=
  fun r hr => ⟨in32 (asm r.1 5 0 0xFFFF), 3, asm r.1 5 0 0xFFFF, (by decide +kernel : ∀ r ∈ loadRules, ((in32 (asm r.1 5 0 0xFFFF)).at32 3 (asm r.1 5 0 0xFFFF)) ∧ (opOf (asm r.1 5 0 0xFFFF) = r.1) ∧ ((0x1800000 < ((in32 (asm r.1 5 0 0xFFFF)).scalarAddr 3 (asm r.1 5 0 0xFFFF)).toNat + r.2.2.1 ∨ ((in32 (asm r.1 5 0 0xFFFF)).scalarAddr 3 (asm r.1 5 0 0xFFFF)).toNat % r.2.2.1 ≠ 0))) r hr⟩

theorem witness_ScalarLoadsAndStores_4 :
    ∀ r ∈ storeRules, ∃ (s : State) (t : TileId) (w : BitVec 32), (s.at32 t w) ∧ (opOf w = r.1) ∧ (0x1800000 < (s.scalarAddr t w).toNat + r.2.2 ∨ (s.scalarAddr t w).toNat % r.2.2 ≠ 0) :=
  fun r hr => ⟨in32 (asm r.1 5 0 0xFFFF), 3, asm r.1 5 0 0xFFFF, (by decide +kernel : ∀ r ∈ storeRules, ((in32 (asm r.1 5 0 0xFFFF)).at32 3 (asm r.1 5 0 0xFFFF)) ∧ (opOf (asm r.1 5 0 0xFFFF) = r.1) ∧ ((0x1800000 < ((in32 (asm r.1 5 0 0xFFFF)).scalarAddr 3 (asm r.1 5 0 0xFFFF)).toNat + r.2.2 ∨ ((in32 (asm r.1 5 0 0xFFFF)).scalarAddr 3 (asm r.1 5 0 0xFFFF)).toNat % r.2.2 ≠ 0))) r hr⟩

theorem witness_BranchesJumpsAndEvents_1 :
    ∀ r ∈ branchRules, ∃ (s : State) (t : TileId) (w : BitVec 32), (s.at32 t w) ∧ (opOf w = r.1) :=
  fun r hr => ⟨in32 (asm r.1 1 2 0xFFFF), 3, asm r.1 1 2 0xFFFF, (by decide +kernel : ∀ r ∈ branchRules, ((in32 (asm r.1 1 2 0xFFFF)).at32 3 (asm r.1 1 2 0xFFFF)) ∧ (opOf (asm r.1 1 2 0xFFFF) = r.1)) r hr⟩

theorem witness_BranchesJumpsAndEvents_2 :
    ∃ (s : State) (t : TileId) (w : BitVec 32), (s.at32 t w) ∧ (opOf w = 0x26) :=
  ⟨in32 (asm 0x26 0 0 0x4), 3, asm 0x26 0 0 0x4, (by decide +kernel), (by decide +kernel)⟩

theorem witness_BranchesJumpsAndEvents_3 :
    ∃ (s : State) (t : TileId) (w : BitVec 32), (s.at32 t w) ∧ (opOf w = 0x27) :=
  ⟨in32 (asm 0x27 0 0 0x4), 3, asm 0x27 0 0 0x4, (by decide +kernel), (by decide +kernel)⟩

theorem witness_BranchesJumpsAndEvents_4 :
    ∃ (s : State) (t : TileId) (w : BitVec 32), (s.at32 t w) ∧ (opOf w = 0x28) ∧ ((s.reg t (fA w)).toNat % 4 = 0) :=
  ⟨in32 (asm 0x28 31 1 0x0), 3, asm 0x28 31 1 0x0, (by decide +kernel), (by decide +kernel), (by decide +kernel)⟩

theorem witness_BranchesJumpsAndEvents_5 :
    ∃ (s : State) (t : TileId) (w : BitVec 32), (s.at32 t w) ∧ (opOf w = 0x2C) ∧ (((s.tile t).seq.event (w.extractLsb' 0 4)).toNat + (w.extractLsb' 4 12).toNat ≤ 0xFFFF) :=
  ⟨in32 (asm 0x2C 0 0 0x13), 3, asm 0x2C 0 0 0x13, (by decide +kernel), (by decide +kernel), (by decide +kernel)⟩

theorem witness_BranchesJumpsAndEvents_6 :
    ∃ (s : State) (t : TileId) (w : BitVec 32), (s.at32 t w) ∧ (opOf w = 0x2D) :=
  ⟨in32 (asm 0x2D 0 0 0x13), 3, asm 0x2D 0 0 0x13, (by decide +kernel), (by decide +kernel)⟩

theorem witness_BranchesJumpsAndEvents_7 :
    ∃ (s : State) (t : TileId) (ev : BitVec 4) (n : BitVec 12), ((s.tile t).seq.run = .waitEvent ev n) ∧ (n.toNat ≤ ((s.tile t).seq.event ev).toNat) ∧ ((s.tile t).inReset = false) :=
  ⟨onTile { cmd := some ⟨0, 1⟩, seq := { run := .waitEvent 3 2, events := [(3, 2)] } }, 3, 3, 2, (by decide +kernel), (by decide +kernel), (by decide +kernel)⟩

theorem witness_StatusRegistersReadAndWrite_1 :
    ∃ (s : State) (t : TileId) (w : BitVec 32), (s.at32 t w) ∧ (opOf w = 0x2E) :=
  ⟨in32 (asm 0x2E 5 0 0x013), 3, asm 0x2E 5 0 0x013, (by decide +kernel), (by decide +kernel)⟩

theorem witness_StatusRegistersReadAndWrite_2 :
    ∃ (s : State) (t : TileId) (w : BitVec 32), (s.at32 t w) ∧ (opOf w = 0x2F) :=
  ⟨in32 (asm 0x2F 0 1 0x021), 3, asm 0x2F 0 1 0x021, (by decide +kernel), (by decide +kernel)⟩

theorem witness_SyncWaitsForEngines_1 :
    ∃ (s : State) (t : TileId) (w : BitVec 32), (s.at32 t w) ∧ (opOf w = 0x30) :=
  ⟨in32 (asm 0x30 0 0 7), 3, asm 0x30 0 0 7, (by decide +kernel), (by decide +kernel)⟩

theorem witness_SyncWaitsForEngines_2 :
    ∃ (s : State) (t : TileId) (w : BitVec 32) (m : BitVec 3), ((s.tile t).seq.run = .waitSync m) ∧ ((s.tile t).seq.fetch32 = .word w) ∧ ((s.tile t).drainedAll m = true) ∧ ((s.tile t).inReset = false) :=
  ⟨onTile { codeTile (natLe (asm 0x30 0 0 15).toNat 4) with seq := { (codeTile (natLe (asm 0x30 0 0 15).toNat 4)).seq with run := .waitSync 7 } }, 3, asm 0x30 0 0 15, 7, (by decide +kernel), (by decide +kernel), (by decide +kernel), (by decide +kernel)⟩

theorem witness_SyncWaitsForEngines_3 :
    ∃ (s : State) (t : TileId) (w : BitVec 32), (s.at32 t w) ∧ (opOf w = 0x31) :=
  ⟨in32 (asm 0x31 0 0 0), 3, asm 0x31 0 0 0, (by decide +kernel), (by decide +kernel)⟩

theorem witness_ProgramFaultsFillFaultInfo_1 :
    ∃ (s : State) (t : TileId) (w : BitVec 32), (s.at32 t w) ∧ (opOf w = 0x32) :=
  ⟨in32 (asm 0x32 0 0 9), 3, asm 0x32 0 0 9, (by decide +kernel), (by decide +kernel)⟩

theorem witness_ProgramFaultsFillFaultInfo_2 :
    ∃ (s : State) (t : TileId) (w : BitVec 32), (s.at32 t w) ∧ (opOf w = 0x28) ∧ ((s.reg t (fA w)).toNat % 4 ≠ 0) :=
  ⟨in32 (asm 0x28 0 2 0), 3, asm 0x28 0 2 0, (by decide +kernel), (by decide +kernel), (by decide +kernel)⟩

theorem witness_ProgramFaultsFillFaultInfo_3 :
    ∃ (s : State) (t : TileId) (w : BitVec 32), (s.at32 t w) ∧ (opOf w = 0x2C) ∧ (0xFFFF < ((s.tile t).seq.event (w.extractLsb' 0 4)).toNat + (w.extractLsb' 4 12).toNat) :=
  ⟨onTile { codeTile (natLe (asm 0x2C 0 0 0x0013).toNat 4) with seq := { (codeTile (natLe (asm 0x2C 0 0 0x0013).toNat 4)).seq with events := [(3, 0xFFFF)] } }, 3, asm 0x2C 0 0 0x0013, (by decide +kernel), (by decide +kernel), (by decide +kernel)⟩

/-- A command in flight on a plain queue that tile 3 and tile 4 run. -/
def kernelCmd : Cmd := { id := 1, seq := 0, record := [], stage := .begun, tiles := [3, 4] }
def withCmd (x : Cmd) (s : State) : State := s.setQueue 0 { (s.queue 0) with cmds := [x] }

theorem witness_TilesReportDone_1 :
    ∃ (s : State) (t : TileId) (c : CmdId) (x : Cmd), ((s.tile t).cmd = some c) ∧ ((s.tile t).seq.run = .ended) ∧ ((s.tile t).seq.issued = 0) ∧ ((s.tile t).inReset = false) ∧ ((s.tile t).seq.resident = false) ∧ ((s.tile t).vec.blkCount = 0) ∧ ((s.tile t).vec.slots = []) ∧ (s.cmd? c = some x) ∧ (x.live = true) ∧ (s.matmulOn t = none) :=
  ⟨withCmd kernelCmd (onTile { cmd := some ⟨0, 1⟩, seq := { run := .ended } }), 3, ⟨0, 1⟩, kernelCmd, (by decide +kernel), (by decide +kernel), (by decide +kernel), (by decide +kernel), (by decide +kernel), (by decide +kernel), (by decide +kernel), (by decide +kernel), (by decide +kernel), (by decide +kernel)⟩

theorem witness_TilesReportDone_2 :
    ∃ (s : State) (t : TileId) (w : BitVec 32), (s.at32 t w) ∧ (opOf w = 0x34) ∧ ((s.tile t).seq.issued ≠ 0) :=
  ⟨onTile { codeTile (natLe (asm 0x34 0 1 5).toNat 4) with seq := { (codeTile (natLe (asm 0x34 0 1 5).toNat 4)).seq with issued := 1 } }, 3, asm 0x34 0 1 5, (by decide +kernel), (by decide +kernel), (by decide +kernel)⟩

theorem witness_TilesReportDone_3 :
    ∃ (s : State) (t : TileId) (w : BitVec 32), (s.at32 t w) ∧ (opOf w = 0x34) ∧ ((s.tile t).seq.issued = 0) ∧ ((s.tile t).vec.slots = []) ∧ ((s.tile t).seq.resident = false) :=
  ⟨in32 (asm 0x34 0 1 5), 3, asm 0x34 0 1 5, (by decide +kernel), (by decide +kernel), (by decide +kernel), (by decide +kernel), (by decide +kernel)⟩

def residentTile : Tile :=
  let x := codeTile (natLe (asm 0x34 0 1 5).toNat 4)
  { x with cmd := some ⟨0, 0⟩, seq := { x.seq with resident := true, workRing := 5 } }

theorem witness_TilesReportDone_4 :
    ∃ (s : State) (t : TileId) (w : BitVec 32) (r : CmdId) (x : Cmd), (s.at32 t w) ∧ (opOf w = 0x34) ∧ ((s.tile t).seq.issued = 0) ∧ ((s.tile t).vec.slots = []) ∧ ((s.tile t).vec.blkCount = 0) ∧ ((s.tile t).seq.resident = true) ∧ ((s.tile t).cmd = some r) ∧ (s.entryOf t r.queue (w.extractLsb' 0 6) = some ⟨r.queue, x.id⟩) ∧ (s.cmd? ⟨r.queue, x.id⟩ = some x) ∧ (x.tiles.filter (· ≠ t) ≠ []) :=
  ⟨withCmd { kernelCmd with record := [2], seq := 5 } (onTile residentTile), 3, asm 0x34 0 1 5, ⟨0, 0⟩, { kernelCmd with record := [2], seq := 5 }, (by decide +kernel), (by decide +kernel), (by decide +kernel), (by decide +kernel), (by decide +kernel), (by decide +kernel), (by decide +kernel), (by decide +kernel), (by decide +kernel), (by decide +kernel)⟩

theorem witness_StoreFillCopiesImageBlock_1 :
    ∃ (s : State) (t : TileId) (b : Nat) (bytes : Bytes), ((s.tile t).canIssue = true) ∧ ((s.tile t).seq.missing = some b) ∧ ((s.tile t).scratchRead ((s.tile t).seq.imgBase + 4096 * b) (min 4096 ((s.tile t).seq.imgLen - 4096 * b)) = .ok bytes) ∧ ((s.tile t).seq.store.length ≤ (s.tile t).seq.capacity) :=
  ⟨onTile (seqd (codeTile []) fun q => { q with store := [], imgLen := 20 }), 3, 0, List.replicate 20 0, (by decide +kernel), (by decide +kernel), (ok_is (by decide +kernel) (by decide +kernel)), (by decide +kernel)⟩

theorem witness_EngineQueuesIssueAndComplete_1 :
    ∀ r ∈ issueRules, ∃ (s : State) (t : TileId) (x : BitVec 64), (s.at64 t x) ∧ (opOf (lowWord x) = r.1) ∧ (r.2.2.2.2.1 x = true) :=
  fun r hr => ⟨in64 (asm64 (asm r.1 1 0 0) 0), 3, asm64 (asm r.1 1 0 0) 0, (by decide +kernel : ∀ r ∈ issueRules, ((in64 (asm64 (asm r.1 1 0 0) 0)).at64 3 (asm64 (asm r.1 1 0 0) 0)) ∧ (opOf (lowWord (asm64 (asm r.1 1 0 0) 0)) = r.1) ∧ (r.2.2.2.2.1 (asm64 (asm r.1 1 0 0) 0) = true)) r hr⟩

theorem witness_EngineQueuesIssueAndComplete_2 :
    ∀ r ∈ issueRules, ∃ (s : State) (t : TileId) (x : BitVec 64), ((s.tile t).seq.run = .waitIssue r.2.2.1) ∧ ((s.tile t).seq.fetch64 = .word x) ∧ (opOf (lowWord x) = r.1) ∧ (((s.tile t).queueOf r.2.2.1).length < r.2.2.2.1) ∧ ((s.tile t).inReset = false) :=
  fun r hr => ⟨onTile { codeTile (natLe (asm64 (asm r.1 1 0 0) 0).toNat 8) with seq := { (codeTile (natLe (asm64 (asm r.1 1 0 0) 0).toNat 8)).seq with run := .waitIssue r.2.2.1 } }, 3, asm64 (asm r.1 1 0 0) 0, (by decide +kernel : ∀ r ∈ issueRules, (((onTile { codeTile (natLe (asm64 (asm r.1 1 0 0) 0).toNat 8) with seq := { (codeTile (natLe (asm64 (asm r.1 1 0 0) 0).toNat 8)).seq with run := .waitIssue r.2.2.1 } }).tile 3).seq.run = .waitIssue r.2.2.1) ∧ (((onTile { codeTile (natLe (asm64 (asm r.1 1 0 0) 0).toNat 8) with seq := { (codeTile (natLe (asm64 (asm r.1 1 0 0) 0).toNat 8)).seq with run := .waitIssue r.2.2.1 } }).tile 3).seq.fetch64 = .word (asm64 (asm r.1 1 0 0) 0)) ∧ (opOf (lowWord (asm64 (asm r.1 1 0 0) 0)) = r.1) ∧ ((((onTile { codeTile (natLe (asm64 (asm r.1 1 0 0) 0).toNat 8) with seq := { (codeTile (natLe (asm64 (asm r.1 1 0 0) 0).toNat 8)).seq with run := .waitIssue r.2.2.1 } }).tile 3).queueOf r.2.2.1).length < r.2.2.2.1) ∧ (((onTile { codeTile (natLe (asm64 (asm r.1 1 0 0) 0).toNat 8) with seq := { (codeTile (natLe (asm64 (asm r.1 1 0 0) 0).toNat 8)).seq with run := .waitIssue r.2.2.1 } }).tile 3).inReset = false)) r hr⟩

theorem witness_EngineQueuesIssueAndComplete_3 :
    ∃ (s : State) (t : TileId) (e : Engine) (o : DoneOp), ((s.tile t).finished.find? (fun p => p.engine = e) = some o) ∧ ((s.tile t).inService = true) ∧ (∀ k st, (s.tile t).seq.run ≠ .waitWdone k st) ∧ (fSv o.word = true → (s.tile t).seq.event (fSev o.word) ≠ 0xFFFF) :=
  ⟨onTile { cmd := some ⟨0, 1⟩, finished := [⟨.dma, 0x130, 0, []⟩] }, 3, .dma, ⟨.dma, 0x130, 0, []⟩, (by decide +kernel), (by decide +kernel), (fun _ _ h => by cases h), (by decide +kernel)⟩

theorem witness_EngineQueuesIssueAndComplete_4 :
    ∃ (s : State) (t : TileId) (o : DoneOp) (k : UnitCheck), ((s.tile t).finished.find? (fun p => p.engine = .vector) = some o) ∧ ((s.tile t).inService = true) ∧ (k ≠ .good) :=
  ⟨onTile { cmd := some ⟨0, 1⟩, finished := [⟨.vector, 0, 0, [(64, 32)]⟩] }, 3, ⟨.vector, 0, 0, [(64, 32)]⟩, .mismatch 3, (by decide +kernel), (by decide +kernel), (by decide +kernel)⟩

/-- Die 0, that of tile 3, placed in partition 1. -/
def owned (s : State) : State := s.setDie 0 { owner := some 1 }

theorem witness_SemaphoresSignalAndWait_1 :
    ∀ r ∈ ([(0, .semSignal, fun v k => v + k), (3, .semRead, fun v _ => v), (4, .semSet, fun _ k => k)] : List (Nat × (TileId → BitVec 64 → Instr) × (BitVec 32 → BitVec 32 → BitVec 32))), ∃ (s : State) (t : TileId) (x : BitVec 64) (p : PartId), (s.at64 t x) ∧ (opOf (lowWord x) = 0x3C) ∧ ((x.extractLsb' 13 3).toNat = r.1) ∧ (x.extractLsb' 0 13 = 0) ∧ (x.extractLsb' 46 2 = 0) ∧ (s.tilePart t = some p) ∧ (s.semOwned p (x.extractLsb' 32 14) = true) ∧ (s.noneWaits (x.extractLsb' 32 14)) ∧ (r.1 = 0 → (s.sem (x.extractLsb' 32 14)).toNat + (s.countOf t x).toNat < 2 ^ 32) :=
  fun r hr => ⟨owned (in64 (asm64 (asm 0x3C 5 2 (r.1 * 2 ^ 13)) 7)), 3, asm64 (asm 0x3C 5 2 (r.1 * 2 ^ 13)) 7, 1, (by decide +kernel : ∀ r ∈ ([(0, .semSignal, fun v k => v + k), (3, .semRead, fun v _ => v), (4, .semSet, fun _ k => k)] : List (Nat × (TileId → BitVec 64 → Instr) × (BitVec 32 → BitVec 32 → BitVec 32))), ((owned (in64 (asm64 (asm 0x3C 5 2 (r.1 * 2 ^ 13)) 7))).at64 3 (asm64 (asm 0x3C 5 2 (r.1 * 2 ^ 13)) 7)) ∧ (opOf (lowWord (asm64 (asm 0x3C 5 2 (r.1 * 2 ^ 13)) 7)) = 0x3C) ∧ (((asm64 (asm 0x3C 5 2 (r.1 * 2 ^ 13)) 7).extractLsb' 13 3).toNat = r.1) ∧ ((asm64 (asm 0x3C 5 2 (r.1 * 2 ^ 13)) 7).extractLsb' 0 13 = 0) ∧ ((asm64 (asm 0x3C 5 2 (r.1 * 2 ^ 13)) 7).extractLsb' 46 2 = 0) ∧ ((owned (in64 (asm64 (asm 0x3C 5 2 (r.1 * 2 ^ 13)) 7))).tilePart 3 = some 1) ∧ ((owned (in64 (asm64 (asm 0x3C 5 2 (r.1 * 2 ^ 13)) 7))).semOwned 1 ((asm64 (asm 0x3C 5 2 (r.1 * 2 ^ 13)) 7).extractLsb' 32 14) = true) ∧ ((owned (in64 (asm64 (asm 0x3C 5 2 (r.1 * 2 ^ 13)) 7))).noneWaits ((asm64 (asm 0x3C 5 2 (r.1 * 2 ^ 13)) 7).extractLsb' 32 14)) ∧ ((r.1 = 0 → ((owned (in64 (asm64 (asm 0x3C 5 2 (r.1 * 2 ^ 13)) 7))).sem ((asm64 (asm 0x3C 5 2 (r.1 * 2 ^ 13)) 7).extractLsb' 32 14)).toNat + ((owned (in64 (asm64 (asm 0x3C 5 2 (r.1 * 2 ^ 13)) 7))).countOf 3 (asm64 (asm 0x3C 5 2 (r.1 * 2 ^ 13)) 7)).toNat < 2 ^ 32))) r hr⟩

theorem witness_SemaphoresSignalAndWait_2 :
    ∀ r ∈ ([(1, .semWait, false), (2, .semTake, true)] : List (Nat × (TileId → BitVec 64 → Instr) × Bool)), ∃ (s : State) (t : TileId) (x : BitVec 64) (p : PartId), (s.at64 t x) ∧ (opOf (lowWord x) = 0x3C) ∧ ((x.extractLsb' 13 3).toNat = r.1) ∧ (x.extractLsb' 0 13 = 0) ∧ (x.extractLsb' 46 2 = 0) ∧ (s.tilePart t = some p) ∧ (s.semOwned p (x.extractLsb' 32 14) = true) ∧ (s.noneWaits (x.extractLsb' 32 14)) :=
  fun r hr => ⟨owned (in64 (asm64 (asm 0x3C 5 2 (r.1 * 2 ^ 13)) 7)), 3, asm64 (asm 0x3C 5 2 (r.1 * 2 ^ 13)) 7, 1, (by decide +kernel : ∀ r ∈ ([(1, .semWait, false), (2, .semTake, true)] : List (Nat × (TileId → BitVec 64 → Instr) × Bool)), ((owned (in64 (asm64 (asm 0x3C 5 2 (r.1 * 2 ^ 13)) 7))).at64 3 (asm64 (asm 0x3C 5 2 (r.1 * 2 ^ 13)) 7)) ∧ (opOf (lowWord (asm64 (asm 0x3C 5 2 (r.1 * 2 ^ 13)) 7)) = 0x3C) ∧ (((asm64 (asm 0x3C 5 2 (r.1 * 2 ^ 13)) 7).extractLsb' 13 3).toNat = r.1) ∧ ((asm64 (asm 0x3C 5 2 (r.1 * 2 ^ 13)) 7).extractLsb' 0 13 = 0) ∧ ((asm64 (asm 0x3C 5 2 (r.1 * 2 ^ 13)) 7).extractLsb' 46 2 = 0) ∧ ((owned (in64 (asm64 (asm 0x3C 5 2 (r.1 * 2 ^ 13)) 7))).tilePart 3 = some 1) ∧ ((owned (in64 (asm64 (asm 0x3C 5 2 (r.1 * 2 ^ 13)) 7))).semOwned 1 ((asm64 (asm 0x3C 5 2 (r.1 * 2 ^ 13)) 7).extractLsb' 32 14) = true) ∧ ((owned (in64 (asm64 (asm 0x3C 5 2 (r.1 * 2 ^ 13)) 7))).noneWaits ((asm64 (asm 0x3C 5 2 (r.1 * 2 ^ 13)) 7).extractLsb' 32 14))) r hr⟩

theorem witness_SemaphoresSignalAndWait_3 :
    ∃ (s : State) (t : TileId) (w : SemWait) (d : BitVec 5) (b : Nat) (since : Nat), (w ∈ s.semWaits) ∧ (w.who = .tile t d b since) ∧ (∀ y ∈ s.semWaits, y.ofTile t = true → y = w) ∧ ((s.tile t).inReset = false) :=
  ⟨{ onTile { cmd := some ⟨0, 1⟩, seq := { run := .waitSem } } with semWaits := [⟨7, true, 3, .tile 3 5 0 0, true⟩] }, 3, ⟨7, true, 3, .tile 3 5 0 0, true⟩, 5, 0, 0, (by decide +kernel), (by decide +kernel), (by decide +kernel), (by decide +kernel)⟩

/-- A vec instruction of lane type FP32 (R150): class, operation, vd, va, vb, aux and mask register. -/
def vecWord (cls vop vd va vb aux k : Nat) : BitVec 64 :=
  asm64 (asm 0x39 vd va (cls * 2 ^ 14)) (vop * 2 ^ 26 + vb * 2 ^ 21 + aux * 2 ^ 13 + k * 2 ^ 10)

/-- Tile 3 with that instruction at the head of its vector queue, s[va] read as 0x40, and mask k1 choosing elements 0 and 5. -/
def vecIssue (cls vop aux : Nat) : Issue := ⟨vecWord cls vop 2 4 6 aux 1, 0, 0x40⟩
def vecTile (cls vop aux : Nat) : Tile :=
  { cmd := some ⟨0, 1⟩, vq := [vecIssue cls vop aux], vec := { masks := [(1, 0x21)] } }

theorem witness_VectorOperationsWriteElements_1 :
    ∀ r ∈ vecRules, ∃ (s : State) (t : TileId) (i : Issue), (s.vecHead t 0 r.1 = some i) :=
  fun r hr => ⟨onTile (vecTile 0 r.1 1), 3, vecIssue 0 r.1 1, (by decide +kernel : ∀ r ∈ vecRules, ((onTile (vecTile 0 r.1 1)).vecHead 3 0 r.1 = some (vecIssue 0 r.1 1))) r hr⟩

theorem witness_VectorOperationsWriteElements_2 :
    ∃ (x : VArgs), (x.a < 2 ^ 32) ∧ (x.b < 2 ^ 32) :=
  ⟨⟨1, 2, 3, 0, 0, false, 2⟩, (by decide +kernel), (by decide +kernel)⟩

theorem witness_VectorCompareAndSelect_1 :
    ∃ (s : State) (t : TileId) (i : Issue), (s.vecHead t 0 0x0D = some i) ∧ (bits (vecFields i.word).vd 2 0 ≠ 0) :=
  ⟨onTile (vecTile 0 13 1), 3, vecIssue 0 13 1, (by decide +kernel), (by decide +kernel)⟩

theorem witness_VectorCompareAndSelect_2 :
    ∃ (s : State) (t : TileId) (i : Issue), (s.vecHead t 0 0x0E = some i) :=
  ⟨onTile (vecTile 0 14 1), 3, vecIssue 0 14 1, (by decide +kernel)⟩

theorem witness_VectorScalarMaskAndSlotOperations_1 :
    ∃ (s : State) (t : TileId) (i : Issue), (s.vecHead t 2 0x04 = some i) :=
  ⟨onTile (vecTile 2 4 1), 3, vecIssue 2 4 1, (by decide +kernel)⟩

theorem witness_VectorScalarMaskAndSlotOperations_2 :
    ∃ (s : State) (t : TileId) (i : Issue), (s.vecHead t 2 0x05 = some i) :=
  ⟨onTile (vecTile 2 5 1), 3, vecIssue 2 5 1, (by decide +kernel)⟩

theorem witness_VectorScalarMaskAndSlotOperations_3 :
    ∃ (s : State) (t : TileId) (i : Issue), (s.vecHead t 2 0x06 = some i) ∧ (i.arg.toNat % 32 = 0) ∧ (i.arg.toNat + 32 ≤ 0x1800000) ∧ (∀ w, w < 4 → i.arg.toNat / 8 + w ∉ (s.tile t).spoison) :=
  ⟨onTile (vecTile 2 6 1), 3, vecIssue 2 6 1, (by decide +kernel), (by decide +kernel), (by decide +kernel), (by decide +kernel)⟩

theorem witness_VectorScalarMaskAndSlotOperations_4 :
    ∃ (s : State) (t : TileId) (i : Issue), (s.vecHead t 2 0x07 = some i) ∧ (i.arg.toNat % 32 = 0) ∧ (i.arg.toNat + 32 ≤ 0x1800000) :=
  ⟨onTile (vecTile 2 7 1), 3, vecIssue 2 7 1, (by decide +kernel), (by decide +kernel), (by decide +kernel)⟩

/-- Partition 1 holds die 0 and maps the first GiB of device memory to itself (R198, R199); an FP32 tensor of 4 elements is
described at 0x2000. -/
def tensorAt2000 : Bytes := natLe (packBits [(64, 0x2000000000010000), (64, 0), (32, 7), (8, 0), (24, 0), (8, 1), (24, 0), (32, 4),
  (32, 1), (32, 1), (32, 1), (48, 0), (48, 0), (48, 0), (16, 0)]) 64
def paged (s : State) : State :=
  ({ s with mem := putBytes (putBytes (putBytes [] 0 [0x39, 0x10]) 4096 [0x3B]) 0x2000 tensorAt2000 }.setDie 0 { owner := some 1 }).setPart 1
    { exists_ := true, root := some 0 }

def cbindIssue : Issue := ⟨vecWord 2 8 0 4 0 1 0, 0, 0x2000⟩
def noTensor : Tensor := ⟨0, 0, 0, 0, ⟨.fp32, .none⟩, 0, 0, 0, 0, 0, 0, 0, 0⟩

theorem witness_VectorScalarMaskAndSlotOperations_5 :
    ∃ (s : State) (t : TileId) (i : Issue) (d : Tensor), (s.vecHead t 2 0x08 = some i) ∧ (mapGet none (s.tile t).vec.slots ((vecFields i.word).aux % 8) = none) ∧ ((s.leaveQueue t .vector i).readTensor (dieOf t) ((s.tilePart t).getD 0) i.arg = .ok d) :=
  ⟨paged (onTile { vecTile 2 8 1 with vq := [cbindIssue] }), 3, cbindIssue, _, (by decide +kernel), (by decide +kernel), (ok_got noTensor (by decide +kernel))⟩

theorem witness_VectorMemoryAccesses_1 :
    ∀ r ∈ ([(0x00, .vld, false), (0x02, .gather, true)] : List (Nat × (TileId → Instr) × Bool)), ∃ (s : State) (t : TileId) (i : Issue) (f : VF) (g : Format) (at_ : Nat → Int), (s.vecHead t 2 r.1 = some i) ∧ (f = vecFields i.word) ∧ (g = f.format) ∧ (∀ e, at_ e = (i.arg.toNat : Int) + (if r.2.2 = true then s.laneIndex t f e else ((e / g.unitElems : Nat) : Int)) * g.unitBytes) ∧ (i.arg.toNat % g.align = 0) ∧ ((∀ e ∈ s.lanesOf t f, 0 ≤ at_ e ∧ at_ e + g.unitBytes ≤ 0x1800000 ∧ ∀ w ∈ wordsOf (at_ e).toNat g.unitBytes, w ∉ (s.tile t).spoison)) := by
  intro r hr
  rcases (by simpa using hr : r = _ ∨ r = _) with rfl | rfl
  · exact ⟨onTile (vecTile 2 0 1), 3, vecIssue 2 0 1, vecFields (vecIssue 2 0 1).word, ⟨.fp32, .none⟩, _, by decide +kernel, rfl, by decide +kernel, fun _ => rfl, by decide +kernel, by decide +kernel⟩
  · exact ⟨onTile (vecTile 2 2 1), 3, vecIssue 2 2 1, vecFields (vecIssue 2 2 1).word, ⟨.fp32, .none⟩, _, by decide +kernel, rfl, by decide +kernel, fun _ => rfl, by decide +kernel, by decide +kernel⟩


theorem witness_VectorMemoryAccesses_2 :
    ∀ r ∈ ([(0x01, .vst, false), (0x03, .scatter, true)] : List (Nat × (TileId → Instr) × Bool)), ∃ (s : State) (t : TileId) (i : Issue) (f : VF) (g : Format) (at_ : Nat → Int), (s.vecHead t 2 r.1 = some i) ∧ (f = vecFields i.word) ∧ (g = f.format) ∧ (∀ e, at_ e = (i.arg.toNat : Int) + (if r.2.2 = true then s.laneIndex t f e else ((e / g.unitElems : Nat) : Int)) * g.unitBytes) ∧ (i.arg.toNat % g.align = 0) ∧ ((s.tile t).vec.slotOk f.cslot = true) ∧ ((∀ e ∈ s.lanesOf t f, 0 ≤ at_ e ∧ at_ e + g.unitBytes ≤ 0x1800000)) := by
  intro r hr
  rcases (by simpa using hr : r = _ ∨ r = _) with rfl | rfl
  · exact ⟨onTile (vecTile 2 1 1), 3, vecIssue 2 1 1, vecFields (vecIssue 2 1 1).word, ⟨.fp32, .none⟩, _, by decide +kernel, rfl, by decide +kernel, fun _ => rfl, by decide +kernel, by decide +kernel, by decide +kernel⟩
  · exact ⟨onTile (vecTile 2 3 1), 3, vecIssue 2 3 1, vecFields (vecIssue 2 3 1).word, ⟨.fp32, .none⟩, _, by decide +kernel, rfl, by decide +kernel, fun _ => rfl, by decide +kernel, by decide +kernel, by decide +kernel⟩


/-- A vector descriptor (R162) at 0x40: one row of two FP32 elements at 0x1000, results to 0x2000, positions to 0x3000. -/
def vecDesc (k : Nat) : Bytes := natLe (packBits [(32, 0x1000), (32, 0x2000), (32, 64), (32, 64), (16, 1), (16, 2), (8, 1), (8, 1),
  (16, 0), (16, 0), (1, 0), (1, 0), (8, k), (6, 0), (32, 0), (48, 0), (16, 0), (32, if k = 0 then 0 else 0x3000)]) 64
def tileOpIssue (vop : Nat) : Issue := ⟨vecWord 1 vop 0 4 0 (if vop = 2 then 1 else 0) 0, 0, 0x40⟩
def tileOpState (vop : Nat) : State :=
  onTile { cmd := some ⟨0, 1⟩, vq := [tileOpIssue vop], scratch := putBytes [] 0x40 (vecDesc (if vop = 3 then 1 else 0)) }
def noOp : VOp :=
  { f := vecFields 0, src := none, dst := none, tensor := 0
    d := ⟨0, 0, 0, 0, 0, 0, ⟨.fp32, .none⟩, ⟨.fp32, .none⟩, 0, 0, 0, 0, 0, false, 0, 0, 0, 0, 0, 0, 0⟩ }
def tileOp (vop : Nat) : VOp := got noOp (((tileOpState vop).leaveQueue 3 .vector (tileOpIssue vop)).vopOf 3 (tileOpIssue vop))

theorem witness_TileOperationsWriteRows_1 :
    ∀ r ∈ tileOutputs, ∃ (s : State) (s1 : State) (t : TileId) (i : Issue) (o : VOp) (rows : List (List (Nat × Nat))) (rs : List OutRow), (s.vecHead t 1 r.1 = some i) ∧ (i.arg.toNat % 64 = 0) ∧ (i.arg.toNat + 64 ≤ 0x1800000) ∧ (s1 = { s.leaveQueue t .vector i with fresh := s.fresh + 1 }) ∧ ((s.leaveQueue t .vector i).vopOf t i = .ok o) ∧ (o.d.tsrc = 0) ∧ (o.d.tdst = 0) ∧ (o.f.rctl.rnd ≠ .stochastic) ∧ (o.d.srcFmt.blk ≠ .b32) ∧ (o.d.dstFmt.blk ≠ .b32) ∧ (rowsIn o.d.src o.d.srcPitch (o.d.srcFmt.rowBytes (o.d.srcFmt.padded o.d.cols)) o.d.rows = true) ∧ (rs = r.2.2.1 s1 t o rows) ∧ (rowsIn o.d.dst o.d.dstPitch (o.d.dstFmt.rowBytes (o.d.dstFmt.padded (outShape r.1 o).2)) (outShape r.1 o).1 = true) ∧ (r.1 = 3 → o.d.posAddr + 4 * o.d.k * o.d.rows ≤ 0x1800000) ∧ ((s1.sourceRows t o (List.range o.d.rows)).2 = .ok rows) := by
  intro r hr
  rcases (by simpa [tileOutputs] using hr : r = _ ∨ r = _ ∨ r = _) with rfl | rfl | rfl
  · exact ⟨tileOpState 0, _, 3, tileOpIssue 0, tileOp 0, [[(0, 0), (0, 0)]], _, by decide +kernel, by decide +kernel, by decide +kernel, rfl, ok_got noOp (by decide +kernel), by decide +kernel, by decide +kernel, by decide +kernel, by decide +kernel, by decide +kernel, by decide +kernel, rfl, by decide +kernel, by decide +kernel, ok_is (by decide +kernel) (by decide +kernel)⟩
  · exact ⟨tileOpState 2, _, 3, tileOpIssue 2, tileOp 2, [[(0, 0), (0, 0)]], _, by decide +kernel, by decide +kernel, by decide +kernel, rfl, ok_got noOp (by decide +kernel), by decide +kernel, by decide +kernel, by decide +kernel, by decide +kernel, by decide +kernel, by decide +kernel, rfl, by decide +kernel, by decide +kernel, ok_is (by decide +kernel) (by decide +kernel)⟩
  · exact ⟨tileOpState 3, _, 3, tileOpIssue 3, tileOp 3, [[(0, 0), (0, 0)]], _, by decide +kernel, by decide +kernel, by decide +kernel, rfl, ok_got noOp (by decide +kernel), by decide +kernel, by decide +kernel, by decide +kernel, by decide +kernel, by decide +kernel, by decide +kernel, rfl, by decide +kernel, by decide +kernel, ok_is (by decide +kernel) (by decide +kernel)⟩


/-- A matrix descriptor (R136) at 0x80: A 1 × 16 at 0x1000, B n × 16 at 0x2000, D at 0x80000, operands of BF16 and D of
FP32. -/
def matDesc (n : Nat) : Bytes := natLe (packBits [(32, 0x1000), (32, 0x2000), (32, 0xFFFFFFFF), (32, 0x80000), (32, 64), (32, 64),
  (32, 0), (32, 1024), (16, 1), (16, n), (32, 16), (32, 16), (8, 2), (8, 2), (8, 0), (8, 1)]) 128
def matIssue : Issue := ⟨asm64 (asm 0x38 4 0 0) 0x2000 ||| 0x100000, 0, 0x80⟩
def matTile : Tile :=
  { cmd := some ⟨0, 1⟩, aq := [matIssue], scratch := putBytes [] 0x80 (matDesc 65), arr := { cfg := 2 } }
def matInstr (n : Nat) (ph : PanePhase) : MatInstr := { matInstrOf matIssue (matDesc n) none 0 0 with phase := ph }
def ctlOf (i : MatInstr) : AccCtl := (accCtlOf i.acc).getD ⟨false, false, false, false, false, 0⟩

/-- Tile 3 with an instruction on pane 0 and sets as given. -/
def paneTile (n : Nat) (ph : PanePhase) (act sh : Option StatSet) : Tile :=
  { cmd := some ⟨0, 1⟩, arr := { cfg := 2, panes := [(0, { instr := some (matInstr n ph), active := act, shadow := sh })] } }
def set0 : StatSet := (matInstr 65 .pass).makeSet 64 (List.replicate 64 (List.replicate 16 (0, 0)))

theorem witness_MatrixInstructionEntersPane_1 :
    ∃ (s : State) (t : TileId) (h : Issue) (q : List Issue) (d : Bytes) (i : MatInstr) (c : AccCtl), ((s.tile t).aq = h :: q) ∧ (fWv h.word = false) ∧ ((s.tile t).inService = true) ∧ (s.tileStopping t = false) ∧ (mmaCfg h.word = (s.tile t).arr.cfg) ∧ (((s.tile t).pane (mmaPane h.word)).instr = none) ∧ (((s.tile t).pane (mmaPane h.word)).resident = false) ∧ (h.arg.toNat % 128 = 0) ∧ ((s.tile t).scratchRead h.arg.toNat 128 = .ok d) ∧ (i = matInstrOf h d ((s.tile t).pane (mmaPane h.word)).active (s.tile t).arr.serials (s.tile t).arr.ordinals) ∧ (accCtlOf i.acc = some c) ∧ (c.cont = false) ∧ (c.auto = false) ∧ (i.cAddr = 0xFFFFFFFF) ∧ (bits (leNat d) 767 512 = 0) ∧ ((fmtOf i.aFmt).needsTensor = false) ∧ (i.act = true ∨ (fmtOf i.bFmt).needsTensor = false) ∧ ((fmtOf i.dFmt).needsTensor = false) ∧ (matChecks i d (bits (leNat d) 351 320) ((s.tile t).pane (mmaPane h.word)).active = none) :=
  ⟨onTile matTile, 3, matIssue, [], matDesc 65, matInstrOf matIssue (matDesc 65) none 0 0, ctlOf (matInstrOf matIssue (matDesc 65) none 0 0), (by decide +kernel), (by decide +kernel), (by decide +kernel), (by decide +kernel), (by decide +kernel), (by decide +kernel), (by decide +kernel), (by decide +kernel), (ok_is (by decide +kernel) (by decide +kernel)), (by decide +kernel), (by decide +kernel), (by decide +kernel), (by decide +kernel), (by decide +kernel), (by decide +kernel), (by decide +kernel), (by decide +kernel), (by decide +kernel), (by decide +kernel)⟩

theorem witness_ArraySetsPassesAndReloads_1 :
    ∃ (s : State) (t : TileId) (h : Issue) (q : List Issue), ((s.tile t).aq = h :: q) ∧ (fWv h.word = false) ∧ ((s.tile t).inService = true) ∧ (s.tileStopping t = false) ∧ (mmaCfg h.word ≠ (s.tile t).arr.cfg) ∧ ((∀ e ∈ (s.tile t).arr.panes, e.2.instr = none ∧ e.2.resident = false)) :=
  ⟨onTile { matTile with arr := {} }, 3, matIssue, [], (by decide +kernel), (by decide +kernel), (by decide +kernel), (by decide +kernel), (by decide +kernel), (by decide +kernel)⟩

theorem witness_ArraySetsPassesAndReloads_2 :
    ∃ (s : State) (t : TileId) (p : PaneId) (i : MatInstr) (rows : List (List (Nat × Nat))), (s.folds t p i) ∧ (i.phase = .needSet) ∧ (((s.tile t).pane p).shadow = none) ∧ (s.opRows t (fmtOf i.bFmt) i.bAddr i.bPitch i.bT (i.cursor.kSlice * s.paneSide t) (i.kLen (s.paneSide t)) ((upTo (i.setCols (s.paneSide t))).map (· + (i.cursor.nBlock * (2 * s.paneSide t) + if i.path.halves = 2 then bnat i.cursor.half * s.paneSide t else 0))) = (s, .ok rows)) :=
  ⟨onTile (paneTile 65 .needSet none none), 3, 0, matInstr 65 .needSet, List.replicate 64 (List.replicate 16 (0, 0)), (by decide +kernel), (by decide +kernel), (by decide +kernel), (pair_is (by decide +kernel) (by decide +kernel) (by decide +kernel))⟩

theorem witness_ArraySetsPassesAndReloads_3 :
    ∃ (s : State) (t : TileId) (p : PaneId) (i : MatInstr) (x : StatSet), (s.folds t p i) ∧ (i.phase = .needSet) ∧ (((s.tile t).pane p).shadow = some x) :=
  ⟨onTile (paneTile 65 .needSet none (some set0)), 3, 0, matInstr 65 .needSet, set0, (by decide +kernel), (by decide +kernel), (by decide +kernel)⟩

theorem witness_ArraySetsPassesAndReloads_4 :
    ∃ (s : State) (t : TileId) (p : PaneId) (i : MatInstr) (x : StatSet) (cur : Cursor) (rows : List (List (Nat × Nat))), (s.folds t p i) ∧ (i.phase = .pass) ∧ (((s.tile t).pane p).active = some x) ∧ (s.tel.trace.ovfEvent = false) ∧ (s.opRows t (fmtOf i.aFmt) i.aAddr i.aPitch i.aT (i.cursor.kSlice * s.paneSide t) (if i.act then i.k else i.kLen (s.paneSide t)) (((upTo (i.rows (s.paneSide t))).filter fun r => i.cursor.mRow ≤ r).map (· + i.cursor.mBlock * s.paneSide t)) = (s, .ok rows)) ∧ (i.advance (s.paneSide t) = some cur) :=
  ⟨onTile (paneTile 65 .pass (some set0) none), 3, 0, matInstr 65 .pass, set0, { half := true }, [List.replicate 16 (0, 0)], (by decide +kernel), (by decide +kernel), (by decide +kernel), (by decide +kernel), (pair_is (by decide +kernel) (by decide +kernel) (by decide +kernel)), (by decide +kernel)⟩

theorem witness_SpillsAndReadoutsLeaveThePane_2 :
    ∃ (s : State) (t : TileId) (p : PaneId) (i : MatInstr), (((s.tile t).pane p).instr = some i) ∧ (i.phase = .out) ∧ ((s.tile t).inService = true) ∧ (s.matmulOn t = none) ∧ (i.dT = none) ∧ (i.mBlocks (s.paneSide t) = 1) ∧ (i.nBlocks (s.paneSide t) = 1) ∧ (i.cursor = {}) ∧ (∀ c, s.tileCmd t = some c → s.paired c.queue = false) ∧ ((fmtOf i.dFmt).blk = .none) ∧ (∀ r < i.rows (s.paneSide t), i.dAddr.toNat + r * i.dPitch.toNat + (s.readoutRow t p i r).length ≤ 0x1800000) :=
  ⟨onTile (paneTile 2 .out none none), 3, 0, matInstr 2 .out, (by decide +kernel), (by decide +kernel), (by decide +kernel), (by decide +kernel), (by decide +kernel), (by decide +kernel), (by decide +kernel), (by decide +kernel), (fun _ h => by cases h; decide +kernel), (by decide +kernel), (by decide +kernel)⟩

theorem witness_IdleStepLetsNanosecondPass_1 :
    ∃ (s : State), (s.pending = []) :=
  ⟨State.reset, (by decide +kernel)⟩

theorem reachWrite_scratch (s : State) (t : TileId) (pol : Policy) (a : Word) (o : Nat) (b : Bytes)
    (h : reachOf a = .ok (.scratch o)) (l : o + b.length ≤ scratchSize) :
    s.reachWrite t pol a b = (s.updTile t fun x => x.scratchWrite o b, none) := by
  simp only [State.reachWrite, h]
  rw [if_neg (by omega)]

theorem reachRead_scratch (s : State) (t : TileId) (pol : Policy) (a : Word) (o n : Nat) (b : Bytes)
    (h : reachOf a = .ok (.scratch o)) (l : o + n ≤ scratchSize) (p : (s.tile t).spoison = [])
    (hb : bytesAt (s.tile t).scratch o n = b) : s.reachRead t pol a n = (s, .ok b) := by
  simp only [State.reachRead, h, Tile.scratchRead, p, hb]
  rw [if_neg (by omega), if_neg (by simp)]

theorem length_flat {α : Type} (l : List α) (f : α → Bytes) (n : Nat) (h : ∀ x ∈ l, (f x).length = n) :
    (l.map f).flatten.length = n * l.length := by
  induction l with
  | nil => simp
  | cons a l ih =>
    simp only [List.map_cons, List.flatten_cons, List.length_append, List.length_cons]
    rw [h a (by simp), ih fun x hx => h x (by simp [hx]), Nat.mul_succ, Nat.add_comm]

theorem length_imageBody (w : Nat) (acc : NMap Acc) : (imageBody w acc).length = 40 * w * w := by
  unfold imageBody
  simp only [List.length_append]
  rw [length_flat _ _ 16 (fun _ _ => length_natLe _ _), length_flat _ _ 4 (fun _ _ => length_natLe _ _)]
  rw [← Nat.add_mul, List.length_map, upTo, List.length_range, ← Nat.mul_assoc, ← Nat.mul_assoc]

theorem bytesAt_zero (m : NMap Byte) (n : Nat) : ∀ a, (∀ i, a ≤ i → i < a + n → byteAt m i = 0) → bytesAt m a n = List.replicate n 0 := by
  induction n with
  | zero => intro a _; rfl
  | succ n ih =>
    intro a h
    rw [bytesAt, h a (by omega) (by omega), ih (a + 1) fun i x y => h i (by omega) (by omega)]
    rfl

theorem leNat_zero (n : Nat) : leNat (List.replicate n 0) = 0 := by
  induction n with
  | zero => rfl
  | succ n ih =>
    rw [List.replicate_succ, leNat, ih]
    rfl

theorem slice_zero (n a k : Nat) : slice (List.replicate n 0) a k = List.replicate k 0 := by
  unfold slice
  simp only [List.drop_replicate, List.take_replicate, List.length_replicate, List.replicate_append_replicate]
  congr 1
  omega

/-- Tile 3 with a resident block on pane 0 that the head of the array queue displaces to 0x100000. -/
def spillTile : Tile :=
  { matTile with arr := { cfg := 2, panes := [(0, { resident := true, place := some 0x100000, acc := [(0, { word := 5 })] })] } }
def spillPane : Pane := (onTile spillTile).tile 3 |>.pane 0


theorem witness_SpillsAndReadoutsLeaveThePane_1 :
    ∃ (s : State) (s1 : State) (s2 : State) (t : TileId) (p : PaneId) (a : Word), (((s.tile t).pane p).instr = none) ∧ (((s.tile t).pane p).resident = true) ∧ (((s.tile t).pane p).place = some a) ∧ ((s.tile t).forcesSpill p = true) ∧ ((s.tile t).inService = true) ∧ (s2.tel.trace.ovfEvent = false) ∧ (s.reachWrite t .noAllocate a (imageHeader (s.tile t).arr.cfg ((s.tile t).pane p) (imageBody (s.paneSide t) ((s.tile t).pane p).acc)) = (s1, none)) ∧ (s1.reachWrite t .noAllocate (a + 4096) (imageBody (s.paneSide t) ((s.tile t).pane p).acc) = (s2, none)) := by
  have hb : (imageBody 64 spillPane.acc).length = 40 * 64 * 64 := length_imageBody 64 _
  refine ⟨onTile spillTile, _, _, 3, 0, 0x100000, by decide +kernel, by decide +kernel, by decide +kernel, by decide +kernel,
    by decide +kernel, ?_, reachWrite_scratch _ _ _ _ 0x100000 _ rfl ?_,
    reachWrite_scratch _ _ _ _ 0x101000 _ rfl ?_⟩
  · rfl
  · rw [imageHeader, length_natLe]; decide
  · have : (imageBody ((onTile spillTile).paneSide 3) (((onTile spillTile).tile 3).pane 0).acc).length = 40 * 64 * 64 := hb
    rw [this]; decide

/-- The image of an empty block of that pane, chain of 32 with 16 done, as a reload finds it at 0x100000. -/
def zeroBody : Bytes := List.replicate 163840 0
def imgHead : Bytes := imageHeader 2 { chain := 32, kDone := 16 } zeroBody
def reloadInstr : MatInstr := { matInstr 65 .reload with image := 0x000A00100000 + 41 * 2 ^ 32, acc := 0x3000 }
def reloadTile : Tile :=
  { cmd := some ⟨0, 1⟩, scratch := putBytes [] 0x100000 imgHead
    arr := { cfg := 2, panes := [(0, { instr := some reloadInstr })] } }

theorem imgHead_length : imgHead.length = 64 := by rw [imgHead, imageHeader, length_natLe]

theorem reload_body : bytesAt (putBytes [] 0x100000 imgHead) 0x101000 163840 = zeroBody := by
  apply bytesAt_zero
  intro i x y
  rw [byteAt_putBytes, imgHead_length, if_neg (by omega)]
  rfl

theorem reload_scratch : ((onTile reloadTile).tile 3).scratch = putBytes [] 0x100000 imgHead := by
  generalize hb : zeroBody = b
  simp only [onTile, State.tile, State.setTile, mapGet_put_self, reloadTile]
theorem reload_spoison : ((onTile reloadTile).tile 3).spoison = [] := by
  simp only [onTile, State.tile, State.setTile, mapGet_put_self, reloadTile]

theorem image_ok (body : Bytes) (hz : ∀ a k, slice body a k = List.replicate k 0) :
    imageOk 2 reloadInstr (imageHeader 2 { chain := 32, kDone := 16 } body) body = true := by
  have hw : paneW 2 = 64 := rfl
  have hm : reloadInstr.cursor.mBlock = 0 ∧ reloadInstr.cursor.nBlock = 0 ∧ reloadInstr.ctl.fast = false ∧ reloadInstr.k = 16 := by
    decide +kernel
  unfold imageOk imageHeader
  generalize crc32c body = c
  have hc := c.isLt
  have hv : packBits [(16, 0xF128), (2, (2 : BitVec 2).toNat), (6, 0), (3, 0), (1, bnat false), (4, 0), (10, (0 : BitVec 10).toNat),
      (22, 0), (32, 16), (32, 32), (32, c.toNat)] % 256 ^ 64 = 2535301200751606708172759429416 + 2 ^ 128 * c.toNat := by
    rw [show (2 : BitVec 2).toNat = 2 from rfl, show (0 : BitVec 10).toNat = 0 from rfl]
    simp only [packBits, show bnat false = 0 from rfl]
    omega
  simp only [hw, hz, leNat_zero, hm, leNat_natLe, hv, bits, bit, Bool.and_eq_true, decide_eq_true_eq]
  refine ⟨⟨⟨⟨⟨⟨⟨⟨⟨⟨?_, ?_⟩, ?_⟩, ?_⟩, ?_⟩, ?_⟩, ?_⟩, ?_⟩, ?_⟩, ?_⟩, ?_⟩
  · omega
  · show _ = 2; omega
  · omega
  · omega
  · simp; omega
  · omega
  · omega
  · rw [Nat.div_eq_of_lt (by omega), Nat.zero_mod]
  · omega
  · apply BitVec.eq_of_toNat_eq; rw [BitVec.toNat_ofNat]; omega
  · simp


theorem witness_ArraySetsPassesAndReloads_5 :
    ∃ (s : State) (t : TileId) (p : PaneId) (i : MatInstr) (a : Word) (h : Bytes) (body : Bytes), (s.folds t p i) ∧ (i.phase = .reload) ∧ (s.placeImage t i.image (s.paneSide t) (i.cursor.mBlock * i.nBlocks (s.paneSide t) + i.cursor.nBlock) = some a) ∧ (s.reachRead t .bypass a 64 = (s, .ok h)) ∧ (s.reachRead t .bypass (a + 4096) (40 * s.paneSide t * s.paneSide t) = (s, .ok body)) ∧ (imageOk (s.tile t).arr.cfg i h body = true) ∧ (s.tel.trace.ovfEvent = false) := by
  refine ⟨onTile reloadTile, 3, 0, reloadInstr, 0x100000, imgHead, zeroBody, by decide +kernel, by decide +kernel,
    by decide +kernel, ?_, ?_, (image_ok _ fun a k => slice_zero _ a k), rfl⟩
  · have h := bytesAt_putBytes_self [] 0x100000 imgHead
    rw [imgHead_length] at h
    exact reachRead_scratch _ _ _ _ 0x100000 _ _ rfl (by decide) reload_spoison (by rw [reload_scratch]; exact h)
  · rw [show 40 * (onTile reloadTile).paneSide 3 * (onTile reloadTile).paneSide 3 = 163840 by decide +kernel]
    exact reachRead_scratch _ _ _ _ 0x101000 _ _ rfl (by decide) reload_spoison (by rw [reload_scratch]; exact reload_body)

/-- A DMA descriptor (R181) at 0x80: 16 bytes of FP32 from 0x1000 to 0x2000. -/
def dmaDesc (kind : Nat) : Bytes := natLe (packBits [(64, 0x1000), (64, 0x2000), (4, kind), (4, 0), (8, 1), (8, 1), (8, 0), (32, 4),
  (16, 1), (16, 1), (16, 1)]) 128
def dmaIssue : Issue := ⟨asm64 (asm 0x3B 4 0 0) 0, 0, 0x80⟩
def dmaOp : DmaOp :=
  { desc := dmaDescOf (dmaDesc 0), cmd := none, pc := 0, word := dmaIssue.word, next := 0, segs := 1, sent := [], ordinal := 0
    serial := 0, srcBase := 0, dstBase := 0, id := 0, got := [], due := [], ceiling := 0, failed := false }

theorem witness_DescriptorsBeginInOrder_1 :
    ∀ r ∈ ([(0, .dmaCopy), (1, .dmaGather), (2, .dmaScatter)] : List (Nat × (TileId → Instr))), ∃ (s : State) (t : TileId) (i : Issue) (q : List Issue) (b : Bytes), ((s.tile t).dq = i :: q) ∧ (fWv i.word = false) ∧ ((s.tile t).inService = true) ∧ (s.tileStopping t = false) ∧ ((s.tile t).dma.ops.length < 64) ∧ (∀ o ∈ (s.tile t).dma.ops, o.remote = false) ∧ (i.arg.toNat % 128 = 0) ∧ ((s.tile t).scratchRead i.arg.toNat 128 = .ok b) ∧ ((dmaDescOf b).kind.toNat = r.1) ∧ (dmaCheck b (dmaDescOf b) = none) ∧ ((dmaDescOf b).tdescSrc = 0) ∧ ((dmaDescOf b).tdescDst = 0) ∧ (spaceOf (dmaDescOf b).src ≠ 3) ∧ (spaceOf (dmaDescOf b).dst ≠ 3) ∧ (spaceOf (dmaDescOf b).scale ≠ 3) := by
  intro r hr
  rcases (by simpa using hr : r = _ ∨ r = _ ∨ r = _) with rfl | rfl | rfl
  · exact ⟨onTile { cmd := some ⟨0, 1⟩, dq := [dmaIssue], scratch := putBytes [] 0x80 (dmaDesc 0) }, 3, dmaIssue, [], dmaDesc 0, by decide +kernel, by decide +kernel, by decide +kernel, by decide +kernel, by decide +kernel, by decide +kernel, by decide +kernel, ok_is (by decide +kernel) (by decide +kernel), by decide +kernel⟩
  · exact ⟨onTile { cmd := some ⟨0, 1⟩, dq := [dmaIssue], scratch := putBytes [] 0x80 (dmaDesc 1) }, 3, dmaIssue, [], dmaDesc 1, by decide +kernel, by decide +kernel, by decide +kernel, by decide +kernel, by decide +kernel, by decide +kernel, by decide +kernel, ok_is (by decide +kernel) (by decide +kernel), by decide +kernel⟩
  · exact ⟨onTile { cmd := some ⟨0, 1⟩, dq := [dmaIssue], scratch := putBytes [] 0x80 (dmaDesc 2) }, 3, dmaIssue, [], dmaDesc 2, by decide +kernel, by decide +kernel, by decide +kernel, by decide +kernel, by decide +kernel, by decide +kernel, by decide +kernel, ok_is (by decide +kernel) (by decide +kernel), by decide +kernel⟩


theorem witness_SegmentsMoveBytes_1 :
    ∃ (s : State) (t : TileId) (n : Nat) (o : DmaOp) (g : Seg) (src : Bytes) (a : Nat), ((s.tile t).dma.ops[n]? = some o) ∧ (∀ p ∈ (s.tile t).dma.ops, p.serial = o.serial → p = o) ∧ (o.remote = false) ∧ (o.next < o.segs) ∧ (s.opStopping t o = false) ∧ ((s.tile t).inReset = false) ∧ ((s.tile t).zeroing = false) ∧ (segOf (s.tile t) o.desc o.next = .ok g) ∧ (g.srcScale = none) ∧ (g.dstScale = none) ∧ (o.desc.kind ≠ 2) ∧ (o.desc.same = true) ∧ (o.desc.tdescDst = 0) ∧ (o.cmd = none) ∧ (o.sent = []) ∧ (∀ c, s.tileCmd t = some c → s.paired c.queue = false) ∧ (s.tel.trace.ovfEvent = false) ∧ (s.reachRead t (policyNum o.desc.srcCache) g.srcA g.srcN = (s, .ok src)) ∧ (reachOf g.dstA = .ok (.scratch a)) ∧ (a + g.dstN ≤ 0x1800000) ∧ (∀ k < g.dstN, o.readsByte (s.tile t) t (ownSpace t g.dstA + k) = false) :=
  ⟨onTile { cmd := some ⟨0, 1⟩, dma := { ops := [dmaOp] } }, 3, 0, dmaOp, ⟨0, 0, 4, 0x1000, 16, none, 0, 0x2000, 16, none⟩, List.replicate 16 0, 0x2000, (by decide +kernel), (by decide +kernel), (by decide +kernel), (by decide +kernel), (by decide +kernel), (by decide +kernel), (by decide +kernel), (ok_is (by decide +kernel) (by decide +kernel)), (by decide +kernel), (by decide +kernel), (by decide +kernel), (by decide +kernel), (by decide +kernel), (by decide +kernel), (by decide +kernel), (fun c h => by have : c = ⟨0, 1⟩ := (Option.some.inj h).symm; subst this; decide +kernel), (by decide +kernel), (pair_is (by decide +kernel) (by decide +kernel) (by decide +kernel)), (rfl), (by decide +kernel), (by decide +kernel)⟩

def line0 : CLine := ⟨[(3, 7)], 8, BitVec.allOnes 64, 0⟩

theorem witness_ScratchpadsAndCachesAreKept_5 :
    ∃ (s : State) (d : DieId) (line : Nat) (l : CLine), (s.cline d line = some l) ∧ (s.bridgeFail d (64 * line) = none) ∧ (s.agentFenced (64 * line) = none) ∧ (s.poison.contains line = false) ∧ (s.tel.trace.ovfEvent = false) :=
  ⟨State.reset.setDie 0 { cache := [(5, some line0)] }, 0, 5, line0, (by decide +kernel), (by decide +kernel), (by decide +kernel), (by decide +kernel), (by decide +kernel)⟩

theorem witness_ScratchpadsAndCachesAreKept_6 :
    ∃ (s : State) (d : DieId), ((s.die d).clearing = true) ∧ (mapWf none (s.die d).cache) :=
  ⟨State.reset.setDie 0 { cache := [(5, some line0)], clearing := true }, 0, (by decide +kernel), (by decide +kernel)⟩

theorem witness_StackAgentsServeAccesses_1 :
    ∃ (s : State) (k : StackId) (a : StackAccess) (b : Bytes), (s.agentServes k a.pa.toNat = true) ∧ (s.agentRead a.pa.toNat a.bytes = .ok b) ∧ (s.tel.trace.ovfEvent = false) ∧ (mapGet 0 s.tel.perf (srcStack k).toNat = 0) ∧ (a.bytes < 2 ^ 48) :=
  ⟨State.reset, 0, ⟨0x40, 32, none⟩, List.replicate 32 0, (by decide +kernel), (ok_is (by decide +kernel) (by decide +kernel)), (by decide +kernel), (by decide +kernel), (by decide +kernel)⟩

theorem witness_StackAgentsServeAccesses_2 :
    ∃ (s : State) (k : StackId) (a : StackAccess), (s.agentServes k a.pa.toNat = true) ∧ (a.cmd = none) ∧ (s.poison.contains (a.pa.toNat / 64) = false) :=
  ⟨State.reset, 0, ⟨0x40, 32, none⟩, (by decide +kernel), (by decide +kernel), (by decide +kernel)⟩

theorem witness_StackAgentsServeAccesses_3 :
    ∃ (s : State) (k : StackId) (a : StackAccess) (d : DieId) (o : Nat) (data : Bytes), (s.agentServes k a.pa.toNat = true) ∧ (s.agentFenced a.pa.toNat = none) ∧ (s.paKind a.pa.toNat = .region d o) ∧ (o + data.length ≤ s.regionSize d) ∧ (∀ l ∈ linesOf a.pa.toNat data.length, s.poison.contains l = false) ∧ (s.tel.trace.ovfEvent = false) :=
  ⟨State.reset, 0, ⟨0x40, 32, none⟩, 0, 0x40, List.replicate 32 9, (by decide +kernel), (by decide +kernel), (by decide +kernel), (by decide +kernel), (by decide +kernel), (by decide +kernel)⟩

theorem witness_StackAgentsServeAccesses_4 :
    ∃ (s : State) (k : StackId), ((s.stack k).unavailable = false) ∧ ((s.stack k).selfRefresh = false) ∧ (s.tel.trace.ovfEvent = false) :=
  ⟨State.reset, 0, (by decide +kernel), (by decide +kernel), (by decide +kernel)⟩

/-- A queue of partition 1: ring of 16 records at 0x8000, completions at 0x9000. -/
def cfg1 : QueueCfg :=
  { partition := 1, kernel := true, priority := 0, persist := false, nopre := true, haltFlag := false, timeout := 0, flagMask := 0
    ring := 0x8000, ringLog2 := 4, cplLog2 := 4, msix := 0, maxInflight := 16, cpl := 0x9000, dspill := 0, dspillLen := 0
    hspill := 0, hspillLen := 0, pLaunch := 0, pFirst := 0, pTiles := 0 }

/-- The module serving (R462), partition 1 on die 0, queue 0 running with the commands given. -/
def serving : State := { State.reset with pow := { mode := .powered, perstN := true, pwrEn := true, pwrGood := true }, boot := { state := 1, running := true, pcieRate := 1 } }
def live (cs : List Cmd) : State := (paged serving).setQueue 0 { cfg := some cfg1, state := qRunning, cmds := cs }

/-- A command fetched from a record (R246). -/
def cmdOf (v : Nat) : Cmd := { id := 1, seq := 0, record := natLe v 64 }
def begunCmd (v : Nat) : Cmd := { cmdOf v with stage := .begun }

theorem none_fenced (s : State) (h : ∀ d : DieId, ((s.die d).inReset || (s.die d).pstate = 2) = false) (a : Nat) :
    s.agentFenced a = none := by
  unfold State.agentFenced
  split
  · rw [if_neg (by rw [h]; decide)]
  · rfl

/-- An atomic of that command on the word at 0x3000. -/
def atomic0 : AtomicRequest := ⟨⟨0, 0⟩, 0, 0x2000000000003000, 5, 0, 0, false, 0⟩
def at3000 : Xlat := ⟨0x3000, true, true, true, false⟩

theorem witness_AtomicsApplyTheirOperation_1 :
    ∀ r ∈ atomRules, ∃ (s : State) (a : AtomicRequest) (pa : Nat) (x : Cmd), (s.atomAt a r.1 pa x) ∧ (a.result = 0) := fun r hr =>
  have h : ∀ r ∈ atomRules, (reqOf atomic0 r.1).check = none ∧ 0x3000 + atomWidth r.1 false ≤ (live [begunCmd 0]).regionSize 0 ∧
      0x3000 % 64 + atomWidth r.1 false ≤ 64 := by decide +kernel
  ⟨live [begunCmd 0], atomic0, 0x3000, begunCmd 0, ⟨by decide +kernel, by decide +kernel, (h r hr).1, ⟨at3000, 0, 0x3000, ok_is (by decide +kernel) (by decide +kernel), by decide +kernel, by decide +kernel, by decide +kernel, (h r hr).2.1⟩,
    (h r hr).2.2, by decide +kernel⟩, by decide +kernel⟩

theorem witness_AtomicsApplyTheirOperation_2 :
    ∃ (s : State) (a : AtomicRequest) (pa : Nat) (x : Cmd), (s.atomAt a 0xC pa x) ∧ (a.result = 0) := ⟨live [begunCmd 0], atomic0, 0x3000, begunCmd 0, ⟨by decide +kernel, by decide +kernel, by decide +kernel, ⟨at3000, 0, 0x3000, ok_is (by decide +kernel) (by decide +kernel), by decide +kernel, by decide +kernel, by decide +kernel, by decide +kernel⟩,
    by decide +kernel, by decide +kernel⟩, by decide +kernel⟩

theorem witness_CountersAreSetAndPolled_1 :
    ∃ (s : State) (q : QueueId) (seq : BitVec 32) (k : StackId) (x : Cmd), (s.findSeq q seq .begun = some x) ∧ (s.stackPart k = some (s.queuePart q)) ∧ (s.queueKernel q = true) :=
  ⟨live [begunCmd 0], 0, 0, 1, begunCmd 0, (by decide +kernel), (by decide +kernel), (by decide +kernel)⟩

theorem witness_PlainCommandsAndFencesComplete_1 :
    ∀ r ∈ ([(0, .nop), (0x10, .ptinval)] : List (Nat × (QueueId → Instr))), ∃ (s : State) (q : QueueId) (x : Cmd), (s.frontTurn q r.1 x) :=
  fun r hr => ⟨live [cmdOf r.1], 0, cmdOf r.1, (by decide +kernel : ∀ r ∈ ([(0, .nop), (0x10, .ptinval)] : List (Nat × (QueueId → Instr))), ((live [cmdOf r.1]).frontTurn 0 r.1 (cmdOf r.1))) r hr⟩

theorem witness_PlainCommandsAndFencesComplete_2 :
    ∃ (s : State) (q : QueueId) (x : Cmd) (ps : Option (List (Nat × Nat))), (s.frontTurn q 7 x) ∧ (x.field 64 64 = 0) ∧ (x.field 65 65 = 0) ∧ (s.fenceRange ⟨q, x.id⟩ x = .ok ps) :=
  ⟨live [cmdOf 7], 0, cmdOf 7, none, (by decide +kernel), (by decide +kernel), (by decide +kernel), (ok_is (by decide +kernel) (by decide +kernel))⟩

theorem witness_PlainCommandsAndFencesComplete_3 :
    ∃ (s : State) (q : QueueId) (x : Cmd) (ps : Option (List (Nat × Nat))), (s.frontTurn q 7 x) ∧ (x.field 64 64 = 1) ∧ (x.field 65 65 = 0) ∧ (s.fenceRange ⟨q, x.id⟩ x = .ok ps) ∧ (∀ d, mapWf none (s.die d).cache) :=
  ⟨live [cmdOf (7 + 2 ^ 64)], 0, cmdOf (7 + 2 ^ 64), none, (by decide +kernel), (by decide +kernel), (by decide +kernel), (ok_is (by decide +kernel) (by decide +kernel)), (by decide +kernel)⟩

theorem witness_PlainCommandsAndFencesComplete_4 :
    ∃ (s : State) (q : QueueId) (x : Cmd) (ps : Option (List (Nat × Nat))), (s.frontTurn q 7 x) ∧ (x.field 64 64 = 0) ∧ (x.field 65 65 = 1) ∧ (x.field 66 66 = 0) ∧ (s.fenceRange ⟨q, x.id⟩ x = .ok ps) ∧ (∀ d, mapWf none (s.die d).cache) ∧ (s.flt.linksDown = []) ∧ (s.poison = []) ∧ (∀ a, s.agentFenced a = none) :=
  ⟨live [cmdOf (7 + 2 ^ 65)], 0, cmdOf (7 + 2 ^ 65), none, (by decide +kernel), (by decide +kernel), (by decide +kernel), (by decide +kernel), (ok_is (by decide +kernel) (by decide +kernel)), (by decide +kernel), (by decide +kernel), (by decide +kernel), (none_fenced _ (by decide +kernel))⟩

theorem witness_SignalsReachTheirTargets_1 :
    ∃ (s : State) (q : QueueId) (x : Cmd) (n : BitVec 14) (k : BitVec 32), (s.frontTurn q 6 x) ∧ (x.field 66 64 = 0) ∧ (n.toNat = x.field 93 80) ∧ (k.toNat = x.field 159 128) ∧ ((s.sem n).toNat + k.toNat < 2 ^ 32) ∧ (s.noneWaits n) :=
  ⟨live [cmdOf (6 + 5 * 2 ^ 80 + 9 * 2 ^ 128)], 0, cmdOf (6 + 5 * 2 ^ 80 + 9 * 2 ^ 128), 5, 9, (by decide +kernel), (by decide +kernel), (by decide +kernel), (by decide +kernel), (by decide +kernel), (by decide +kernel)⟩

theorem witness_SignalsReachTheirTargets_2 :
    ∃ (s : State) (q : QueueId) (x : Cmd) (n : BitVec 14) (k : BitVec 32), (s.frontTurn q 6 x) ∧ (x.field 66 64 = 1) ∧ (n.toNat = x.field 93 80) ∧ (k.toNat = x.field 159 128) ∧ (s.noneWaits n) :=
  ⟨live [cmdOf (6 + 2 ^ 64 + 5 * 2 ^ 80 + 9 * 2 ^ 128)], 0, cmdOf (6 + 2 ^ 64 + 5 * 2 ^ 80 + 9 * 2 ^ 128), 5, 9, (by decide +kernel), (by decide +kernel), (by decide +kernel), (by decide +kernel), (by decide +kernel)⟩

theorem witness_SignalsReachTheirTargets_3 :
    ∃ (s : State) (q : QueueId) (r : QueueId) (x : Cmd) (g : QueueCfg) (v : BitVec 32), (s.frontTurn q 6 x) ∧ (x.field 66 64 = 2) ∧ (r.val = x.field 107 96) ∧ (v.toNat = x.field 159 128) ∧ (r ≠ q) ∧ ((s.queue r).cfg = some g) ∧ (g.partition = s.queuePart q) ∧ ((s.queue r).state ≠ qDestroying) ∧ (v ≠ (s.queue r).tail) ∧ ((v - (s.queue r).tail).toNat < 2 ^ 31) ∧ ((v - (s.queue r).head).toNat ≤ 2 ^ g.ringLog2) ∧ (g.persist = false ∨ s.residentUp r = true) :=
  ⟨(live [cmdOf (6 + 2 * 2 ^ 64 + 1 * 2 ^ 96 + 9 * 2 ^ 128)]).setQueue 1 { cfg := some cfg1, state := qIdle }, 0, 1, cmdOf (6 + 2 * 2 ^ 64 + 1 * 2 ^ 96 + 9 * 2 ^ 128), cfg1, 9, (by decide +kernel), (by decide +kernel), (by decide +kernel), (by decide +kernel), (by decide +kernel), (by decide +kernel), (by decide +kernel), (by decide +kernel), (by decide +kernel), (by decide +kernel), (by decide +kernel), (by decide +kernel)⟩

theorem witness_SignalsReachTheirTargets_4 :
    ∃ (s : State) (q : QueueId) (x : Cmd) (h : Nat), (s.frontTurn q 6 x) ∧ (x.field 66 64 = 3) ∧ (reachOf (BitVec.ofNat 64 (x.field 255 192)) = .ok (.host h)) ∧ (s.atsOn = true) :=
  ⟨live [cmdOf (6 + 3 * 2 ^ 64 + 9 * 2 ^ 128 + 0x4000000000001000 * 2 ^ 192)], 0, cmdOf (6 + 3 * 2 ^ 64 + 9 * 2 ^ 128 + 0x4000000000001000 * 2 ^ 192), 0x1000, (by decide +kernel), (by decide +kernel), (ok_is (by decide +kernel) (by decide +kernel)), (by decide +kernel)⟩

theorem witness_SignalsReachTheirTargets_5 :
    ∃ (s : State) (q : QueueId) (x : Cmd) (h : Nat), (s.frontTurn q 6 x) ∧ (x.field 66 64 = 3) ∧ (reachOf (BitVec.ofNat 64 (x.field 255 192)) = .ok (.host h)) ∧ (s.atsOn = false) :=
  ⟨{ live [cmdOf (6 + 3 * 2 ^ 64 + 9 * 2 ^ 128 + 0x4000000000001000 * 2 ^ 192)] with atsOn := false }, 0, cmdOf (6 + 3 * 2 ^ 64 + 9 * 2 ^ 128 + 0x4000000000001000 * 2 ^ 192), 0x1000, (by decide +kernel), (by decide +kernel), (ok_is (by decide +kernel) (by decide +kernel)), (by decide +kernel)⟩

theorem witness_SignalsReachTheirTargets_6 :
    ∃ (s : State) (q : QueueId) (x : Cmd) (va : Nat) (o : Nat) (g : Xlat) (d : DieId), (s.frontTurn q 6 x) ∧ (x.field 66 64 = 3) ∧ (reachOf (BitVec.ofNat 64 (x.field 255 192)) = .ok (.device va)) ∧ (va % 8 = 0) ∧ (s.translateWrite (s.queuePart q) va = .ok g) ∧ (g.pa % 8 = 0) ∧ (s.paKind g.pa = .region d o) ∧ (o + 8 ≤ s.regionSize d) ∧ (s.agentFenced g.pa = none) ∧ (s.poison = []) :=
  ⟨live [cmdOf (6 + 3 * 2 ^ 64 + 9 * 2 ^ 128 + 0x2000000000003000 * 2 ^ 192)], 0, cmdOf (6 + 3 * 2 ^ 64 + 9 * 2 ^ 128 + 0x2000000000003000 * 2 ^ 192), 0x3000, 0x3000, at3000, 0, (by decide +kernel), (by decide +kernel), (ok_is (by decide +kernel) (by decide +kernel)), (by decide +kernel), (ok_is (by decide +kernel) (by decide +kernel)), (by decide +kernel), (by decide +kernel), (by decide +kernel), (by decide +kernel), (by decide +kernel)⟩

/-- The queue of `live` changed. -/
def liveQ (f : Queue → Queue) (cs : List Cmd) : State := (live cs).updQueue 0 f
def withMem (a : Nat) (b : Bytes) (s : State) : State := { s with mem := putBytes s.mem a b }
def zeros (n : Nat) : Bytes := List.replicate n 0

theorem witness_DoorbellsAndRecordFetch_1 :
    ∃ (s : State) (f : FnId) (q : QueueId), ((s.bar0Open && s.ownsPage f q) = false) :=
  ⟨live [], 3, 0, (by decide +kernel)⟩

theorem witness_DoorbellsAndRecordFetch_2 :
    ∃ (s : State) (f : FnId) (q : QueueId) (v : BitVec 32) (c : QueueCfg), ((s.bar0Open && s.ownsPage f q) = true) ∧ ((s.queue q).cfg = some c) ∧ ((s.queue q).state ≠ qDestroying) ∧ (v ≠ (s.queue q).tail) ∧ ((v - (s.queue q).tail).toNat < 2 ^ 31) ∧ ((v - (s.queue q).head).toNat ≤ 2 ^ c.ringLog2) ∧ (s.partAwake c.partition = true) ∧ (c.persist = false ∨ s.residentUp q = true) :=
  ⟨live [], 2, 0, 1, cfg1, (by decide +kernel), (by decide +kernel), (by decide +kernel), (by decide +kernel), (by decide +kernel), (by decide +kernel), (by decide +kernel), (by decide +kernel)⟩

theorem witness_DoorbellsAndRecordFetch_3 :
    ∃ (s : State) (f : FnId) (q : QueueId) (v : BitVec 32) (c : QueueCfg), ((s.bar0Open && s.ownsPage f q) = true) ∧ ((s.queue q).cfg = some c) ∧ ((s.queue q).state ≠ qDestroying) ∧ (v ≠ (s.queue q).tail) ∧ ((v - (s.queue q).tail).toNat < 2 ^ 31) ∧ (2 ^ c.ringLog2 < (v - (s.queue q).head).toNat) ∧ ((s.queue q).cmds ≠ []) :=
  ⟨live [cmdOf 0], 2, 0, 17, cfg1, (by decide +kernel), (by decide +kernel), (by decide +kernel), (by decide +kernel), (by decide +kernel), (by decide +kernel), (by decide +kernel)⟩

theorem witness_DoorbellsAndRecordFetch_4 :
    ∃ (s : State) (f : FnId) (q : QueueId), ((s.bar0Open && s.ownsPage f q) = true) :=
  ⟨live [], 2, 0, (by decide +kernel)⟩

theorem witness_DoorbellsAndRecordFetch_5 :
    ∃ (s : State) (q : QueueId) (v : BitVec 32), ((s.queue q).state = qDestroying ∨ v = (s.queue q).tail ∨ 2 ^ 31 ≤ (v - (s.queue q).tail).toNat) :=
  ⟨live [], 0, 0, (by decide +kernel)⟩

theorem witness_DoorbellsAndRecordFetch_6 :
    ∃ (s : State) (q : QueueId) (c : QueueCfg) (b : Bytes), (s.settleBuffers q = s) ∧ ((s.queue q).cfg = some c) ∧ (s.mayFetch q = true) ∧ ((s.queue q).frames = []) ∧ ((s.queue q).head ≠ (s.queue q).tail) ∧ ((s.queue q).inFlight < c.maxInflight) ∧ (s.moduleInFlight < 16384) ∧ ((s.queue q).acquirePending = false) ∧ (c.persist = false) ∧ (c.nopre = true) ∧ (s.vread c.partition (c.ring.toNat + 64 * ((s.queue q).head.toNat % 2 ^ c.ringLog2)) 64 = .ok b) ∧ ((s.queue q).skip = 0) ∧ (s.recordCheck q 0 (s.queue q).head b = 0) :=
  ⟨liveQ (fun q => { q with tail := 1 }) [], 0, cfg1, zeros 64, (by decide +kernel), (by decide +kernel), (by decide +kernel), (by decide +kernel), (by decide +kernel), (by decide +kernel), (by decide +kernel), (by decide +kernel), (by decide +kernel), (by decide +kernel), (ok_is (by decide +kernel) (by decide +kernel)), (by decide +kernel), (by decide +kernel)⟩

theorem witness_DoorbellsAndRecordFetch_7 :
    ∃ (s : State) (q : QueueId) (c : QueueCfg) (b : Bytes), (s.settleBuffers q = s) ∧ ((s.queue q).cfg = some c) ∧ (s.mayFetch q = true) ∧ ((s.queue q).frames = []) ∧ ((s.queue q).head ≠ (s.queue q).tail) ∧ ((s.queue q).inFlight < c.maxInflight) ∧ (s.moduleInFlight < 16384) ∧ ((s.queue q).acquirePending = false) ∧ (c.persist = false) ∧ (s.vread c.partition (c.ring.toNat + 64 * ((s.queue q).head.toNat % 2 ^ c.ringLog2)) 64 = .ok b) ∧ ((s.queue q).skip ≠ 0) ∧ (bits (leNat b) 63 32 = (s.queue q).head.toNat) :=
  ⟨liveQ (fun q => { q with tail := 1, skip := 1 }) [], 0, cfg1, zeros 64, (by decide +kernel), (by decide +kernel), (by decide +kernel), (by decide +kernel), (by decide +kernel), (by decide +kernel), (by decide +kernel), (by decide +kernel), (by decide +kernel), (ok_is (by decide +kernel) (by decide +kernel)), (by decide +kernel), (by decide +kernel)⟩

def frame0 : Frame := ⟨0x8000, 2, 0, 0, false, 0, false, 0, 0⟩

theorem witness_DoorbellsAndRecordFetch_8 :
    ∃ (s : State) (q : QueueId) (c : QueueCfg) (f : Frame) (fs : List Frame) (b : Bytes), (s.settleBuffers q = s) ∧ ((s.queue q).cfg = some c) ∧ (s.mayFetch q = true) ∧ ((s.queue q).frames = f :: fs) ∧ (f.index < f.len) ∧ (c.persist = false) ∧ (c.nopre = true) ∧ (s.vread c.partition (f.buf.toNat + 64 * f.index) 64 = .ok b) ∧ (s.recordCheck q (fs.length + 1) 0 b = 0) :=
  ⟨liveQ (fun q => { q with frames := [frame0] }) [{ cmdOf 10 with stage := .begun }], 0, cfg1, frame0, [], zeros 64, (by decide +kernel), (by decide +kernel), (by decide +kernel), (by decide +kernel), (by decide +kernel), (by decide +kernel), (by decide +kernel), (ok_is (by decide +kernel) (by decide +kernel)), (by decide +kernel)⟩

theorem witness_DoorbellsAndRecordFetch_9 :
    ∃ (s : State) (q : QueueId) (c : QueueCfg) (b : Bytes) (st : BitVec 16), (s.settleBuffers q = s) ∧ ((s.queue q).cfg = some c) ∧ (s.mayFetch q = true) ∧ ((s.queue q).frames = []) ∧ ((s.queue q).head ≠ (s.queue q).tail) ∧ ((s.queue q).inFlight < c.maxInflight) ∧ (s.moduleInFlight < 16384) ∧ ((s.queue q).acquirePending = false) ∧ (c.persist = false) ∧ (s.vread c.partition (c.ring.toNat + 64 * ((s.queue q).head.toNat % 2 ^ c.ringLog2)) 64 = .ok b) ∧ ((s.queue q).skip = 0) ∧ (s.recordCheck q 0 (s.queue q).head b = st) ∧ (st ≠ 0) ∧ (st ≠ 1) ∧ ((s.queue q).cmds = []) :=
  ⟨withMem 0x8000 (natLe (5 * 2 ^ 32) 64) (liveQ (fun q => { q with tail := 1 }) []), 0, cfg1, natLe (5 * 2 ^ 32) 64, 0x1004, (by decide +kernel), (by decide +kernel), (by decide +kernel), (by decide +kernel), (by decide +kernel), (by decide +kernel), (by decide +kernel), (by decide +kernel), (by decide +kernel), (ok_is (by decide +kernel) (by decide +kernel)), (by decide +kernel), (by decide +kernel), (by decide +kernel), (by decide +kernel), (by decide +kernel)⟩

/-- A matmul of the tensor at 0x2000 by itself on tiles 3 and 4, its one-element result described at 0x2040. -/
def resultAt2040 : Bytes := natLe (packBits [(64, 0x2000000000020000), (64, 0), (32, 7), (8, 0), (24, 0), (8, 1), (24, 0), (32, 1),
  (32, 1), (32, 1), (32, 1)]) 64
def matmulCmd : Cmd := cmdOf (packBits [(64, 1), (64, 0x2000), (64, 0x2000), (64, 0), (64, 0x2040), (16, 0x2000), (8, 0), (7, 3), (1, 0), (7, 2)])
def matmulState : State := withMem 0x2040 resultAt2040 (live [matmulCmd])
def noJob : MatJob := { tile := 0, a := noTensor, b := noTensor, c := none, d := noTensor, dAt := 0, ctl := ctlOf (matInstr 1 .pass), instr := matInstr 1 .pass }

/-- A launch block (R250) at 0x3000 of an 8-byte image at 0x4000. -/
def launchBlock (wring : Nat) : Bytes := natLe (packBits [(64, 0x4000), (32, 8), (32, 0), (32, 0), (32, 64), (64, 0x4000), (16, 0), (16, 0), (32, wring)]) 320
def launch0 (wring : Nat) : Launch := ⟨0x4000, 8, 0, 0, 64, 0x4000, 0, [], wring⟩
def kernelRec : Cmd := cmdOf (packBits [(64, 2), (64, 0x3000), (7, 3), (1, 0), (7, 2)])
def persistCfg : QueueCfg := { cfg1 with persist := true, pLaunch := 0x3000, pFirst := 3, pTiles := 1 }

theorem witness_TileCommandsTakeTheirTiles_1 :
    ∃ (s : State) (q : QueueId) (x : Cmd) (t : TileId) (l : List TileId) (bs : List Bytes) (j : MatJob), (s.takes q 1 x (t :: l)) ∧ ((t :: l).all s.tileReady = true) ∧ (s.matBytes t (leNat x.record) = .ok bs) ∧ (matJob t (leNat x.record) bs = .ok j) ∧ (j.check = none) :=
  ⟨matmulState, 0, matmulCmd, 3, [4], [tensorAt2000, tensorAt2000, [], resultAt2040], got noJob (matJob 3 (leNat matmulCmd.record) [tensorAt2000, tensorAt2000, [], resultAt2040]), (by decide +kernel), (by decide +kernel), (ok_is (by decide +kernel) (by decide +kernel)), (ok_got noJob (by decide +kernel)), (by decide +kernel)⟩

theorem witness_TileCommandsTakeTheirTiles_2 :
    ∃ (s : State) (q : QueueId) (x : Cmd) (l : List TileId) (g : QueueCfg) (b : Launch) (img : Bytes) (args : Bytes), (s.takes q 2 x l) ∧ ((s.queue q).cfg = some g) ∧ (g.persist = false) ∧ (l.all s.tileReady = true) ∧ ((g.nopre || !(s.queue q).kernelAhead x l) = true) ∧ (s.readLaunch q (x.field 127 64) false = .ok b) ∧ (s.readImage q b = .ok (img, args)) ∧ (∀ t ∈ l, (s.tile t).seq.preload = none) :=
  ⟨withMem 0x3000 (launchBlock 0) (live [kernelRec]), 0, kernelRec, [3, 4], cfg1, launch0 0, zeros 8, [], (by decide +kernel), (by decide +kernel), (by decide +kernel), (by decide +kernel), (by decide +kernel), (ok_is (by decide +kernel) (by decide +kernel)), (ok_is (by decide +kernel) (by decide +kernel)), (by decide +kernel)⟩

theorem witness_TileCommandsTakeTheirTiles_3 :
    ∃ (s : State) (q : QueueId) (x : Cmd) (g : QueueCfg) (b : Launch), (s.frontTurn q 2 x) ∧ ((s.queue q).cfg = some g) ∧ (g.persist = true) ∧ (s.residentUp q = true) ∧ (∀ d ∈ (s.queue q).cmds, d.opcode = 2 → d.stage = .begun → d.seq.toNat % 64 ≠ x.seq.toNat % 64) ∧ (s.readLaunch q g.pLaunch.toNat true = .ok b) ∧ (∀ t ∈ g.residents, (s.tile t).seq.event 15 ≠ 0xFFFF) :=
  ⟨(withMem 0x3000 (launchBlock 0x1000) (liveQ (fun q => { q with cfg := some persistCfg }) [kernelRec])).setTile 3 { cmd := some (residentId 0), seq := { resident := true } }, 0, kernelRec, persistCfg, launch0 0x1000, (by decide +kernel), (by decide +kernel), (by decide +kernel), (by decide +kernel), (by decide +kernel), (ok_is (by decide +kernel) (by decide +kernel)), (by decide +kernel)⟩

theorem witness_TileCommandsTakeTheirTiles_4 :
    ∃ (s : State) (q : QueueId) (x : Cmd) (t : TileId), (s.takes q 3 x [t]) ∧ ((s.tile t).inReset = false) :=
  ⟨live [cmdOf (3 + 3 * 2 ^ 144)], 0, cmdOf (3 + 3 * 2 ^ 144), 3, (by decide +kernel), (by decide +kernel)⟩

theorem witness_WaitCommandsPendAndEnd_1 :
    ∀ r ∈ ([(0, .waitSemaphore, false), (1, .takeSemaphore, true)] : List (Nat × (QueueId → Instr) × Bool)), ∃ (s : State) (q : QueueId) (x : Cmd) (n : BitVec 14) (k : BitVec 32) (ps : Option (List (Nat × Nat))), (s.frontTurn q 5 x) ∧ (x.field 65 64 = r.1) ∧ (s.waitRange ⟨q, x.id⟩ x = .ok ps) ∧ (n.toNat = x.field 93 80) ∧ (k.toNat = x.field 159 128) ∧ (s.noneWaits n) := by
  intro r hr
  rcases (by simpa using hr : r = _ ∨ r = _) with rfl | rfl
  · exact ⟨live [cmdOf (5 + 7 * 2 ^ 80 + 2 * 2 ^ 128)], 0, cmdOf (5 + 7 * 2 ^ 80 + 2 * 2 ^ 128), 7, 2, none, by decide +kernel, by decide +kernel, ok_is (by decide +kernel) (by decide +kernel), by decide +kernel⟩
  · exact ⟨live [cmdOf (5 + 2 ^ 64 + 7 * 2 ^ 80 + 2 * 2 ^ 128)], 0, cmdOf (5 + 2 ^ 64 + 7 * 2 ^ 80 + 2 * 2 ^ 128), 7, 2, none, by decide +kernel, by decide +kernel, ok_is (by decide +kernel) (by decide +kernel), by decide +kernel⟩

theorem witness_WaitCommandsPendAndEnd_2 :
    ∃ (s : State) (q : QueueId) (x : Cmd) (k : StackId) (n : BitVec 12) (t : BitVec 48) (ps : Option (List (Nat × Nat))), (s.frontTurn q 5 x) ∧ (x.field 65 64 = 2) ∧ (s.waitRange ⟨q, x.id⟩ x = .ok ps) ∧ (k.val = x.field 112 108) ∧ (n.toNat = x.field 107 96) ∧ (t.toNat = x.field 175 128) ∧ ((t - s.ctr k n).toNat ≠ 2 ^ 47) :=
  ⟨live [cmdOf (5 + 2 * 2 ^ 64 + 9 * 2 ^ 96 + 1 * 2 ^ 108 + 2 * 2 ^ 128)], 0, cmdOf (5 + 2 * 2 ^ 64 + 9 * 2 ^ 96 + 1 * 2 ^ 108 + 2 * 2 ^ 128), 1, 9, 2, none, (by decide +kernel), (by decide +kernel), (ok_is (by decide +kernel) (by decide +kernel)), (by decide +kernel), (by decide +kernel), (by decide +kernel), (by decide +kernel)⟩

theorem witness_WaitCommandsPendAndEnd_3 :
    ∃ (s : State) (q : QueueId) (x : Cmd) (ps : Option (List (Nat × Nat))), (((s.queue q).cmds.find? fun y => y.opcode = 5 && y.stage = .begun && s.waitMet ⟨q, y.id⟩) = some x) ∧ (s.cmd? ⟨q, x.id⟩ = some x) ∧ (x.flags = 0) ∧ (x.holds = []) ∧ (s.waitRange ⟨q, x.id⟩ x = .ok ps) ∧ (∀ d, mapWf none (s.die d).cache) :=
  ⟨{ live [begunCmd (5 + 7 * 2 ^ 80 + 2 * 2 ^ 128)] with semWaits := [⟨7, false, 2, .cmd ⟨0, 1⟩, true⟩] }, 0, begunCmd (5 + 7 * 2 ^ 80 + 2 * 2 ^ 128), none, (by decide +kernel), (by decide +kernel), (by decide +kernel), (by decide +kernel), (ok_is (by decide +kernel) (by decide +kernel)), (by decide +kernel)⟩

theorem witness_BuffersRunAndRecordsAreSkipped_1 :
    ∃ (s : State) (q : QueueId) (x : Cmd), (s.frontTurn q 8 x) ∧ (s.iterates q x.condFrame = .ok false) :=
  ⟨live [cmdOf (8 + 2 ^ 80 + 0x3000 * 2 ^ 128 + 1 * 2 ^ 192)], 0, cmdOf (8 + 2 ^ 80 + 0x3000 * 2 ^ 128 + 1 * 2 ^ 192), (by decide +kernel), (ok_is (by decide +kernel) (by decide +kernel))⟩

theorem witness_BuffersRunAndRecordsAreSkipped_2 :
    ∃ (s : State) (q : QueueId) (x : Cmd), (s.frontTurn q 8 x) ∧ (s.iterates q x.condFrame = .ok true) ∧ (x.depth = 0) :=
  ⟨live [cmdOf (8 + 2 ^ 80 + 0x3000 * 2 ^ 128)], 0, cmdOf (8 + 2 ^ 80 + 0x3000 * 2 ^ 128), (by decide +kernel), (ok_is (by decide +kernel) (by decide +kernel)), (by decide +kernel)⟩

theorem witness_BuffersRunAndRecordsAreSkipped_3 :
    ∃ (s : State) (q : QueueId) (x : Cmd) (f : Frame) (fs : List Frame), (s.frontTurn q 8 x) ∧ (s.iterates q x.condFrame = .ok true) ∧ (x.depth ≠ 0) ∧ ((s.queue q).frames = f :: fs) ∧ (f.index + x.field 95 80 ≤ f.len) :=
  ⟨liveQ (fun q => { q with frames := [frame0] }) [{ cmdOf (8 + 2 ^ 80 + 0x3000 * 2 ^ 128) with depth := 1 }], 0, { cmdOf (8 + 2 ^ 80 + 0x3000 * 2 ^ 128) with depth := 1 }, frame0, [], (by decide +kernel), (ok_is (by decide +kernel) (by decide +kernel)), (by decide +kernel), (by decide +kernel), (by decide +kernel)⟩

theorem witness_BuffersRunAndRecordsAreSkipped_4 :
    ∀ r ∈ ([(9, .loop), (10, .callBuffer)] : List (Nat × (QueueId → Instr))), ∃ (s : State) (q : QueueId) (x : Cmd), (s.frontTurn q r.1 x) ∧ (x.depth < 8) ∧ (s.iterates q x.bufferFrame = .ok true) := by
  intro r hr
  rcases (by simpa using hr : r = _ ∨ r = _) with rfl | rfl
  · exact ⟨live [cmdOf 9], 0, cmdOf 9, by decide +kernel, by decide +kernel, ok_is (by decide +kernel) (by decide +kernel)⟩
  · exact ⟨live [cmdOf 10], 0, cmdOf 10, by decide +kernel, by decide +kernel, ok_is (by decide +kernel) (by decide +kernel)⟩

theorem witness_BuffersRunAndRecordsAreSkipped_5 :
    ∃ (s : State) (q : QueueId) (x : Cmd), (s.frontTurn q 9 x) ∧ (x.depth < 8) ∧ (s.iterates q x.bufferFrame = .ok false) :=
  ⟨live [cmdOf (9 + 2 ^ 196 + 0x3000 * 2 ^ 256 + 2 ^ 320)], 0, cmdOf (9 + 2 ^ 196 + 0x3000 * 2 ^ 256 + 2 ^ 320), (by decide +kernel), (by decide +kernel), (ok_is (by decide +kernel) (by decide +kernel))⟩

theorem witness_CommandsReleasePublishAndTimeOut_1 :
    ∃ (s : State) (q : QueueId) (seq : BitVec 32) (x : Cmd), (s.findSeq q seq .worked = some x) ∧ (s.cmd? ⟨q, x.id⟩ = some x) ∧ ((s.queue q).flat) ∧ (x.ranges = []) ∧ (x.ceilings = []) ∧ (spoilsCeilings x.status = false) :=
  ⟨live [{ cmdOf 0 with stage := .worked }], 0, 0, { cmdOf 0 with stage := .worked }, (by decide +kernel), (by decide +kernel), (by decide +kernel), (by decide +kernel), (by decide +kernel), (by decide +kernel)⟩

theorem witness_CommandsReleasePublishAndTimeOut_2 :
    ∃ (s : State) (q : QueueId) (seq : BitVec 32) (x : Cmd) (b : Word) (n : Nat) (ps : List (Nat × Nat)), (s.findSeq q seq .worked = some x) ∧ (s.cmd? ⟨q, x.id⟩ = some x) ∧ ((s.queue q).flat) ∧ (x.ranges = [(b, n)]) ∧ (x.ceilings = []) ∧ (spoilsCeilings x.status = false) ∧ (s.wholeRange (s.queuePart q) b.toNat n = .ok ps) ∧ (∀ d, mapWf none (s.die d).cache) ∧ (s.flt.linksDown = []) ∧ (s.poison = []) ∧ (∀ a, s.agentFenced a = none) :=
  ⟨live [{ cmdOf 0 with stage := .worked, ranges := [(0x3000, 64)] }], 0, 0, { cmdOf 0 with stage := .worked, ranges := [(0x3000, 64)] }, 0x3000, 64, [(0x3000, 64)], (by decide +kernel), (by decide +kernel), (by decide +kernel), (by decide +kernel), (by decide +kernel), (by decide +kernel), (ok_is (by decide +kernel) (by decide +kernel)), (by decide +kernel), (by decide +kernel), (by decide +kernel), (none_fenced _ (by decide +kernel))⟩

def hostCfg : QueueCfg := { cfg1 with cpl := 0x4000000000009000, timeout := 1 }
def releasedCmd : Cmd := { cmdOf 0 with stage := .released }

theorem witness_CommandsReleasePublishAndTimeOut_3 :
    ∃ (s : State) (q : QueueId) (g : QueueCfg) (x : Cmd) (ds : List Cmd), ((s.queue q).flat) ∧ ((s.queue q).cfg = some g) ∧ (s.cplFenced g = false) ∧ ((s.queue q).state ≠ qStalled) ∧ ((s.queue q).resumeTo = none) ∧ ((s.queue q).held = []) ∧ ((s.queue q).cmds = x :: ds) ∧ (ds ≠ []) ∧ (x.stage = .released) ∧ (slotFree (s.queue q) g x.seq = true) ∧ (g.persist = false) ∧ (s.paired q = false) ∧ (g.cpl.toNat / 2 ^ 60 = 4) ∧ (s.atsOn = false) ∧ ((x.doneAt - x.begunAt).toNat < 100000) ∧ (bit (leNat x.record) 9 = false) :=
  ⟨{ liveQ (fun q => { q with cfg := some hostCfg }) [releasedCmd, { cmdOf 0 with id := 2, seq := 1 }] with atsOn := false }, 0, hostCfg, releasedCmd, [{ cmdOf 0 with id := 2, seq := 1 }], (by decide +kernel), (by decide +kernel), (by decide +kernel), (by decide +kernel), (by decide +kernel), (by decide +kernel), (by decide +kernel), (by decide +kernel), (by decide +kernel), (by decide +kernel), (by decide +kernel), (by decide +kernel), (by decide +kernel), (by decide +kernel), (by decide +kernel), (by decide +kernel)⟩

theorem witness_CommandsReleasePublishAndTimeOut_4 :
    ∃ (s : State) (q : QueueId) (g : QueueCfg) (x : Cmd) (ds : List Cmd), ((s.queue q).flat) ∧ ((s.queue q).cfg = some g) ∧ (s.cplFenced g = false) ∧ ((s.queue q).state = qStalled) ∧ ((s.queue q).resumeTo = none) ∧ ((s.queue q).cmds = x :: ds) ∧ (x.stage = .released) ∧ ((s.queue q).held.length < 64) :=
  ⟨liveQ (fun q => { q with cfg := some hostCfg, state := qStalled }) [releasedCmd], 0, hostCfg, releasedCmd, [], (by decide +kernel), (by decide +kernel), (by decide +kernel), (by decide +kernel), (by decide +kernel), (by decide +kernel), (by decide +kernel), (by decide +kernel)⟩

theorem witness_CommandsReleasePublishAndTimeOut_5 :
    ∃ (s : State) (q : QueueId) (g : QueueCfg) (x : Cmd), ((s.queue q).cfg = some g) ∧ ((s.queue q).cmds = [x]) ∧ ((s.queue q).flat) ∧ ((s.queue q).timed = true) ∧ ((s.queue q).timerOf = x.id) ∧ (g.timeout.toNat * 1000000 ≤ (s.queue q).timer) ∧ (x.live = true) ∧ (x.opcode ≠ 3) ∧ (x.opcode ≠ 4) ∧ (x.holds = []) ∧ ((s.queue q).state ≠ qDestroying) :=
  ⟨liveQ (fun q => { q with cfg := some hostCfg, timer := 1000000, timerOf := 1 }) [cmdOf 0], 0, hostCfg, cmdOf 0, (by decide +kernel), (by decide +kernel), (by decide +kernel), (by decide +kernel), (by decide +kernel), (by decide +kernel), (by decide +kernel), (by decide +kernel), (by decide +kernel), (by decide +kernel), (by decide +kernel)⟩

theorem witness_CommandsReleasePublishAndTimeOut_6 :
    ∃ (s : State) (c : CmdId) (x : Cmd) (g : QueueCfg) (f : BitVec 16), (s.cmd? c = some x) ∧ (x.live = true) ∧ ((s.queue c.queue).cfg = some g) ∧ (f = (x.flags ||| s.tileFlags x) &&& g.flagMask) :=
  ⟨live [begunCmd 0], ⟨0, 1⟩, begunCmd 0, cfg1, 0, (by decide +kernel), (by decide +kernel), (by decide +kernel), (by decide +kernel)⟩

/-- Queue 1, of lower priority, holds tile 3, which the kernel of queue 0 needs; tile 3 stops for it. -/
def blocked : State :=
  ((liveQ (fun q => { q with cfg := some { cfg1 with priority := 5 } }) [kernelRec]).setQueue 1
    { cfg := some cfg1, state := qRunning, cmds := [{ begunCmd 2 with tiles := [3], holds := [3] }] }).setTile 3 { cmd := some ⟨1, 1⟩ }
def stopping : State := blocked.updQueue 1 fun q => { q with preempting := true }
def stoppedTile : Tile := { cmd := some ⟨1, 1⟩, arr := { stopped := true }, vec := { stopped := true }, dma := { stopped := true } }

theorem witness_PreemptionStopsSavesAndRestores_1 :
    ∃ (s : State) (q : QueueId) (r : QueueId), (s.blockers q = [r]) ∧ (s.yields q r = true) ∧ ((∀ x ∈ (s.queue r).cmds, ¬(x.opcode = 5 ∧ x.stage = .begun))) ∧ (∀ k ∈ s.colls, k.cmd.queue ≠ r) ∧ (s.semWaits = []) :=
  ⟨blocked, 0, 1, (by decide +kernel), (by decide +kernel), (by decide +kernel), (by decide +kernel), (by decide +kernel)⟩

theorem witness_PreemptionStopsSavesAndRestores_2 :
    ∃ (s : State) (t : TileId), (s.tileStopping t = true) ∧ ((s.tile t).inService = true) ∧ ((s.tile t).arr.stopped = false) ∧ (∀ o ∈ (s.tile t).finished, o.engine ≠ .array) ∧ (∀ p, ((s.tile t).pane p).resident = true → ((s.tile t).pane p).instr ≠ none) :=
  ⟨stopping, 3, (by decide +kernel), (by decide +kernel), (by decide +kernel), (by decide +kernel), (by decide +kernel)⟩

theorem witness_PreemptionStopsSavesAndRestores_3 :
    ∃ (s : State) (t : TileId), (s.tileStopping t = true) ∧ ((s.tile t).inService = true) ∧ ((s.tile t).vec.stopped = false) ∧ (∀ o ∈ (s.tile t).finished, o.engine ≠ .vector) :=
  ⟨stopping, 3, (by decide +kernel), (by decide +kernel), (by decide +kernel), (by decide +kernel)⟩

theorem witness_PreemptionStopsSavesAndRestores_4 :
    ∃ (s : State) (t : TileId), (s.tileStopping t = true) ∧ ((s.tile t).dma.stopped = false) ∧ (∀ o ∈ (s.tile t).finished, o.engine ≠ .dma) ∧ (∀ o ∈ (s.tile t).dma.ops, s.opStopping t o = true → o.sent = []) :=
  ⟨stopping, 3, (by decide +kernel), (by decide +kernel), (by decide +kernel), (by decide +kernel)⟩

theorem witness_PreemptionStopsSavesAndRestores_5 :
    ∃ (s : State) (q : QueueId), ((s.queue q).preempting = true) ∧ ((s.queue q).halting = none) ∧ ((s.queue q).state = qRunning) ∧ (s.savedReady q = true) ∧ (s.contextTiles q = []) ∧ (s.jobs = []) :=
  ⟨stopping.setTile 3 {}, 1, (by decide +kernel), (by decide +kernel), (by decide +kernel), (by decide +kernel), (by decide +kernel), (by decide +kernel)⟩

theorem witness_PreemptionStopsSavesAndRestores_6 :
    ∃ (s : State) (q : QueueId) (t : TileId) (i : Nat) (rest : List Nat), ((s.queue q).preempting = true) ∧ ((s.queue q).halting = none) ∧ ((s.queue q).state = qRunning) ∧ (s.savedReady q = true) ∧ (s.contextTiles q = [t]) ∧ ((s.tile t).cmd.any (fun c => c.queue = q) = true) ∧ (s.freeSlots (dieOf t) = i :: rest) ∧ ((s.die (dieOf t)).cache = []) ∧ (s.jobs = []) :=
  ⟨stopping.setTile 3 stoppedTile, 1, 3, 0, [1, 2], (by decide +kernel), (by decide +kernel), (by decide +kernel), (by decide +kernel), (by decide +kernel), (by decide +kernel), (by decide +kernel), (by decide +kernel), (by decide +kernel)⟩

theorem witness_PreemptionStopsSavesAndRestores_7 :
    ∃ (s : State) (q : QueueId), ((s.queue q).state = qPreempted) ∧ (s.lending (s.queuePart q) = false) ∧ (s.partAwake (s.queuePart q) = true) ∧ ((s.restoreTiles q).all (fun t => s.tileReady t) = true) ∧ (s.outranked q (s.restoreTiles q) = false) ∧ (s.contextPoisoned q = false) ∧ (∀ k ∈ s.colls, k.cmd.queue ≠ q) ∧ (∀ g, (s.queue q).cfg = some g → g.persist = false) ∧ ((s.queue q).cmds ≠ []) :=
  ⟨liveQ (fun q => { q with state := qPreempted }) [cmdOf 0], 0, (by decide +kernel), (by decide +kernel), (by decide +kernel), (by decide +kernel), (by decide +kernel), (by decide +kernel), (by decide +kernel), (fun g h => by have : g = cfg1 := (Option.some.inj h).symm; subst this; rfl), (by decide +kernel)⟩

/-- A communicator of n members of partition 1 on modules 0, 1, … in one ring, this one rank 0 (R333); its table at 0x3200. -/
def commBytes (n : Nat) : Bytes := natLe (packBits [(32, 9), (15, n), (17, 0), (16, 0), (16, n), (16, 1), (16, 1), (20, 1000), (12, 0), (32, 0), (64, 0x3200)]) 64
def memberBytes (n : Nat) : Bytes := ((upTo n).map fun i => natLe (0x4000 + i) 4).flatten

/-- A collective descriptor (R339) of each operation. -/
def collDesc (op : Nat) : Bytes :=
  let w := if op = 7 then 0 else 1
  natLe (packBits [(8, op), (3, w), (21, 0), (16, 0), (4, 0), (4, 2), (8, 0), (40, if op = 7 then 0 else if op = 6 then 1 else if op = 0 ∨ op = 3 ∨ op = 4 then 4 else 2),
    (9, if op = 6 then 4 else 0), (15, 0), (64, 0x3100), (64, if op = 7 then 0 else if op = 2 then 0x2080 else 0x2000),
    (64, if op = 7 then 0 else if op = 1 then 0x2080 else 0x2000), (64, 0), (64, 0), (64, 0), (64, 0), (32, 0), (32, 0), (32, 0), (12, 0),
    (12, 1), (8, 0), (32, 5)]) 128
def pairAt2080 : Bytes := natLe (packBits [(64, 0x2000000000030000), (64, 0), (32, 7), (8, 0), (24, 0), (8, 1), (24, 0), (32, 2),
  (32, 1), (32, 1), (32, 1)]) 64
def collCmd : Cmd := cmdOf (packBits [(64, 4), (64, 0x3000), (7, 3), (1, 0), (7, 2)])
def collMem (op n : Nat) (s : State) : State :=
  withMem 0x2080 pairAt2080 (withMem 0x3200 (memberBytes n) (withMem 0x3100 (commBytes n) (withMem 0x3000 (collDesc op) s)))
@[irreducible] def collState (op : Nat) : State := collMem op 2 (live [collCmd])
def noColl : Coll := { cmd := ⟨0, 1⟩, cseq := 0, desc := [], comm := [], src := [], dst := [], members := [], tiles := [] }
@[irreducible] def readC (op : Nat) : Coll := (got (noColl, none, true) ((collState op).readColl ⟨0, 1⟩ collCmd [3, 4])).1
def at3114 : Xlat := ⟨0x3114, true, true, true, false⟩
@[irreducible] def checkedC (op : Nat) : Coll := got noColl (State.readCollTensors (withMem 0x3114 (natLe 1 4) (collState op)) 1 (readC op))
theorem opens {s : State} {x : Cmd} {l : List TileId} {k k1 : Coll} {i : Nat} {pa : Nat}
    (a : s.takes 0 4 x l ∧ s.nextOp 0 = some i ∧ (i = 7 ∨ l.all s.tileReady = true))
    (b : isOk (s.readColl ⟨0, x.id⟩ x l) = true ∧ got (k, none, true) (s.readColl ⟨0, x.id⟩ x l) = (k, none, true)
      ∧ isOk (s.translateWrite (s.queuePart 0) (k.d 191 128 + 20)) = true
      ∧ got at3114 (s.translateWrite (s.queuePart 0) (k.d 191 128 + 20)) = at3114)
    (f : at3114.pa % 4 = 0 ∧ s.paKind at3114.pa = .region 0 pa ∧ pa + 4 ≤ s.regionSize 0 ∧ s.agentFenced at3114.pa = none
      ∧ s.poison = [])
    (e : isOk (State.readCollTensors { s with mem := putBytes s.mem at3114.pa (natLe (k.cseq.toNat + 1) 4) } (s.queuePart 0) k) = true
      ∧ got k1 (State.readCollTensors { s with mem := putBytes s.mem at3114.pa (natLe (k.cseq.toNat + 1) 4) } (s.queuePart 0) k) = k1)
    (g : k1.check s (s.queuePart 0) true = none ∧ 1 < k1.size 0 ∧ s.fab.early = [] ∧ s.coll? ⟨0, x.id⟩ = none) :
    ∃ (s : State) (q : QueueId) (x : Cmd) (l : List TileId) (k : Coll) (k1 : Coll) (clean : Bool) (g : Xlat) (d : DieId) (o : Nat) (m : Nat), (s.takes q 4 x l) ∧ (s.nextOp q = some i) ∧ (i = 7 ∨ l.all s.tileReady = true) ∧ (s.readColl ⟨q, x.id⟩ x l = .ok (k, none, clean)) ∧ (s.translateWrite (s.queuePart q) (k.d 191 128 + 20) = .ok g) ∧ (g.pa % 4 = 0) ∧ (s.paKind g.pa = .region d o) ∧ (o + 4 ≤ s.regionSize d) ∧ (s.agentFenced g.pa = none) ∧ (s.poison = []) ∧ (State.readCollTensors { s with mem := putBytes s.mem g.pa (natLe (k.cseq.toNat + 1) 4) } (s.queuePart q) k = .ok k1) ∧ (k1.check s (s.queuePart q) clean = none) ∧ (m < 3) ∧ ((∀ e, e < m → k1.size e ≤ 1)) ∧ (1 < k1.size m) ∧ (s.fab.early = []) ∧ (s.coll? ⟨q, x.id⟩ = none) :=
  ⟨s, 0, x, l, k, k1, true, at3114, 0, pa, 0, a.1, a.2.1, a.2.2, ok_is b.1 b.2.1, ok_is b.2.2.1 b.2.2.2, f.1, f.2.1, f.2.2.1, f.2.2.2.1,
    f.2.2.2.2, ok_is e.1 e.2, g.1, by decide, (fun _ h => absurd h (Nat.not_lt_zero _)), g.2.1, g.2.2.1, g.2.2.2⟩

theorem openFacts : ∀ i : Fin 8, ((collState i.val).takes 0 4 collCmd [3, 4] ∧ (collState i.val).nextOp 0 = some i.val ∧ (i.val = 7 ∨ [3, 4].all (collState i.val).tileReady = true)) ∧ (isOk ((collState i.val).readColl ⟨0, collCmd.id⟩ collCmd [3, 4]) = true ∧ got (readC i.val, none, true) ((collState i.val).readColl ⟨0, collCmd.id⟩ collCmd [3, 4]) = (readC i.val, none, true)
      ∧ isOk ((collState i.val).translateWrite ((collState i.val).queuePart 0) ((readC i.val).d 191 128 + 20)) = true
      ∧ got at3114 ((collState i.val).translateWrite ((collState i.val).queuePart 0) ((readC i.val).d 191 128 + 20)) = at3114) ∧ (at3114.pa % 4 = 0 ∧ (collState i.val).paKind at3114.pa = .region 0 0x3114 ∧ 0x3114 + 4 ≤ (collState i.val).regionSize 0 ∧ (collState i.val).agentFenced at3114.pa = none
      ∧ (collState i.val).poison = []) ∧ (isOk (State.readCollTensors { collState i.val with mem := putBytes (collState i.val).mem at3114.pa (natLe ((readC i.val).cseq.toNat + 1) 4) } ((collState i.val).queuePart 0) (readC i.val)) = true
      ∧ got (checkedC i.val) (State.readCollTensors { collState i.val with mem := putBytes (collState i.val).mem at3114.pa (natLe ((readC i.val).cseq.toNat + 1) 4) } ((collState i.val).queuePart 0) (readC i.val)) = checkedC i.val) ∧ ((checkedC i.val).check (collState i.val) ((collState i.val).queuePart 0) true = none ∧ 1 < (checkedC i.val).size 0 ∧ (collState i.val).fab.early = [] ∧ (collState i.val).coll? ⟨0, collCmd.id⟩ = none) := by decide +kernel

theorem opens_each (i : Fin 8) : ∃ (s : State) (q : QueueId) (x : Cmd) (l : List TileId) (k : Coll) (k1 : Coll) (clean : Bool) (g : Xlat) (d : DieId) (o : Nat) (m : Nat), (s.takes q 4 x l) ∧ (s.nextOp q = some i.val) ∧ (i.val = 7 ∨ l.all s.tileReady = true) ∧ (s.readColl ⟨q, x.id⟩ x l = .ok (k, none, clean)) ∧ (s.translateWrite (s.queuePart q) (k.d 191 128 + 20) = .ok g) ∧ (g.pa % 4 = 0) ∧ (s.paKind g.pa = .region d o) ∧ (o + 4 ≤ s.regionSize d) ∧ (s.agentFenced g.pa = none) ∧ (s.poison = []) ∧ (State.readCollTensors { s with mem := putBytes s.mem g.pa (natLe (k.cseq.toNat + 1) 4) } (s.queuePart q) k = .ok k1) ∧ (k1.check s (s.queuePart q) clean = none) ∧ (m < 3) ∧ ((∀ e, e < m → k1.size e ≤ 1)) ∧ (1 < k1.size m) ∧ (s.fab.early = []) ∧ (s.coll? ⟨q, x.id⟩ = none) :=
  opens (openFacts i).1 (openFacts i).2.1 (openFacts i).2.2.1 (openFacts i).2.2.2.1 (openFacts i).2.2.2.2


theorem witness_CollectivesBeginTheirOpening_1 :
    ∀ r ∈ ([(0, .allReduce), (1, .reduceScatter), (2, .allGather), (3, .broadcast), (4, .reduce), (5, .allToAll), (6, .topKMerge), (7, .barrier)] : List (Nat × (QueueId → Instr))), ∃ (s : State) (q : QueueId) (x : Cmd) (l : List TileId) (k : Coll) (k1 : Coll) (clean : Bool) (g : Xlat) (d : DieId) (o : Nat) (m : Nat), (s.takes q 4 x l) ∧ (s.nextOp q = some r.1) ∧ (r.1 = 7 ∨ l.all s.tileReady = true) ∧ (s.readColl ⟨q, x.id⟩ x l = .ok (k, none, clean)) ∧ (s.translateWrite (s.queuePart q) (k.d 191 128 + 20) = .ok g) ∧ (g.pa % 4 = 0) ∧ (s.paKind g.pa = .region d o) ∧ (o + 4 ≤ s.regionSize d) ∧ (s.agentFenced g.pa = none) ∧ (s.poison = []) ∧ (State.readCollTensors { s with mem := putBytes s.mem g.pa (natLe (k.cseq.toNat + 1) 4) } (s.queuePart q) k = .ok k1) ∧ (k1.check s (s.queuePart q) clean = none) ∧ (m < 3) ∧ (∀ e, e < m → k1.size e ≤ 1) ∧ (1 < k1.size m) ∧ (s.fab.early = []) ∧ (s.coll? ⟨q, x.id⟩ = none) := by
  intro r hr
  have h : ∃ i : Fin 8, r.1 = i.val := by
    simp only [List.mem_cons, List.not_mem_nil, or_false] at hr
    rcases hr with rfl | rfl | rfl | rfl | rfl | rfl | rfl | rfl
    · exact ⟨0, rfl⟩
    · exact ⟨1, rfl⟩
    · exact ⟨2, rfl⟩
    · exact ⟨3, rfl⟩
    · exact ⟨4, rfl⟩
    · exact ⟨5, rfl⟩
    · exact ⟨6, rfl⟩
    · exact ⟨7, rfl⟩
  obtain ⟨i, h⟩ := h
  rw [h]
  exact opens_each i

/-- An all-reduce over a ring of three modules that runs on queue 0, this member rank 0. -/
def coll3 : Coll :=
  { cmd := ⟨0, 1⟩, cseq := 0, desc := collDesc 0, comm := commBytes 3, src := tensorAt2000, dst := tensorAt2000
    members := [(0, 1), (1, 1), (2, 1)], tiles := [3], signature := 77 }
@[irreducible] def collRun (k : Coll) : State :=
  { collMem 0 3 (live [{ collCmd with stage := .begun }]) with
    colls := [k], fab := { rx := [⟨2, 2, 0, []⟩, ⟨1, 2, 0, []⟩], plan := some ⟨3, 1, 1, 0xF⟩ } }

def runC : Coll := { coll3 with stage := .running }
def closeC : Coll := { coll3 with stage := .closing }
def dampC : Coll := { runC with proposal := some 1, dampMax := 1, holders := [2] }
def endC : Coll := { runC with phase := 2 }

/-- A packet of that collective from rank 2, with its kind and contents, or data. -/
def collPkt (type : BitVec 5) (addr : BitVec 46) (body : Bytes) (src : BitVec 14 := 2) : Packet :=
  sealPacket { dst := 0, src := src, vc := 2, type := type, len := 0, ttl := 64, seq := 0, tag := 0, tries := 0, srcPart := 1, addr := addr, ctr := 0
               ctrValid := false, cls := false, crc := 0, data := natLe 9 4 ++ natLe 0 4 ++ List.replicate 8 0 ++ body }
@[irreducible] def heard (k : Coll) (p : Packet) : State := ((collRun k).receive p).1.ackPacket p

theorem heard_takes {k : Coll} {p : Packet} {kind : Byte}
    (h : p.type = ptCollCtl ∧ p.vc = 2 ∧ ctlKind p = kind ∧ (collRun k).collFor p = some k ∧ (collRun k).coll? k.cmd = some k)
    (r : ((collRun k).receive p).2 = true) : (collRun k).takesControl p kind k (heard k p) :=
  ⟨h.1, h.2.1, h.2.2.1, h.2.2.2.1, h.2.2.2.2, _, Prod.ext rfl r, by unfold heard; rfl⟩

theorem data_heard {k : Coll} {p : Packet} {n r : Nat} (h : p.type = ptCollData ∧ p.vc = 2) (t : ((collRun k).receive p).2 = true)
    (c : (collRun k).collFor p = some k ∧ (collRun k).coll? k.cmd = some k ∧ k.passOf p = some n ∧ k.senderOf p = some r
      ∧ k.abort = none ∧ k.stage = .running) :
    ∃ (s : State) (a : State) (b : State) (p : Packet) (k : Coll) (n : Nat) (r : Nat), (p.type = ptCollData) ∧ (p.vc = 2) ∧ (s.receive p = (b, true)) ∧ (a = b.ackPacket p) ∧ (s.collFor p = some k) ∧ (s.coll? k.cmd = some k) ∧ (k.passOf p = some n) ∧ (k.senderOf p = some r) ∧ (k.abort = none) ∧ (k.stage = .running) :=
  ⟨collRun k, heard k p, ((collRun k).receive p).1, p, k, n, r, h.1, h.2, Prod.ext rfl t, by unfold heard; rfl, c.1, c.2.1, c.2.2.1,
    c.2.2.2.1, c.2.2.2.2.1, c.2.2.2.2.2⟩

theorem ends_written {s : State} {k : Coll} {q : QueueId} {seq : BitVec 32} {f : BitVec 16} {ce : Byte}
    (h : s.collOf q seq = some k ∧ k.stage = .running ∧ s.collActive k = true ∧ k.passes.length ≤ k.phase)
    (w : isOk (s.writeOutput k).2 = true ∧ got (f, ce) (s.writeOutput k).2 = (f, ce)
      ∧ (((s.writeOutput k).1.updCmd k.cmd fun y => { y with ranges := k.outRanges }).releaseRanges k.part k.outRanges).2 = none
      ∧ (((s.writeOutput k).1.updCmd k.cmd fun y => { y with ranges := k.outRanges }).releaseRanges k.part k.outRanges).1.coll? k.cmd = some k)
    (e : k.closeDim = 0 ∧ 1 + seenIn k.closed 0 < k.size 0) :
    ∃ (s : State) (s1 : State) (s2 : State) (q : QueueId) (seq : BitVec 32) (k : Coll) (f : BitVec 16) (ce : Byte) (m : Nat), (s.collOf q seq = some k) ∧ (k.stage = .running) ∧ (s.collActive k = true) ∧ (k.passes.length ≤ k.phase) ∧ (s.writeOutput k = (s1, .ok (f, ce))) ∧ ((s1.updCmd k.cmd fun y => { y with ranges := k.outRanges }).releaseRanges k.part k.outRanges = (s2, none)) ∧ (s2.coll? k.cmd = some k) ∧ (k.closeDim = 0) ∧ (m < 3) ∧ ((∀ e, e < m → k.size e ≤ 1)) ∧ (1 + seenIn k.closed m < k.size m) :=
  ⟨s, (s.writeOutput k).1, (((s.writeOutput k).1.updCmd k.cmd fun y => { y with ranges := k.outRanges }).releaseRanges k.part k.outRanges).1,
    q, seq, k, f, ce, 0, h.1, h.2.1, h.2.2.1, h.2.2.2, Prod.ext rfl (ok_is w.1 w.2.1), Prod.ext rfl w.2.2.1, w.2.2.2, e.1, by decide,
    (fun _ h => absurd h (Nat.not_lt_zero _)), e.2⟩

theorem heard_data {k : Coll} {p : Packet} (r : ((collRun k).receive p).2 = true) :
    (collRun k).receive p = (((collRun k).receive p).1, true) := Prod.ext rfl r

theorem witness_CollectivePacketsAct_1 :
    ∃ (s : State) (a : State) (p : Packet) (k : Coll), (s.takesControl p ckOpening k a) ∧ (k.abort = none) ∧ (k.stage = .opening) ∧ (BitVec.ofNat 64 (ctlAt p 32 8) = k.signature) ∧ (k.opened.contains (ctlDim p, BitVec.ofNat 14 (ctlAt p 49 2)) = false) ∧ (k.openDim < 3) ∧ (1 + (seenIn k.opened k.openDim + 1) < k.size k.openDim) := ⟨collRun coll3, heard coll3 (collPkt ptCollCtl 0 (ckOpening :: (List.replicate 32 0 ++ natLe 77 8 ++ [5] ++ natLe 9 8 ++ natLe 2 2))), collPkt ptCollCtl 0 (ckOpening :: (List.replicate 32 0 ++ natLe 77 8 ++ [5] ++ natLe 9 8 ++ natLe 2 2)), coll3, heard_takes (by decide +kernel) (by decide +kernel), by decide +kernel, by decide +kernel, by decide +kernel, by decide +kernel, by decide +kernel, by decide +kernel⟩

theorem witness_CollectivePacketsAct_2 :
    ∃ (s : State) (a : State) (p : Packet) (k : Coll) (r : Nat), (s.takesControl p ckOpening k a) ∧ (k.abort = none) ∧ (k.forwarded = none) ∧ (BitVec.ofNat 64 (ctlAt p 32 8) ≠ k.signature) ∧ (k.senderOf p = some r) := ⟨collRun coll3, heard coll3 (collPkt ptCollCtl 0 (ckOpening :: (List.replicate 32 0 ++ natLe 78 8 ++ [5] ++ natLe 9 8 ++ natLe 2 2))), collPkt ptCollCtl 0 (ckOpening :: (List.replicate 32 0 ++ natLe 78 8 ++ [5] ++ natLe 9 8 ++ natLe 2 2)), coll3, 2, heard_takes (by decide +kernel) (by decide +kernel), by decide +kernel, by decide +kernel, by decide +kernel, by decide +kernel⟩

theorem witness_CollectivePacketsAct_3 :
    ∃ (s : State) (a : State) (p : Packet) (k : Coll), (s.takesControl p ckClosing k a) ∧ (k.abort = none) ∧ (k.stage = .closing) ∧ (k.closed.contains (ctlDim p, BitVec.ofNat 14 (ctlAt p 3 2)) = false) ∧ (k.closeDim < 3) ∧ (1 + (seenIn k.closed k.closeDim + 1) < k.size k.closeDim) := ⟨collRun (closeC), heard (closeC) (collPkt ptCollCtl 0 (ckClosing :: (natLe 4 2 ++ [6] ++ natLe 2 2))), collPkt ptCollCtl 0 (ckClosing :: (natLe 4 2 ++ [6] ++ natLe 2 2)), (closeC), heard_takes (by decide +kernel) (by decide +kernel), by decide +kernel, by decide +kernel, by decide +kernel, by decide +kernel, by decide +kernel⟩

theorem witness_CollectivePacketsAct_4 :
    ∃ (s : State) (a : State) (p : Packet) (k : Coll) (n : Nat) (r : Nat), (s.takesControl p ckCredit k a) ∧ (k.abort = none) ∧ (k.passOf p = some n) ∧ (k.senderOf p = some r) := ⟨collRun (runC), heard (runC) (collPkt ptCollCtl 0 (ckCredit :: (natLe 0 1 ++ natLe 0 1 ++ natLe 3 2)) 1), collPkt ptCollCtl 0 (ckCredit :: (natLe 0 1 ++ natLe 0 1 ++ natLe 3 2)) 1, (runC), 0, 1, heard_takes (by decide +kernel) (by decide +kernel), by decide +kernel, by decide +kernel, by decide +kernel⟩
@[irreducible] def abortP : Packet := collPkt ptCollCtl 0 (ckAbort :: ({ coll3.report (live []) 2 0 none with detRank := 2 }).bytes)

theorem witness_CollectivePacketsAct_5 :
    ∃ (s : State) (a : State) (p : Packet) (k : Coll), (s.takesControl p ckAbort k a) := ⟨collRun coll3, heard coll3 abortP, abortP, coll3, heard_takes (by decide +kernel) (by decide +kernel)⟩

theorem witness_CollectivePacketsAct_6 :
    ∃ (s : State) (a : State) (p : Packet) (k : Coll), (s.takesControl p ckDamp k a) ∧ (k.abort = none) ∧ (ctlAt p 0 8 = dampNote) := ⟨collRun (runC), heard (runC) (collPkt ptCollCtl 0 (ckDamp :: dampBody dampNote 2)), collPkt ptCollCtl 0 (ckDamp :: dampBody dampNote 2), (runC), heard_takes (by decide +kernel) (by decide +kernel), by decide +kernel, by decide +kernel⟩

theorem witness_CollectivePacketsAct_7 :
    ∃ (s : State) (a : State) (p : Packet) (k : Coll), (s.takesControl p ckDamp k a) ∧ (k.abort = none) ∧ (ctlAt p 0 8 ≠ dampNote) ∧ (k.proposal.isSome = true) ∧ (k.holders.contains (BitVec.ofNat 14 (ctlAt p 8 2)) = true) ∧ (k.dampDim < 3) ∧ (ctlDim p = k.dampDim) ∧ (mapGet 0 k.dampSeen k.dampDim + 2 < k.size k.dampDim) := ⟨collRun (dampC), heard (dampC) (collPkt ptCollCtl 0 (ckDamp :: dampBody 4 2)), collPkt ptCollCtl 0 (ckDamp :: dampBody 4 2), (dampC), heard_takes (by decide +kernel) (by decide +kernel), by decide +kernel, by decide +kernel, by decide +kernel, by decide +kernel, by decide +kernel, by decide +kernel, by decide +kernel⟩

theorem witness_CollectivePacketsAct_8 :
    ∃ (s : State) (a : State) (p : Packet) (k : Coll), (s.takesControl p ckUndamp k a) ∧ (k.abort = none) := ⟨collRun (dampC), heard (dampC) (collPkt ptCollCtl 0 (ckUndamp :: natLe 2 2)), collPkt ptCollCtl 0 (ckUndamp :: natLe 2 2), (dampC), heard_takes (by decide +kernel) (by decide +kernel), by decide +kernel⟩
def dataP : Packet := collPkt ptCollData (collAddr 0 0 false 0) (zeros 4)

theorem witness_CollectivePacketsAct_9 :
    ∃ (s : State) (a : State) (b : State) (p : Packet) (k : Coll) (n : Nat) (r : Nat), (p.type = ptCollData) ∧ (p.vc = 2) ∧ (s.receive p = (b, true)) ∧ (a = b.ackPacket p) ∧ (s.collFor p = some k) ∧ (s.coll? k.cmd = some k) ∧ (k.passOf p = some n) ∧ (k.senderOf p = some r) ∧ (k.abort = none) ∧ (k.stage = .running) := data_heard (k := runC) (p := dataP) (n := 0) (r := 2) (by decide +kernel) (by decide +kernel) (by decide +kernel)

theorem witness_CollectivesAdvanceAndEnd_1 :
    ∃ (s : State) (q : QueueId) (seq : BitVec 32) (i : StrandId) (k : Coll) (c : Chunk), (s.collOf q seq = some k) ∧ (k.stage = .running) ∧ (s.collActive k = true) ∧ (k.nextChunk i.val = some c) :=
  ⟨collRun { coll3 with stage := .running, credits := [(streamKey 0 11 1, 1)] }, 0, 0, 11, { coll3 with stage := .running, credits := [(streamKey 0 11 1, 1)] }, (({ coll3 with stage := .running, credits := [(streamKey 0 11 1, 1)] } : Coll).nextChunk 11).getD ⟨0, 0, 0, 0, 0, false⟩, (by decide +kernel), (by decide +kernel), (by decide +kernel), (by decide +kernel)⟩

theorem witness_CollectivesAdvanceAndEnd_2 :
    ∃ (s : State) (s1 : State) (s2 : State) (q : QueueId) (seq : BitVec 32) (k : Coll) (f : BitVec 16) (ce : Byte) (m : Nat), (s.collOf q seq = some k) ∧ (k.stage = .running) ∧ (s.collActive k = true) ∧ (k.passes.length ≤ k.phase) ∧ (s.writeOutput k = (s1, .ok (f, ce))) ∧ (s1.updCmd k.cmd fun y => { y with ranges := k.outRanges }).releaseRanges k.part k.outRanges = (s2, none) ∧ (s2.coll? k.cmd = some k) ∧ (k.closeDim = 0) ∧ (m < 3) ∧ (∀ e, e < m → k.size e ≤ 1) ∧ (1 + seenIn k.closed m < k.size m) := ends_written (s := collRun endC) (k := endC) (q := 0) (seq := 0) (f := 0) (ce := 0) (by decide +kernel) (by decide +kernel) (by decide +kernel)

theorem witness_CollectivesAdvanceAndEnd_3 :
    ∃ (s : State) (q : QueueId) (seq : BitVec 32) (x : Cmd) (k : Coll) (r : AbortReport), (s.soleColl q seq x k) ∧ (k.abort = some r) ∧ (k.abortAt + 1000000 ≤ s.time) ∧ ((s.queue q).state ≠ qPreempted) ∧ ((s.queue q).state ≠ qDestroying) ∧ (k.dstTensor = none) ∧ (x.holds = []) :=
  ⟨{ collRun ({ noColl with desc := collDesc 7, comm := commBytes 3, members := [(0, 1), (1, 1), (2, 1)], abort := some (coll3.report State.reset 2 0 none) }) with time := 1000000 }, 0, 0, { collCmd with stage := .begun }, { noColl with desc := collDesc 7, comm := commBytes 3, members := [(0, 1), (1, 1), (2, 1)], abort := some (coll3.report State.reset 2 0 none) }, coll3.report State.reset 2 0 none, (by decide +kernel), (by decide +kernel), (by decide +kernel), (by decide +kernel), (by decide +kernel), (by decide +kernel), (by decide +kernel)⟩

theorem witness_CollectivesAdvanceAndEnd_4 :
    ∃ (s : State) (q : QueueId) (seq : BitVec 32) (k : Coll), (s.collOf q seq = some k) ∧ (s.collTimed k = true) ∧ (k.c 147 128 * 1000000 ≤ k.elapsed) ∧ (k.abort = none) ∧ (k.forwarded = none) :=
  ⟨collRun ({ coll3 with stage := .running, elapsed := 1000000000 }), 0, 0, { coll3 with stage := .running, elapsed := 1000000000 }, (by decide +kernel), (by decide +kernel), (by decide +kernel), (by decide +kernel), (by decide +kernel)⟩

theorem witness_CollectivesAdvanceAndEnd_5 :
    ∃ (s : State) (q : QueueId) (seq : BitVec 32) (x : Cmd) (k : Coll) (b : Nat), (s.findSeq q seq .begun = some x) ∧ (s.cmd? ⟨q, x.id⟩ = some x) ∧ (s.coll? ⟨q, x.id⟩ = some k) ∧ (k.agreed = some b) ∧ (k.paused = false) ∧ (k.abort = none) ∧ (k.atBoundary b = true) :=
  ⟨collRun ({ coll3 with stage := .running, agreed := some 0 }), 0, 0, { collCmd with stage := .begun }, { coll3 with stage := .running, agreed := some 0 }, 0, (by decide +kernel), (by decide +kernel), (by decide +kernel), (by decide +kernel), (by decide +kernel), (by decide +kernel), (by decide +kernel)⟩

theorem witness_CollectivesAdvanceAndEnd_6 :
    ∃ (s : State) (q : QueueId) (seq : BitVec 32) (x : Cmd) (k : Coll), (s.findSeq q seq .begun = some x) ∧ (s.cmd? ⟨q, x.id⟩ = some x) ∧ (s.coll? ⟨q, x.id⟩ = some k) ∧ (k.paused = true) ∧ (k.abort = none) ∧ (k.holders = []) ∧ ((s.queue q).state = qRunning) ∧ ((s.queue q).preempting = false) ∧ (k.op ≠ 7) ∧ (k.tiles.all s.tileReady = true) ∧ (s.outranked q k.tiles = false) :=
  ⟨collRun ({ coll3 with stage := .running, agreed := some 0, paused := true }), 0, 0, { collCmd with stage := .begun }, { coll3 with stage := .running, agreed := some 0, paused := true }, (by decide +kernel), (by decide +kernel), (by decide +kernel), (by decide +kernel), (by decide +kernel), (by decide +kernel), (by decide +kernel), (by decide +kernel), (by decide +kernel), (by decide +kernel), (by decide +kernel)⟩

theorem witness_CollectivesAdvanceAndEnd_7 :
    ∃ (s : State) (q : QueueId) (seq : BitVec 32) (x : Cmd) (k : Coll) (d : DieId), (s.soleColl q seq x k) ∧ (k.op = 7) ∧ (k.stage = .barrier) ∧ (k.abort = none) ∧ (k.signalled = false) ∧ (k.release.toNat ≤ s.stamp.toNat) ∧ (k.bdies = [d]) ∧ ((s.sem (BitVec.ofNat 14 (d.val * 1024 + k.d 681 672))).toNat + k.d 735 704 < 2 ^ 32) ∧ (s.noneWaits (BitVec.ofNat 14 (d.val * 1024 + k.d 681 672))) ∧ ((s.queue q).state ≠ qPreempted) ∧ (k.d 511 448 = 0) ∧ (k.clFlags = 0) ∧ (x.holds = []) :=
  ⟨collRun ({ noColl with desc := collDesc 7, comm := commBytes 3, members := [(0, 1), (1, 1), (2, 1)], stage := .barrier }), 0, 0, { collCmd with stage := .begun }, { noColl with desc := collDesc 7, comm := commBytes 3, members := [(0, 1), (1, 1), (2, 1)], stage := .barrier }, 0, (by decide +kernel), (by decide +kernel), (by decide +kernel), (by decide +kernel), (by decide +kernel), (by decide +kernel), (by decide +kernel), (by decide +kernel), (by decide +kernel), (by decide +kernel), (by decide +kernel), (by decide +kernel), (by decide +kernel)⟩

/-- A lock-step record, and partition 1 paired with one of its own waiting. -/
def hash0 (h : BitVec 64) : HashRec := ⟨0, 4, 0, 0, false, h, 1⟩
def pairedWith (l : List HashRec) : State := { State.reset.setPart 1 { exists_ := true, lsState := 2, local_ := l } with time := 100000000 }

theorem witness_LockStepRecordsMeet_1 :
    ∃ (s : State) (p : PartId), (s.partPaired p = true) ∧ ((s.part p).local_ = []) :=
  ⟨pairedWith [], 1, (by decide +kernel), (by decide +kernel)⟩

theorem witness_LockStepRecordsMeet_2 :
    ∃ (s : State) (p : PartId) (r : HashRec) (a : HashRec), (s.partPaired p = true) ∧ ((s.part p).local_ = [a]) ∧ (a.queue = r.queue) ∧ (a.seq = r.seq) ∧ ((s.part p).peer_ = []) ∧ (recordsAgree ((s.part p).lsState = 3) a r = true) :=
  ⟨pairedWith [hash0 5], 1, hash0 5, hash0 5, (by decide +kernel), (by decide +kernel), (by decide +kernel), (by decide +kernel), (by decide +kernel), (by decide +kernel)⟩

theorem witness_LockStepRecordsMeet_3 :
    ∃ (s : State) (p : PartId) (r : HashRec) (a : HashRec), (s.partPaired p = true) ∧ ((s.part p).local_ = [a]) ∧ (a.queue = r.queue) ∧ (a.seq = r.seq) ∧ ((s.part p).peer_ = []) ∧ (recordsAgree ((s.part p).lsState = 3) a r = false) ∧ ((s.part p).diverged = false) :=
  ⟨pairedWith [hash0 5], 1, hash0 6, hash0 5, (by decide +kernel), (by decide +kernel), (by decide +kernel), (by decide +kernel), (by decide +kernel), (by decide +kernel), (by decide +kernel)⟩

theorem witness_LockStepRecordsMeet_4 :
    ∃ (s : State) (p : PartId), (s.partPaired p = true) ∧ ((s.part p).local_ ≠ []) ∧ ((s.part p).lastPeer + 100000000 ≤ s.time) :=
  ⟨pairedWith [hash0 5], 1, (by decide +kernel), (by decide +kernel), (by decide +kernel)⟩

/-- A message to the physical function's mailbox, and one that firmware executes. -/
def ask (n : Nat) (b : Bytes) : Msg := ⟨0, false, 0, BitVec.ofNat 16 n, 7, 1, 0, 0, b⟩
def asks (fs : List (Nat × Nat)) (n : Nat) : Msg := ask n (natLe (packBits fs) n)

theorem serves_of {s : State} {m : Msg} {op : Nat} {vf os : Bool} {len : Nat → Bool} {rsv : List (Nat × Nat)}
    (h : m.fn = 0 ∧ s.mailFree m ∧ s.seqFits m ∧ ((s.boot.state = 2 → os = true) ∧ (op = 0x0A03 ∨ op = 0x0A04 → s.boot.debug = true)
      ∧ (op / 256 = 0x0F → s.boot.presenceOpen = true ∨ s.pow.maintJmpN = false)) ∧ len m.length.toNat = true ∧ msgExtra m = false
      ∧ ∀ r ∈ rsv, bits (leNat (mailBody m)) r.1 r.2 = 0) : s.serves m op vf os len rsv := by
  obtain ⟨f, a, b, ⟨c, d, e⟩, g⟩ := h
  refine ⟨a, b, ⟨c, d, ?_⟩, g⟩
  rw [f]
  exact e

theorem may0 {s : State} {q : QueueId} : s.mayName 0 q := fun _ h => by cases h

/-- A message of a row of R292 and of its length. -/
def askRow (r : MailRow) : Msg :=
  let n := (([0, 8, 16, 17, 32, 128, 2048].find? fun n => r.2.2.2.2.2.1 n)).getD 0
  ((upTo 16).map fun k => ask n [BitVec.ofNat 8 k]).find? r.2.2.2.2.2.2 |>.getD (ask n [])
def withFn (f : Fn → Fn) : State := serving.setFn 0 (f (serving.fn 0))

theorem witness_MailboxChecksMessagesInOrder_1 :
    ∀ r ∈ mailCatalogue, ∃ (i : Msg → Instr) (op : Nat) (bound : Nat) (vf : Bool) (os : Bool) (len : Nat → Bool) (mine : Msg → Bool) (m : Msg), (r = (i, op, vf, os, bound, len, mine)) ∧ (mine m = true) := by
  have h : ∀ r ∈ mailCatalogue, r.2.2.2.2.2.2 (askRow r) = true := by decide +kernel
  intro r hr
  exact ⟨r.1, r.2.1, r.2.2.2.2.1, r.2.2.1, r.2.2.2.1, r.2.2.2.2.2.1, r.2.2.2.2.2.2, askRow r, rfl, h r hr⟩

/-- Each check of the mailbox is met, by a message of each row. -/
theorem witness_MailboxChecksMessagesInOrder_checks : ∀ r ∈ mailCatalogue,
    (∃ s : State, s.bar0Open = true ∧ (s.fn (askRow r).fn).busy = true) ∧
    (∃ s : State, s.mailFree (askRow r) ∧ ¬ s.seqFits (askRow r) ∧ (askRow r).seq = (s.fn (askRow r).fn).nextSeq - 1) ∧
    (∃ s : State, s.mailFree (askRow r) ∧ ¬ s.seqFits (askRow r) ∧ (askRow r).seq ≠ (s.fn (askRow r).fn).nextSeq - 1) ∧
    (∃ s : State, s.mailFree (askRow r) ∧ s.seqFits (askRow r) ∧ (askRow r).fn = 0 ∧ (askRow r).resp = false) ∧
    (r.2.2.2.2.2.1 (askRow r).length.toNat = true) :=
  fun r hr => ⟨⟨withFn fun x => { x with busy := true }, (by decide +kernel : ∀ r ∈ mailCatalogue, (withFn fun x => { x with busy := true }).bar0Open = true
      ∧ ((withFn fun x => { x with busy := true }).fn (askRow r).fn).busy = true) r hr⟩,
    ⟨withFn fun x => { x with seqAny := false, nextSeq := 2 }, (by decide +kernel : ∀ r ∈ mailCatalogue,
      (withFn fun x => { x with seqAny := false, nextSeq := 2 }).mailFree (askRow r) ∧ ¬ (withFn fun x => { x with seqAny := false, nextSeq := 2 }).seqFits (askRow r)
      ∧ (askRow r).seq = ((withFn fun x => { x with seqAny := false, nextSeq := 2 }).fn (askRow r).fn).nextSeq - 1) r hr⟩,
    ⟨withFn fun x => { x with seqAny := false, nextSeq := 5 }, (by decide +kernel : ∀ r ∈ mailCatalogue,
      (withFn fun x => { x with seqAny := false, nextSeq := 5 }).mailFree (askRow r) ∧ ¬ (withFn fun x => { x with seqAny := false, nextSeq := 5 }).seqFits (askRow r)
      ∧ (askRow r).seq ≠ ((withFn fun x => { x with seqAny := false, nextSeq := 5 }).fn (askRow r).fn).nextSeq - 1) r hr⟩,
    ⟨serving, (by decide +kernel : ∀ r ∈ mailCatalogue, serving.mailFree (askRow r) ∧ serving.seqFits (askRow r) ∧ (askRow r).fn = 0
      ∧ (askRow r).resp = false) r hr⟩,
    (by decide +kernel : ∀ r ∈ mailCatalogue, r.2.2.2.2.2.1 (askRow r).length.toNat = true) r hr⟩

theorem witness_MessagesReadRecords_1 :
    ∃ (s : State) (m : Msg), (s.serves m 0x0100 true true (· = 0) []) :=
  ⟨serving, ask 0 [], (serves_of (by decide +kernel))⟩

theorem witness_MessagesReadRecords_2 :
    ∃ (s : State) (m : Msg), (s.serves m 0x0101 false true (· = 0) []) :=
  ⟨serving, ask 0 [], (serves_of (by decide +kernel))⟩

theorem witness_MessagesReadRecords_3 :
    ∃ (s : State) (m : Msg) (p : PartId), (s.serves m 0x0304 true false (· = 8) [(63, 3)]) ∧ (bits (leNat (mailBody m)) 2 0 = p.val) ∧ (∀ r, partOfFn m.fn = some r → r = p) :=
  ⟨live [], asks [(3, 1)] 8, 1, (serves_of (by decide +kernel)), (by decide +kernel), (by decide +kernel)⟩

theorem witness_MessagesReadRecords_4 :
    ∃ (s : State) (m : Msg) (k : StackId), (s.serves m 0x0402 true false (· = 8) [(63, 5)]) ∧ (bits (leNat (mailBody m)) 4 0 = k.val) ∧ (∀ r, partOfFn m.fn = some r → s.stackPart k = some r) :=
  ⟨serving, asks [(5, 23)] 8, 23, (serves_of (by decide +kernel)), (by decide +kernel), (by decide +kernel)⟩

theorem witness_MessagesReadRecords_5 :
    ∃ (s : State) (m : Msg), (s.serves m 0x0403 true false (· = 0) []) :=
  ⟨serving, ask 0 [], (serves_of (by decide +kernel))⟩

theorem witness_MessagesReadRecords_6 :
    ∃ (s : State) (m : Msg), (s.serves m 0x0502 false false (· = 0) []) :=
  ⟨serving, ask 0 [], (serves_of (by decide +kernel))⟩

theorem witness_MessagesReadRecords_7 :
    ∃ (s : State) (m : Msg), (s.serves m 0x0601 false false (· = 0) []) :=
  ⟨serving, ask 0 [], (serves_of (by decide +kernel))⟩

theorem witness_MessagesReadRecords_8 :
    ∃ (s : State) (m : Msg), (s.serves m 0x0902 false false (· = 0) []) :=
  ⟨serving, ask 0 [], (serves_of (by decide +kernel))⟩

theorem witness_MessagesReadRecords_9 :
    ∃ (s : State) (m : Msg), (s.serves m 0x0A01 false true (· = 0) []) :=
  ⟨serving, ask 0 [], (serves_of (by decide +kernel))⟩

theorem witness_MessagesReadRecords_10 :
    ∃ (s : State) (m : Msg), (s.serves m 0x0701 false true (· = 0) []) :=
  ⟨serving, ask 0 [], (serves_of (by decide +kernel))⟩

theorem witness_MessagesReadRecords_11 :
    ∃ (s : State) (m : Msg) (cls : Nat) (unit : Nat) (lane : Nat), (s.serves m 0x0802 false false (· = 8) [(63, 20)]) ∧ (hasFields (leNat (mailBody m)) [(7, 0, cls), (15, 8, unit), (19, 16, lane)]) ∧ ((cls = 1 ∧ unit < 20 ∧ lane = 0) ∨ (cls = 2 ∧ unit < 24 ∧ lane = 0) ∨ (cls = 3 ∧ unit < 36 ∧ lane < 9)) :=
  ⟨serving, asks [(8, 3), (8, 35), (4, 8)] 8, 3, 35, 8, (serves_of (by decide +kernel)), (by decide +kernel), (by decide +kernel)⟩

theorem witness_MessagesReadCountersAndMemories_1 :
    ∃ (s : State) (m : Msg) (src : Nat) (set : Nat) (first : Nat) (n : Nat) (k : Nat) (e : Nat), (s.serves m 0x0800 true false (· = 8) [(31, 19), (63, 48)]) ∧ (hasFields (leNat (mailBody m)) [(15, 0, src), (17, 16, set), (39, 32, first), (47, 40, n)]) ∧ (∀ p, partOfFn m.fn = some p → s.sourcePart src = some p) ∧ (counterSets src = some (k, e)) ∧ (1 ≤ n) ∧ (n ≤ 64) ∧ (set = 0 ∧ first + n ≤ k ∨ set = 1 ∧ first + n ≤ e) :=
  ⟨serving, asks [(16, 0x1003), (16, 1), (8, 0), (8, 4)] 8, 0x1003, 1, 0, 4, 11, 4, (serves_of (by decide +kernel)), (by decide +kernel), (by decide +kernel), (by decide +kernel), (by decide +kernel), (by decide +kernel), (by decide +kernel)⟩

theorem witness_MessagesReadCountersAndMemories_2 :
    ∃ (s : State) (m : Msg) (src : Nat) (e : Nat), (s.serves m 0x0800 true false (· = 8) [(31, 19), (63, 48)]) ∧ (hasFields (leNat (mailBody m)) [(15, 0, src), (17, 16, 2), (39, 32, 0), (47, 40, 1)]) ∧ (∀ p, partOfFn m.fn = some p → s.sourcePart src = some p) ∧ (s.sourceEnergy src = some e) :=
  ⟨serving, asks [(16, 0x6000), (16, 2), (8, 0), (8, 1)] 8, 0x6000, 0, (serves_of (by decide +kernel)), (by decide +kernel), (by decide +kernel), (by decide +kernel)⟩
def snap1 : Snapshot := ⟨1, zeros 8, zeros 8, true, true⟩
def unlocked : State := { serving with boot := { serving.boot with debug := true } }

theorem witness_MessagesReadCountersAndMemories_3 :
    ∃ (s : State) (m : Msg) (no : Nat) (off : Nat) (n : Nat) (x : Snapshot), (s.serves m 0x0A00 false false (· = 16) [(127, 76)]) ∧ (hasFields (leNat (mailBody m)) [(31, 0, no), (63, 32, off), (75, 64, n)]) ∧ (1 ≤ n) ∧ (n ≤ 4064) ∧ ((if no = 0xFFFFFFFF then s.flt.snapshots.getLast? else s.flt.snapshots.find? fun y => y.number.toNat = no) = some x) ∧ (off < x.header.length + x.body.length) :=
  ⟨{ serving with flt := { snapshots := [snap1] } }, asks [(32, 0xFFFFFFFF), (32, 15), (12, 4064)] 16, 0xFFFFFFFF, 15, 4064, snap1, (serves_of (by decide +kernel)), (by decide +kernel), (by decide +kernel), (by decide +kernel), (by decide +kernel), (by decide +kernel)⟩

theorem witness_MessagesReadCountersAndMemories_4 :
    ∃ (s : State) (m : Msg) (off : Nat) (n : Nat), (s.serves m 0x0A03 false false (· = 8) [(63, 44)]) ∧ (hasFields (leNat (mailBody m)) [(31, 0, off), (43, 32, n)]) ∧ (1 ≤ n) ∧ (n ≤ 4064) ∧ (off < 2 ^ 20) :=
  ⟨unlocked, asks [(32, 1048575), (12, 4064)] 8, 1048575, 4064, (serves_of (by decide +kernel)), (by decide +kernel), (by decide +kernel), (by decide +kernel), (by decide +kernel)⟩

theorem witness_MessagesReadCountersAndMemories_5 :
    ∃ (s : State) (m : Msg) (hub : Nat) (a : Nat) (n : Nat), (s.serves m 0x0A04 false false (· = 16) [(63, 1), (127, 108)]) ∧ (hasFields (leNat (mailBody m)) [(0, 0, hub), (95, 64, a), (107, 96, n)]) ∧ (1 ≤ n) ∧ (n ≤ 4064) ∧ (a + n ≤ 2 ^ 26) :=
  ⟨unlocked, asks [(64, 1), (32, 67108863), (12, 1)] 16, 1, 67108863, 1, (serves_of (by decide +kernel)), (by decide +kernel), (by decide +kernel), (by decide +kernel), (by decide +kernel)⟩
def createBody : List (Nat × Nat) := [(12, 9), (3, 1), (1, 0), (3, 7), (13, 0), (16, 60000), (16, 0), (64, 0x2000000000000000), (5, 6), (5, 6), (6, 0), (11, 0), (5, 0),
  (13, 16), (19, 0), (64, 0x2000000000010000)]
def created : QueueCfg := queueCfgOf (mailBody (asks createBody 128))
def restQ (x : Queue) : State := (paged serving).setQueue 9 x
def heldCmd : Cmd := { cmdOf 0 with stage := .released }

theorem witness_QueueMessagesMoveQueues_1 :
    ∃ (s : State) (m : Msg) (q : QueueId) (c : QueueCfg), (s.serves m 0x0200 true false (· = 128) [(31, 22), (143, 138), (159, 155), (191, 173), (583, 583), (1023, 591)]) ∧ (bits (leNat (mailBody m)) 11 0 = q.val) ∧ (queueCfgOf (mailBody m) = c) ∧ ((∀ p, partOfFn m.fn = some p → c.partition = p ∧ c.kernel = false)) ∧ (vectorOf m.fn c.msix = true) ∧ (c.persist = true → s.ownsTiles c.partition c.pFirst.toNat c.pTiles.toNat = true) ∧ (c.limitsOk = true) ∧ (s.standing c.partition = true) ∧ ((s.queue q).state = qDisabled) :=
  ⟨paged serving, asks createBody 128, 9, created, (serves_of (by decide +kernel)), (by decide +kernel), (by decide +kernel), (fun _ h => by cases h), (by decide +kernel), (by decide +kernel), (by decide +kernel), (by decide +kernel), (by decide +kernel)⟩

theorem witness_QueueMessagesMoveQueues_2 :
    ∃ (s : State) (m : Msg) (q : QueueId), (s.serves m 0x0203 true false (· = 8) [(63, 12)]) ∧ (bits (leNat (mailBody m)) 11 0 = q.val) ∧ (s.mayName m.fn q) ∧ ((s.queue q).state = qIdle ∨ (s.queue q).state = qRunning) ∧ ((s.queue q).cmds ≠ []) :=
  ⟨restQ { cfg := some cfg1, state := 2, cmds := [cmdOf 1] }, asks [(12, 9)] 8, 9, (serves_of (by decide +kernel)), (by decide +kernel), (may0), (by decide +kernel), (by decide +kernel)⟩

theorem witness_QueueMessagesMoveQueues_3 :
    ∃ (s : State) (m : Msg) (q : QueueId), (s.serves m 0x0203 true false (· = 8) [(63, 12)]) ∧ (bits (leNat (mailBody m)) 11 0 = q.val) ∧ (s.mayName m.fn q) ∧ ((s.queue q).state = qIdle ∨ (s.queue q).state = qRunning) ∧ ((s.queue q).cmds = []) ∧ ((s.queue q).held = []) ∧ (s.queueAlone q) :=
  ⟨restQ { cfg := some cfg1, state := 1 }, asks [(12, 9)] 8, 9, (serves_of (by decide +kernel)), (by decide +kernel), (may0), (by decide +kernel), (by decide +kernel), (by decide +kernel), (by decide +kernel)⟩

theorem witness_QueueMessagesMoveQueues_4 :
    ∃ (s : State) (m : Msg) (q : QueueId) (n : BitVec 32) (g : QueueCfg), (s.serves m 0x0202 true false (· = 16) [(63, 12), (127, 96)]) ∧ (bits (leNat (mailBody m)) 11 0 = q.val) ∧ (bits (leNat (mailBody m)) 95 64 = n.toNat) ∧ (s.mayName m.fn q) ∧ ((s.queue q).state = qHalted) ∧ ((n - (s.queue q).nextPub).toNat ≤ ((s.queue q).tail - (s.queue q).nextPub).toNat) ∧ ((s.queue q).cfg = some g) ∧ (g.persist = false) ∧ (n ≠ (s.queue q).tail ∨ (s.queue q).cmds ≠ []) :=
  ⟨restQ { cfg := some cfg1, state := qHalted, tail := 6, nextPub := 3, cmds := [cmdOf 1] }, asks [(64, 9), (32, 6)] 16, 9, 6, cfg1, (serves_of (by decide +kernel)), (by decide +kernel), (by decide +kernel), (may0), (by decide +kernel), (by decide +kernel), (by decide +kernel), (by decide +kernel), (by decide +kernel)⟩

theorem witness_QueueMessagesMoveQueues_5 :
    ∃ (s : State) (m : Msg) (q : QueueId) (g : QueueCfg), (s.serves m 0x0204 true false (· = 8) [(63, 12)]) ∧ (bits (leNat (mailBody m)) 11 0 = q.val) ∧ (s.mayName m.fn q) ∧ ((s.queue q).state = qStalled) ∧ ((s.queue q).cfg = some g) ∧ (g.persist = false) ∧ ((s.queue q).cmds ≠ []) ∧ ((s.queue q).held = []) :=
  ⟨restQ { cfg := some cfg1, state := qStalled, cmds := [cmdOf 1] }, asks [(12, 9)] 8, 9, cfg1, (serves_of (by decide +kernel)), (by decide +kernel), (may0), (by decide +kernel), (by decide +kernel), (by decide +kernel), (by decide +kernel), (by decide +kernel)⟩

theorem witness_QueueMessagesMoveQueues_6 :
    ∃ (s : State) (m : Msg) (q : QueueId) (g : QueueCfg) (d : Cmd), (s.serves m 0x0204 true false (· = 8) [(63, 12)]) ∧ (bits (leNat (mailBody m)) 11 0 = q.val) ∧ (s.mayName m.fn q) ∧ ((s.queue q).state = qStalled) ∧ ((s.queue q).cfg = some g) ∧ (g.persist = false) ∧ ((s.queue q).cmds ≠ []) ∧ ((s.queue q).held = [d]) ∧ (slotFree (s.queue q) g d.seq = true) ∧ (s.paired q = false) ∧ (g.cpl.toNat / 2 ^ 60 = 4) ∧ (s.atsOn = false) ∧ ((d.doneAt - d.begunAt).toNat < 100000) ∧ (bit (leNat d.record) 9 = false) :=
  ⟨{ restQ { cfg := some hostCfg, state := qStalled, cmds := [cmdOf 1], held := [heldCmd] } with atsOn := false }, asks [(12, 9)] 8, 9, hostCfg, heldCmd, (serves_of (by decide +kernel)), (by decide +kernel), (may0), (by decide +kernel), (by decide +kernel), (by decide +kernel), (by decide +kernel), (by decide +kernel), (by decide +kernel), (by decide +kernel), (by decide +kernel), (by decide +kernel), (by decide +kernel), (by decide +kernel)⟩

theorem witness_QueueMessagesMoveQueues_7 :
    ∃ (s : State) (m : Msg) (q : QueueId), (s.serves m 0x0201 true false (· = 8) [(63, 12)]) ∧ (bits (leNat (mailBody m)) 11 0 = q.val) ∧ (s.mayName m.fn q) ∧ ((s.queue q).state ≠ qDisabled) ∧ ((s.queue q).state ≠ qDestroying) ∧ ((s.queue q).cfg ≠ none) ∧ ((s.queue q).cmds = []) ∧ ((s.queue q).held = []) ∧ ((s.queue q).resumeTo = none) ∧ (s.queueAlone q) ∧ (s.jobs = []) :=
  ⟨restQ { cfg := some cfg1, state := qHalted }, asks [(12, 9)] 8, 9, (serves_of (by decide +kernel)), (by decide +kernel), (may0), (by decide +kernel), (by decide +kernel), (by decide +kernel), (by decide +kernel), (by decide +kernel), (by decide +kernel), (by decide +kernel), (by decide +kernel)⟩

theorem witness_QueueMessagesMoveQueues_8 :
    ∀ r ∈ ([(.destroyQueue, 0x0201, 8, 1700000, [(63, 12)], [1, 2, 3, 4, 5, 7]), (.resumeQueue, 0x0202, 16, 1000000, [(63, 12), (127, 96)], [4]), (.haltQueue, 0x0203, 8, 1000000, [(63, 12)], [1, 2]), (.resumeCompletionPath, 0x0204, 8, 1000000, [(63, 12)], [5])] : List ((Msg → Instr) × Nat × Nat × Nat × List (Nat × Nat) × List (BitVec 3))), ∃ (s : State) (m : Msg) (q : QueueId), (s.serves m r.2.1 true false (· = r.2.2.1) r.2.2.2.2.1) ∧ (bits (leNat (mailBody m)) 11 0 = q.val) ∧ (s.mayName m.fn q) ∧ ((s.queue q).state ∉ r.2.2.2.2.2) := by
  have h : ∀ r ∈ ([(.destroyQueue, 0x0201, 8, 1700000, [(63, 12)], [1, 2, 3, 4, 5, 7]), (.resumeQueue, 0x0202, 16, 1000000, [(63, 12), (127, 96)], [4]), (.haltQueue, 0x0203, 8, 1000000, [(63, 12)], [1, 2]), (.resumeCompletionPath, 0x0204, 8, 1000000, [(63, 12)], [5])] : List ((Msg → Instr) × Nat × Nat × Nat × List (Nat × Nat) × List (BitVec 3))),
      ((asks [(12, 9)] r.2.2.1).fn = 0 ∧ serving.mailFree (asks [(12, 9)] r.2.2.1) ∧ serving.seqFits (asks [(12, 9)] r.2.2.1)
      ∧ ((serving.boot.state = 2 → false = true) ∧ (r.2.1 = 0x0A03 ∨ r.2.1 = 0x0A04 → serving.boot.debug = true)
        ∧ (r.2.1 / 256 = 0x0F → serving.boot.presenceOpen = true ∨ serving.pow.maintJmpN = false))
      ∧ decide ((asks [(12, 9)] r.2.2.1).length.toNat = r.2.2.1) = true ∧ msgExtra (asks [(12, 9)] r.2.2.1) = false
      ∧ ∀ e ∈ r.2.2.2.2.1, bits (leNat (mailBody (asks [(12, 9)] r.2.2.1))) e.1 e.2 = 0)
      ∧ bits (leNat (mailBody (asks [(12, 9)] r.2.2.1))) 11 0 = (9 : QueueId).val ∧ (serving.queue 9).state ∉ r.2.2.2.2.2 := by decide +kernel
  intro r hr
  exact ⟨serving, asks [(12, 9)] r.2.2.1, 9, serves_of (h r hr).1, (h r hr).2.1, may0, (h r hr).2.2⟩

theorem witness_MessagesSetWhatTheyName_1 :
    ∃ (s : State) (m : Msg) (p : PartId), (s.serves m 0x0303 false false (· = 8) [(7, 3), (63, 9)]) ∧ (bits (leNat (mailBody m)) 2 0 = p.val) ∧ (s.standing p = true) :=
  ⟨paged serving, asks [(3, 1), (5, 0), (1, 1)] 8, 1, (serves_of (by decide +kernel)), (by decide +kernel), (by decide +kernel)⟩

theorem witness_MessagesSetWhatTheyName_2 :
    ∃ (s : State) (m : Msg) (p : PartId) (root : BitVec 42), (s.serves m 0x0400 true false (· = 16) [(63, 3), (127, 106)]) ∧ (hasFields (leNat (mailBody m)) [(2, 0, p.val), (105, 64, root.toNat)]) ∧ (∀ r, partOfFn m.fn = some r → r = p) ∧ (s.standing p = true) ∧ (root.toNat % 4096 = 0) ∧ (s.inExtent p root.toNat 4096 = true) :=
  ⟨paged serving, asks [(64, 1), (42, 0x3000)] 16, 1, 0x3000, (serves_of (by decide +kernel)), (by decide +kernel), (by decide +kernel), (by decide +kernel), (by decide +kernel), (by decide +kernel)⟩

theorem witness_MessagesSetWhatTheyName_3 :
    ∃ (s : State) (m : Msg) (p : PartId) (h : BitVec 7), (s.serves m 0x0401 false false (· = 8) [(7, 3), (63, 16)]) ∧ (hasFields (leNat (mailBody m)) [(2, 0, p.val), (15, 8, h.toNat)]) ∧ (s.standing p = true) ∧ (1 ≤ h.toNat) ∧ (h.toNat ≤ 72) :=
  ⟨paged serving, asks [(8, 1), (7, 72)] 8, 1, 72, (serves_of (by decide +kernel)), (by decide +kernel), (by decide +kernel), (by decide +kernel), (by decide +kernel)⟩

theorem witness_MessagesSetWhatTheyName_4 :
    ∃ (s : State) (m : Msg) (cap : BitVec 16), (s.serves m 0x0501 false false (· = 16) [(63, 16)]) ∧ (bits (leNat (mailBody m)) 15 0 = cap.toNat) ∧ (1500 ≤ cap.toNat) ∧ (cap.toNat ≤ 4600) ∧ (∀ p : PartId, (s.part p).exists_ = true → bits (leNat (mailBody m)) (64 + 8 * p.val + 7) (64 + 8 * p.val) ≠ 0) :=
  ⟨paged serving, asks [(64, 1500), (64, 0x0101010101010101)] 16, 1500, (serves_of (by decide +kernel)), (by decide +kernel), (by decide +kernel), (by decide +kernel), (by decide +kernel)⟩

theorem witness_MessagesSetWhatTheyName_5 :
    ∃ (s : State) (m : Msg) (size : Nat) (buf : BitVec 57), (s.serves m 0x0801 false false (· = 32) [(63, 58), (79, 71), (127, 88), (255, 160)]) ∧ (hasFields (leNat (mailBody m)) [(56, 0, buf.toNat), (68, 64, size)]) ∧ (10 ≤ size) ∧ (size ≤ 24) ∧ (buf.toNat % (32 * 2 ^ size) = 0) ∧ (bit (leNat (mailBody m)) 57 = true ∨ s.bufferOk buf.toNat (32 * 2 ^ size) = true) :=
  ⟨serving, asks [(57, 0x8000), (1, 1), (6, 0), (5, 10), (59, 0), (128, 0)] 32, 10, 0x8000, (serves_of (by decide +kernel)), (by decide +kernel), (by decide +kernel), (by decide +kernel), (by decide +kernel), (by decide +kernel)⟩

theorem witness_MessagesSetWhatTheyName_6 :
    ∃ (s : State) (m : Msg), (s.serves m 0x0801 false false (· = 32) [(63, 58), (79, 71), (127, 88), (255, 160)]) ∧ (10 ≤ bits (leNat (mailBody m)) 68 64) ∧ (bits (leNat (mailBody m)) 68 64 ≤ 24) ∧ (bits (leNat (mailBody m)) 56 0 % (32 * 2 ^ bits (leNat (mailBody m)) 68 64) = 0) ∧ (bit (leNat (mailBody m)) 57 = false) ∧ (s.bufferOk (bits (leNat (mailBody m)) 56 0) (32 * 2 ^ bits (leNat (mailBody m)) 68 64) = false) :=
  ⟨serving, asks [(57, 0x100000000000000), (1, 0), (6, 0), (5, 24), (59, 0), (128, 0)] 32, (serves_of (by decide +kernel)), (by decide +kernel), (by decide +kernel), (by decide +kernel), (by decide +kernel), (by decide +kernel)⟩

theorem witness_MessagesSetWhatTheyName_7 :
    ∃ (s : State) (m : Msg) (id : BitVec 14), (s.serves m 0x0900 false false (· = 8) [(63, 14)]) ∧ (bits (leNat (mailBody m)) 13 0 = id.toNat) :=
  ⟨serving, asks [(14, 0x3FFF)] 8, 0x3FFF, (serves_of (by decide +kernel)), (by decide +kernel)⟩

theorem witness_MessagesSetWhatTheyName_8 :
    ∃ (s : State) (m : Msg) (p : Plan), (s.serves m 0x0901 false false (· = 16) [(15, 14), (127, 52)]) ∧ (hasFields (leNat (mailBody m)) [(4, 0, p.sx.toNat), (9, 5, p.sy.toNat), (13, 10, p.sz.toNat), (51, 16, p.connected.toNat)]) :=
  ⟨serving, asks [(5, 31), (5, 31), (4, 15), (2, 0), (36, 0xFFFFFFFFF)] 16, ⟨31, 31, 15, 0xFFFFFFFFF⟩, (serves_of (by decide +kernel)), (by decide +kernel)⟩

theorem witness_MessagesSetWhatTheyName_9 :
    ∃ (s : State) (m : Msg) (d : DieId) (test : Byte), (s.serves m 0x0A02 false false (· = 16) [(127, 12)]) ∧ (hasFields (leNat (mailBody m)) [(7, 0, test.toNat), (11, 8, d.val)]) ∧ (1 ≤ test.toNat) ∧ (test.toNat ≤ 4) ∧ (s.diagReady d = true) ∧ (test ≠ 4 ∨ (s.die d).cache = []) :=
  ⟨serving, asks [(8, 4), (4, 11)] 16, 11, 4, (serves_of (by decide +kernel)), (by decide +kernel), (by decide +kernel), (by decide +kernel), (by decide +kernel), (by decide +kernel)⟩
def maint : State := { serving with pow := { serving.pow with maintJmpN := false } }
def licensed : State := { maint with boot := { maint.boot with licences := [(2, some ⟨8, 5⟩)] } }

theorem witness_UpdatesLicencesAndMaintenance_1 :
    ∃ (s : State) (m : Msg) (off : Nat) (n : Nat), (s.serves m 0x0700 false true (fun k => 17 ≤ k && k ≤ 4080) []) ∧ (hasFields (leNat ((mailBody m).take 16)) [(31, 0, off), (47, 32, n), (127, 48, 0)]) ∧ (n + 16 = m.length.toNat) ∧ (off + n ≤ 48 * mib) :=
  ⟨serving, ask 18 (natLe (packBits [(32, 0x2FFFFFE), (16, 2)]) 16 ++ [1, 2]), 0x2FFFFFE, 2, (serves_of (by decide +kernel)), (by decide +kernel), (by decide +kernel), (by decide +kernel)⟩

theorem witness_UpdatesLicencesAndMaintenance_2 :
    ∃ (s : State) (m : Msg), (s.serves m 0x0702 false true (· = 0) []) :=
  ⟨serving, ask 0 [], (serves_of (by decide +kernel))⟩

theorem witness_UpdatesLicencesAndMaintenance_4 :
    ∃ (s : State) (m : Msg), (s.serves m 0x0704 false true (· = 0) []) :=
  ⟨serving, ask 0 [], (serves_of (by decide +kernel))⟩

theorem witness_UpdatesLicencesAndMaintenance_3 :
    ∃ (s : State) (m : Msg), (s.serves m 0x0703 false true (· = 0) []) ∧ (s.boot.stagedTop ≠ 0) :=
  ⟨{ serving with boot := { serving.boot with stagedTop := 64 } }, ask 0 [], (serves_of (by decide +kernel)), (by decide +kernel)⟩

theorem witness_UpdatesLicencesAndMaintenance_5 :
    ∃ (s : State) (m : Msg) (l : Bytes) (f : Nat) (value : Nat) (serial : Nat), (s.serves m 0x0600 false false (· = 2048) [(511, 224), (16383, 15456)]) ∧ ((mailBody m).take 64 = l) ∧ (hasFields (leNat l) [(55, 48, f), (63, 56, value), (95, 64, serial)]) ∧ (s.counterFull 2 = false) :=
  ⟨serving, asks [(48, 0), (8, 2), (8, 8), (32, 5)] 2048, natLe (packBits [(48, 0), (8, 2), (8, 8), (32, 5)]) 64, 2, 8, 5, (serves_of (by decide +kernel)), (by decide +kernel), (by decide +kernel), (by decide +kernel)⟩

theorem witness_UpdatesLicencesAndMaintenance_6 :
    ∃ (s : State) (m : Msg) (f : Nat) (x : Licence), (s.serves m 0x0F00 false false (· = 8) [(63, 8)]) ∧ (bits (leNat (mailBody m)) 7 0 = f) ∧ (1 ≤ f) ∧ (f ≤ 4) ∧ (s.licence f = some x) ∧ (f = 2 → ∀ p : PartId, 2 ≤ p.val → (s.part p).exists_ = false) ∧ (f = 4 → ∀ p : PartId, (s.part p).lsState = 0) ∧ (s.counterFull 2 = false) :=
  ⟨licensed, asks [(8, 2)] 8, 2, ⟨8, 5⟩, (serves_of (by decide +kernel)), (by decide +kernel), (by decide +kernel), (by decide +kernel), (by decide +kernel), (by decide +kernel), (by decide +kernel), (by decide +kernel)⟩

theorem witness_UpdatesLicencesAndMaintenance_7 :
    ∃ (s : State) (m : Msg), (s.serves m 0x0F01 false false (· = 0) []) :=
  ⟨maint, ask 0 [], (serves_of (by decide +kernel))⟩

theorem witness_UpdatesLicencesAndMaintenance_8 :
    ∃ (s : State) (m : Msg), (s.serves m 0x0F02 false false (· = 0) []) ∧ (s.counterFull 1 = false) :=
  ⟨maint, ask 0 [], (serves_of (by decide +kernel)), (by decide +kernel)⟩

theorem witness_UpdatesLicencesAndMaintenance_9 :
    ∃ (s : State) (m : Msg), (s.serves m 0x0F03 false false (· = 0) []) :=
  ⟨maint, ask 0 [], (serves_of (by decide +kernel))⟩
theorem restful_of {s : State} {p : Option PartId} {dorm : Bool}
    (h : s.scopeQueues (if dorm then none else p) = [] ∧ s.colls = []
      ∧ (dorm = true → ∀ i : PortId, (s.port i).holds = [])
      ∧ (∀ d ∈ (if dorm then allDies else s.scopeDies p), ∀ k ∈ dieStacks d, (s.stack k).temp ≤ 85 * 16)
      ∧ (∀ d ∈ (if dorm then allDies else s.scopeDies p), (s.freeSlots d).length = 3 ∧ s.loanOf d = none) ∧ s.capo.sagWarn = false
      ∧ s.reshaping p (if dorm then allDies else s.scopeDies p) = false ∧ ∀ r : PartId, (s.part r).lsState = 0) : s.restful p dorm :=
  ⟨by rw [h.1]; simp, by rw [h.2.1]; simp, h.2.2⟩
theorem powAsks (s : State) (h : s.mailFree (ask 0 []) ∧ s.seqFits (ask 0 []) ∧ s.boot.state ≠ 2) : ∀ r ∈ ([(1, .enterIdleReady, 100000), (2, .enterDrowse, 10000000)] : List (Nat × (Msg → Instr) × Nat)),
    s.serves (asks [(3, r.1)] 8) 0x0500 false false (· = 8) [(63, 7)] := by
  intro r hr
  have b : ∀ r ∈ ([(1, .enterIdleReady, 100000), (2, .enterDrowse, 10000000)] : List (Nat × (Msg → Instr) × Nat)), (decide ((asks [(3, r.1)] 8).length.toNat = 8) = true
      ∧ msgExtra (asks [(3, r.1)] 8) = false ∧ ∀ e ∈ [(63, 7)], bits (leNat (mailBody (asks [(3, r.1)] 8))) e.1 e.2 = 0) := by decide +kernel
  exact serves_of ⟨rfl, h.1, h.2.1, ⟨fun e => absurd e h.2.2, (by omega), (by omega)⟩, b r hr⟩

theorem witness_PowerStatesAreEnteredAndLeft_1 :
    ∀ r ∈ ([(1, .enterIdleReady, 100000), (2, .enterDrowse, 10000000)] : List (Nat × (Msg → Instr) × Nat)), ∃ (s : State) (m : Msg), (s.serves m 0x0500 false false (· = 8) [(63, 7)]) ∧ (pwTarget m.payload = r.1) ∧ (pwScope (mailBody m) = none → bits (leNat (mailBody m)) 6 4 = 0) ∧ (s.moveLegal (mailBody m) = true) ∧ (s.restful (pwScope (mailBody m)) false) := by
  have h : ∀ r ∈ ([(1, .enterIdleReady, 100000), (2, .enterDrowse, 10000000)] : List (Nat × (Msg → Instr) × Nat)), pwTarget (asks [(3, r.1)] 8).payload = r.1
      ∧ (pwScope (mailBody (asks [(3, r.1)] 8)) = none → bits (leNat (mailBody (asks [(3, r.1)] 8))) 6 4 = 0)
      ∧ serving.moveLegal (mailBody (asks [(3, r.1)] 8)) = true ∧ pwScope (mailBody (asks [(3, r.1)] 8)) = none := by
    decide +kernel
  intro r hr
  exact ⟨serving, asks [(3, r.1)] 8, powAsks _ (by decide +kernel) r hr, (h r hr).1, (h r hr).2.1, (h r hr).2.2.1, by
    rw [(h r hr).2.2.2]
    exact restful_of (by decide +kernel)⟩

theorem witness_PowerStatesAreEnteredAndLeft_2 :
    ∃ (s : State) (m : Msg), (s.serves m 0x0500 false false (· = 8) [(63, 7)]) ∧ (pwTarget m.payload = 3) ∧ (pwScope (mailBody m) = none) ∧ (bits (leNat (mailBody m)) 6 4 = 0) ∧ (s.moveLegal (mailBody m) = true) ∧ (s.restful none true) :=
  ⟨serving, asks [(3, 3)] 8, (serves_of (by decide +kernel)), (by decide +kernel), (by decide +kernel), (by decide +kernel), (by decide +kernel), (restful_of (by decide +kernel))⟩

theorem witness_PowerStatesAreEnteredAndLeft_3 :
    ∀ r ∈ ([(1, .enterIdleReady, 100000), (2, .enterDrowse, 10000000)] : List (Nat × (Msg → Instr) × Nat)), ∃ (s : State) (m : Msg) (q : QueueId), (s.serves m 0x0500 false false (· = 8) [(63, 7)]) ∧ (pwTarget m.payload = r.1) ∧ (pwScope (mailBody m) = none → bits (leNat (mailBody m)) 6 4 = 0) ∧ (s.moveLegal (mailBody m) = true) ∧ (q ∈ s.scopeQueues (pwScope (mailBody m))) ∧ ((s.queue q).state ≠ qIdle) ∧ ((s.queue q).state ≠ qDisabled) := by
  have h : ∀ r ∈ ([(1, .enterIdleReady, 100000), (2, .enterDrowse, 10000000)] : List (Nat × (Msg → Instr) × Nat)), pwTarget (asks [(3, r.1)] 8).payload = r.1
      ∧ (pwScope (mailBody (asks [(3, r.1)] 8)) = none → bits (leNat (mailBody (asks [(3, r.1)] 8))) 6 4 = 0)
      ∧ (live []).moveLegal (mailBody (asks [(3, r.1)] 8)) = true ∧ 0 ∈ (live []).scopeQueues (pwScope (mailBody (asks [(3, r.1)] 8)))
      ∧ ((live []).queue 0).state ≠ qIdle ∧ ((live []).queue 0).state ≠ qDisabled := by
    decide +kernel
  intro r hr
  exact ⟨live [], asks [(3, r.1)] 8, 0, powAsks _ (by decide +kernel) r hr, h r hr⟩
def drowsing : State := allDies.foldl (fun s d => s.setDie d { pstate := 2 }) serving

theorem witness_PowerStatesAreEnteredAndLeft_4 :
    ∃ (s : State) (m : Msg), (s.serves m 0x0500 false false (· = 8) [(63, 7)]) ∧ (pwTarget m.payload = 0) ∧ (pwScope (mailBody m) = none → bits (leNat (mailBody m)) 6 4 = 0) ∧ (s.moveLegal (mailBody m) = true) :=
  ⟨drowsing, asks [(3, 0)] 8, (serves_of (by decide +kernel)), (by decide +kernel), (by decide +kernel), (by decide +kernel)⟩

theorem witness_PowerStatesAreEnteredAndLeft_5 :
    ∃ (s : State) (b : Bytes) (f : FnId) (n : Nat), (s.pending = []) ∧ (s.pow.mode = .powered) ∧ (s.boot.running = true) ∧ (∀ x ∈ s.flt.masked, x.count = 0) ∧ (s.jobs = [⟨some (.mail f n), .power b⟩]) ∧ (s.restful (pwScope b) false) ∧ (pwTarget b = 1 ∨ pwTarget b = 2) ∧ (∀ d, (s.die d).cache = []) :=
  ⟨{ serving with jobs := [⟨some (.mail 0 1), .power [2]⟩] }, [2], 0, 1, (by decide +kernel), (by decide +kernel), (by decide +kernel), (by decide +kernel), (by decide +kernel), (restful_of (by decide +kernel)), (by decide +kernel), (by decide +kernel)⟩

/-- Eight partitions are licensed; and a partition block (R381): op, partition, lender, dies, gibibytes. -/
def eight (s : State) : State := { s with boot := { s.boot with partsInForce := 8 } }
def block (op p l dies gib : Nat) : Msg := asks [(4, op), (3, p), (1, 0), (3, l), (5, 0), (12, dies), (4, 0), (8, gib)] 128

theorem asked {s : State} {m : Msg} {op : Nat}
    (h : m.fn = 0 ∧ s.mailFree m ∧ s.seqFits m ∧ ((s.boot.state = 2 → false = true) ∧ (op = 0x0A03 ∨ op = 0x0A04 → s.boot.debug = true)
      ∧ (op / 256 = 0x0F → s.boot.presenceOpen = true ∨ s.pow.maintJmpN = false)) ∧ decide (m.length.toNat = 128) = true ∧ msgExtra m = false
      ∧ ∀ r ∈ ([] : List (Nat × Nat)), bits (leNat (mailBody m)) r.1 r.2 = 0) :
    s.asksPart (.msg m) op (mailBody m) (s.accepted m op 50000000) := ⟨serves_of h, rfl, rfl⟩

/-- Dies 0 and 1 in partition 1; die 0 lent to partition 2, which owns die 2. -/
def owning : State := (eight ((paged serving).setDie 1 { owner := some 1 })).setPart 2 { exists_ := true }
def lent : State := { (owning.setDie 0 { owner := some 2 }).setDie 2 { owner := some 2 } with loans := [⟨1, 2, 0, 1, some ([], [])⟩] }

theorem witness_PartitionRequestsMoveDies_1 :
    ∀ r ∈ ([(0, 0x0300, .partitionCreate), (1, 0x0301, .partitionLend), (2, 0x0301, .partitionReturn), (3, 0x0302, .partitionDelete), (4, 0x0301, .partitionConfigure)] : List (Nat × Nat × (PartSource → Instr))), ∃ (s : State) (a : State) (w : PartSource) (b : Bytes), (s.asksPart w r.2.1 b a) ∧ (pb b 3 0 = r.1) ∧ (a.blockCheck b ≠ 0) := by
  have h : ∀ r ∈ ([(0, 0x0300, .partitionCreate), (1, 0x0301, .partitionLend), (2, 0x0301, .partitionReturn), (3, 0x0302, .partitionDelete), (4, 0x0301, .partitionConfigure)] : List (Nat × Nat × (PartSource → Instr))), ((block r.1 1 0 0 0).fn = 0 ∧ (eight serving).mailFree (block r.1 1 0 0 0) ∧ (eight serving).seqFits (block r.1 1 0 0 0)
      ∧ (((eight serving).boot.state = 2 → false = true) ∧ (r.2.1 = 0x0A03 ∨ r.2.1 = 0x0A04 → (eight serving).boot.debug = true)
        ∧ (r.2.1 / 256 = 0x0F → (eight serving).boot.presenceOpen = true ∨ (eight serving).pow.maintJmpN = false))
      ∧ decide ((block r.1 1 0 0 0).length.toNat = 128) = true ∧ msgExtra (block r.1 1 0 0 0) = false
      ∧ ∀ e ∈ ([] : List (Nat × Nat)), bits (leNat (mailBody (block r.1 1 0 0 0))) e.1 e.2 = 0)
      ∧ pb (mailBody (block r.1 1 0 0 0)) 3 0 = r.1
      ∧ ((eight serving).accepted (block r.1 1 0 0 0) r.2.1 50000000).blockCheck (mailBody (block r.1 1 0 0 0)) ≠ 0 := by
    decide +kernel
  intro r hr
  exact ⟨eight serving, (eight serving).accepted (block r.1 1 0 0 0) r.2.1 50000000, .msg (block r.1 1 0 0 0), mailBody (block r.1 1 0 0 0),
    asked (h r hr).1, (h r hr).2⟩

theorem witness_PartitionRequestsMoveDies_2 :
    ∃ (s : State) (a : State) (w : PartSource) (b : Bytes) (p : PartId) (ds : List DieId), (s.asksPart w 0x0300 b a) ∧ (pb b 3 0 = 0) ∧ (pb b 6 4 = p.val) ∧ (a.blockCheck b = 0) ∧ (ds = (allDies.filter fun d => bit (leNat b) (16 + d.val))) ∧ (∀ d ∈ ds, (s.die d).cache = []) :=
  ⟨eight serving, (eight serving).accepted (block 0 1 0 3 0) 0x0300 50000000, .msg (block 0 1 0 3 0), mailBody (block 0 1 0 3 0), 1, _, (asked (by decide +kernel)), (by decide +kernel), (by decide +kernel), (by decide +kernel), (rfl), (by decide +kernel)⟩

theorem witness_PartitionRequestsMoveDies_3 :
    ∃ (s : State) (a : State) (w : PartSource) (b : Bytes) (p : PartId) (l : PartId) (ds : List DieId), (s.asksPart w 0x0301 b a) ∧ (pb b 3 0 = 1) ∧ (hasFields (leNat b) [(6, 4, p.val), (10, 8, l.val)]) ∧ (a.blockCheck b = 0) ∧ (ds = (allDies.filter fun d => bit (leNat b) (16 + d.val))) ∧ (∀ d, (s.die d).cache = []) ∧ (∀ d ∈ s.partDies l, s.freeSlots d ≠ []) ∧ ((∀ q ∈ a.partQueues l, (s.queue q).state = qIdle ∧ a.contextTiles q = [] ∧ (s.queue q).preempting = false)) ∧ (s.jobs = []) ∧ ((s.part l).ls.enable = false) ∧ ((s.part p).ls.enable = false) :=
  ⟨owning, (owning).accepted (block 1 2 1 1 1) 0x0301 50000000, .msg (block 1 2 1 1 1), mailBody (block 1 2 1 1 1), 2, 1, _, (asked (by decide +kernel)), (by decide +kernel), (by decide +kernel), (by decide +kernel), (rfl), (by decide +kernel), (by decide +kernel), (by rw [show State.partQueues _ _ = [] by decide +kernel]; exact fun _ h => by cases h), (by decide +kernel), (by decide +kernel), (by decide +kernel)⟩

theorem witness_PartitionRequestsMoveDies_4 :
    ∃ (s : State) (a : State) (w : PartSource) (b : Bytes) (p : PartId) (d : DieId) (l : Loan) (v : NMap (BitVec 32) × NMap (BitVec 48)), (s.asksPart w 0x0301 b a) ∧ (pb b 3 0 = 2) ∧ (pb b 6 4 = p.val) ∧ (a.blockCheck b = 0) ∧ (bits (leNat b) 27 16 = 2 ^ d.val) ∧ (∀ e, (s.die e).cache = []) ∧ (s.loanOf d = some l) ∧ (l.saved = some v) ∧ (mapWf 0 v.1) ∧ (mapWf 0 v.2) ∧ (∀ e ∈ v.1, semOf d e.1 = true) ∧ (∀ e ∈ v.2, ctrOf d e.1 = true) ∧ ((∃ e, e ≠ d ∧ (s.die e).owner = some p)) ∧ ((s.part l.lender).ls.enable = false) ∧ ((s.part p).ls.enable = false) ∧ (l.lender ≠ p) :=
  ⟨lent, (lent).accepted (block 2 2 0 1 0) 0x0301 50000000, .msg (block 2 2 0 1 0), mailBody (block 2 2 0 1 0), 2, 0, ⟨1, 2, 0, 1, some ([], [])⟩, ([], []), (asked (by decide +kernel)), (by decide +kernel), (by decide +kernel), (by decide +kernel), (by decide +kernel), (by decide +kernel), (by decide +kernel), (by decide +kernel), (by decide +kernel), (by decide +kernel), (by decide +kernel), (by decide +kernel), (⟨2, by decide +kernel⟩), (by decide +kernel), (by decide +kernel), (by decide +kernel)⟩

theorem witness_PartitionRequestsMoveDies_5 :
    ∃ (s : State) (a : State) (w : PartSource) (b : Bytes) (p : PartId), (s.asksPart w 0x0302 b a) ∧ (pb b 3 0 = 3) ∧ (pb b 6 4 = p.val) ∧ (a.blockCheck b = 0) ∧ (∀ e, (s.die e).cache = []) ∧ (s.partQueues p = []) ∧ (a.partQueues p = []) ∧ (s.borrowed p = []) ∧ (s.jobs = []) :=
  ⟨owning, (owning).accepted (block 3 1 0 0 0) 0x0302 50000000, .msg (block 3 1 0 0 0), mailBody (block 3 1 0 0 0), 1, (asked (by decide +kernel)), (by decide +kernel), (by decide +kernel), (by decide +kernel), (by decide +kernel), (by decide +kernel), (by decide +kernel), (by decide +kernel), (by decide +kernel)⟩

theorem witness_PartitionRequestsMoveDies_6 :
    ∃ (s : State) (a : State) (w : PartSource) (b : Bytes) (p : PartId), (s.asksPart w 0x0301 b a) ∧ (pb b 3 0 = 4) ∧ (pb b 6 4 = p.val) ∧ (a.blockCheck b = 0) :=
  ⟨owning, (owning).accepted (block 4 1 0 0 0) 0x0301 50000000, .msg (block 4 1 0 0 0), mailBody (block 4 1 0 0 0), 1, (asked (by decide +kernel)), (by decide +kernel), (by decide +kernel), (by decide +kernel)⟩

/-- A command of an opcode with its block at 0x3000. -/
def blockCmd (op : Nat) : Cmd := cmdOf (packBits [(64, op), (64, 0x3000)])
def withBlock (op : Nat) (b : Bytes) : State := withMem 0x3000 b (live [blockCmd op])

theorem witness_FirmwareCommandsComplete_1 :
    ∃ (s : State) (q : QueueId) (x : Cmd) (b : Bytes), (s.blockTurn q 0x12 32 32 x b) ∧ (leNat b = 0) :=
  ⟨withBlock 0x12 (natLe (0) 32), 0, blockCmd 0x12, natLe (0) 32, (⟨by decide +kernel, by decide +kernel, ok_is (by decide +kernel) (by decide +kernel)⟩), (by decide +kernel)⟩

theorem witness_FirmwareCommandsComplete_2 :
    ∃ (s : State) (q : QueueId) (x : Cmd) (b : Bytes), (s.blockTurn q 0x12 32 32 x b) ∧ (leNat b = 1) :=
  ⟨withBlock 0x12 (natLe (1) 32), 0, blockCmd 0x12, natLe (1) 32, (⟨by decide +kernel, by decide +kernel, ok_is (by decide +kernel) (by decide +kernel)⟩), (by decide +kernel)⟩

theorem witness_FirmwareCommandsComplete_3 :
    ∃ (s : State) (q : QueueId) (x : Cmd) (b : Bytes) (n : Word), (s.blockTurn q 0x12 32 32 x b) ∧ (leNat b = 2 + 2 ^ 64 * n.toNat) ∧ (1 ≤ n.toNat) ∧ (n.toNat ≤ 2 ^ 40) ∧ (s.tb.state = 2) :=
  ⟨{ withBlock 0x12 (natLe (2 + 2 ^ 64 * 2 ^ 40) 32) with tb := { state := 2 } }, 0, blockCmd 0x12, natLe (2 + 2 ^ 64 * 2 ^ 40) 32, 2 ^ 40, (⟨by decide +kernel, by decide +kernel, ok_is (by decide +kernel) (by decide +kernel)⟩), (by decide +kernel), (by decide +kernel), (by decide +kernel), (by decide +kernel)⟩

theorem witness_FirmwareCommandsComplete_4 :
    ∃ (s : State) (q : QueueId) (x : Cmd) (b : Bytes) (n : Word), (s.blockTurn q 0x12 32 32 x b) ∧ (leNat b = 2 + 2 ^ 64 * n.toNat) ∧ (1 ≤ n.toNat) ∧ (n.toNat ≤ 2 ^ 40) ∧ (s.tb.state ≠ 2) ∧ ((s.queue q).cmds = [x]) ∧ ((s.queue q).state ≠ qDestroying) :=
  ⟨withBlock 0x12 (natLe (2 + 2 ^ 64 * 1) 32), 0, blockCmd 0x12, natLe (2 + 2 ^ 64 * 1) 32, 1, (⟨by decide +kernel, by decide +kernel, ok_is (by decide +kernel) (by decide +kernel)⟩), (by decide +kernel), (by decide +kernel), (by decide +kernel), (by decide +kernel), (by decide +kernel), (by decide +kernel)⟩

theorem witness_FirmwareCommandsComplete_5 :
    ∃ (s : State) (q : QueueId) (x : Cmd) (b : Bytes) (all : Bool) (p : PartId) (f : BitVec 7), (s.blockTurn q 0x13 32 32 x b) ∧ (leNat b = 256 * bnat all + 512 * p.val + 65536 * f.toNat) ∧ (16 ≤ f.toNat) ∧ (f.toNat ≤ 76) ∧ (all = true ∨ (s.part p).exists_ = true) :=
  ⟨withBlock 0x13 (natLe (256 * 0 + 512 * 1 + 65536 * 76) 32), 0, blockCmd 0x13, natLe (256 * 0 + 512 * 1 + 65536 * 76) 32, false, 1, 76, (⟨by decide +kernel, by decide +kernel, ok_is (by decide +kernel) (by decide +kernel)⟩), (by decide +kernel), (by decide +kernel), (by decide +kernel), (by decide +kernel)⟩

theorem witness_FirmwareCommandsComplete_6 :
    ∃ (s : State) (q : QueueId) (x : Cmd) (b : Bytes), (s.blockTurn q 0x13 32 32 x b) ∧ (leNat b = 1) :=
  ⟨withBlock 0x13 (natLe (1) 32), 0, blockCmd 0x13, natLe (1) 32, (⟨by decide +kernel, by decide +kernel, ok_is (by decide +kernel) (by decide +kernel)⟩), (by decide +kernel)⟩

theorem witness_FirmwareCommandsComplete_7 :
    ∃ (s : State) (q : QueueId) (x : Cmd) (b : Bytes), (s.blockTurn q 0x13 32 32 x b) ∧ (leNat b = 2) :=
  ⟨withBlock 0x13 (natLe (2) 32), 0, blockCmd 0x13, natLe (2) 32, (⟨by decide +kernel, by decide +kernel, ok_is (by decide +kernel) (by decide +kernel)⟩), (by decide +kernel)⟩

theorem witness_FirmwareCommandsComplete_8 :
    ∃ (s : State) (q : QueueId) (x : Cmd) (h : Bytes) (b : Bytes) (k : MsgSpec) (p : Bytes), (s.frontTurn q 0x14 x) ∧ (s.vread (s.queuePart q) (x.field 127 64) 16 = .ok h) ∧ (hasFields (leNat h) [(15, 0, k.opcode), (31, 16, 0), (47, 32, b.length), (95, 64, 0), (127, 96, 0)]) ∧ (k ∈ mailTable) ∧ (b.length ≤ 4080) ∧ (b.length ≠ 0 → s.vread (s.queuePart q) (x.field 127 64 + 16) b.length = .ok b) ∧ (k.opcode / 256 ≠ 0x0F) ∧ (k.opcode < 0x0A02 ∨ 0x0A04 < k.opcode) ∧ (s.boot.state = 2 → k.os = true) ∧ (k.lenOk b.length = true) ∧ (∀ r ∈ k.reserved b, bits (leNat b) r.1 r.2 = 0) ∧ (k.run (s.beginCmd ⟨q, x.id⟩) (.pass ⟨q, x.id⟩) b = ansOk (s.beginCmd ⟨q, x.id⟩) p) ∧ (p.length < 65536) :=
  ⟨withBlock 0x14 (natLe (packBits [(32, 0x0101)]) 16), 0, blockCmd 0x14, natLe (packBits [(32, 0x0101)]) 16, [], specGetReadiness, slice ((withBlock 0x14 (natLe (packBits [(32, 0x0101)]) 16)).beginCmd ⟨0, (blockCmd 0x14).id⟩).boot.readiness 0 320, (by decide +kernel), (ok_is (by decide +kernel) (by decide +kernel)), (by decide +kernel), (by simp [mailTable]), (by decide +kernel), (fun h => absurd rfl h), (by decide +kernel), (by decide +kernel), (by decide +kernel), (by decide +kernel), (by decide +kernel), (rfl), (by decide +kernel)⟩

theorem witness_FirmwareCommandsComplete_9 :
    ∃ (s : State) (q : QueueId) (x : Cmd) (h : Bytes) (b : Bytes), (s.frontTurn q 0x14 x) ∧ (s.vread (s.queuePart q) (x.field 127 64) 16 = .ok h) ∧ (b.length = min (bits (leNat h) 47 32) 4080) ∧ (b.length ≠ 0 → s.vread (s.queuePart q) (x.field 127 64 + 16) b.length = .ok b) ∧ (bits (leNat h) 95 64 ≠ 0 ∨ mailTable.all (fun k => k.opcode ≠ bits (leNat h) 15 0) = true) :=
  ⟨withBlock 0x14 (natLe (packBits [(64, 0x0101), (32, 1)]) 16), 0, blockCmd 0x14, natLe (packBits [(64, 0x0101), (32, 1)]) 16, [], (by decide +kernel), (ok_is (by decide +kernel) (by decide +kernel)), (by decide +kernel), (fun h => absurd rfl h), (by decide +kernel)⟩

theorem witness_HostRegistersAndResets_1 :
    ∃ (s : State) (off : BitVec 26) (n : Nat), (s.bar0Open = true) ∧ (accessOk off.toNat n = false) :=
  ⟨serving, 4, 3, (by decide +kernel), (by decide +kernel)⟩

theorem witness_HostRegistersAndResets_2 :
    ∃ (s : State) (off : BitVec 42) (n : Nat) (a : Nat) (o : Nat) (d : DieId), (s.bar0Open = true) ∧ (off.toNat + n ≤ 2 ^ (s.fn 0).bar2Log2.toNat) ∧ (1 ≤ n) ∧ ((s.fn 0).bar2Base.toNat + off.toNat = a) ∧ (s.paKind a = .region d o) ∧ (o + n ≤ s.reserveBase d) ∧ (∀ x, a ≤ x → x < a + n → s.agentFenced x = none) ∧ (∀ l ∈ linesOf a n, l ∉ s.poison) :=
  ⟨serving, 0x2000, 8, 0x2000, 0x2000, 0, (by decide +kernel), (by decide +kernel), (by decide +kernel), (by decide +kernel), (by decide +kernel), (by decide +kernel), (fun _ _ _ => none_fenced _ (by decide +kernel) _), (by decide +kernel)⟩

theorem witness_HostRegistersAndResets_3 :
    ∃ (s : State) (f : FnId) (off : BitVec 42) (n : Nat), (s.bar0Open = true) ∧ (2 ^ (s.fn f).bar2Log2.toNat < off.toNat + n) :=
  ⟨withFn fun x => { x with bar2Log2 := 41 }, 0, 0x3FFFFFFFFFF, 8, (by decide +kernel), (by decide +kernel)⟩

theorem witness_HostRegistersAndResets_4 :
    ∃ (s : State) (off : BitVec 42) (n : Nat) (a : Nat) (o : Nat) (d : DieId), (s.bar0Open = true) ∧ (off.toNat + n ≤ 2 ^ (s.fn 0).bar2Log2.toNat) ∧ ((s.fn 0).bar2Base.toNat + off.toNat = a) ∧ (s.paKind a = .region d o) ∧ (1 ≤ n) ∧ (a % 64 + n ≤ 64) ∧ (o + n ≤ s.reserveBase d) ∧ (s.agentFenced a = none) ∧ (a / 64 ∈ s.poison) :=
  ⟨{ serving with poison := [0x80] }, 0x2000, 8, 0x2000, 0x2000, 0, (by decide +kernel), (by decide +kernel), (by decide +kernel), (by decide +kernel), (by decide +kernel), (by decide +kernel), (by decide +kernel), (by decide +kernel), (by decide +kernel)⟩

theorem witness_HostRegistersAndResets_5 :
    ∃ (s : State) (off : BitVec 42) (b : Bytes) (a : Nat) (o : Nat) (d : DieId), (s.bar0Open = true) ∧ (off.toNat + b.length ≤ 2 ^ (s.fn 0).bar2Log2.toNat) ∧ ((s.fn 0).bar2Base.toNat + off.toNat = a) ∧ (s.paKind a = .region d o) ∧ (1 ≤ b.length) ∧ (o + b.length ≤ s.reserveBase d) ∧ (∀ x, a ≤ x → x < a + b.length → s.agentFenced x = none) ∧ (∀ l ∈ linesOf a b.length, l ∉ s.poison) :=
  ⟨serving, 0x2000, [1, 2], 0x2000, 0x2000, 0, (by decide +kernel), (by decide +kernel), (by decide +kernel), (by decide +kernel), (by decide +kernel), (by decide +kernel), (fun _ _ _ => none_fenced _ (by decide +kernel) _), (by decide +kernel)⟩

theorem witness_HostRegistersAndResets_6 :
    ∃ (s : State) (off : BitVec 42) (b : Bytes), (s.bar0Open = true) ∧ (2 ^ (s.fn 0).bar2Log2.toNat < off.toNat + b.length) :=
  ⟨withFn fun x => { x with bar2Log2 := 20 }, 0xFFFFF, [1, 2], (by decide +kernel), (by decide +kernel)⟩

theorem witness_HostRegistersAndResets_7 :
    ∃ (s : State), (s.bar0Open = true) :=
  ⟨serving, (by decide +kernel)⟩

theorem witness_HostRegistersAndResets_8 :
    ∃ (s : State), (s.bar0Open = true) :=
  ⟨serving, (by decide +kernel)⟩

theorem witness_HostRegistersAndResets_9 :
    ∃ (s : State), (s.bar0Open = true) :=
  ⟨serving, (by decide +kernel)⟩

theorem witness_HostRegistersAndResets_10 :
    ∃ (s : State), (s.bar0Open = true) :=
  ⟨serving, (by decide +kernel)⟩

theorem witness_HostRegistersAndResets_11 :
    ∃ (s : State) (f : FnId) (e : BitVec 10), (s.bar0Open = true) ∧ (e.toNat < msixEntries f) :=
  ⟨serving, 1, 127, (by decide +kernel), (by decide +kernel)⟩

theorem witness_HostRegistersAndResets_12 :
    ∃ (s : State) (b : Bytes), (s.bar0Open = true) ∧ (b.length = 8) :=
  ⟨serving, zeros 8, (by decide +kernel), (by decide +kernel)⟩

theorem witness_HostRegistersAndResets_13 :
    ∃ (s : State) (off : BitVec 26) (b : Bytes), (s.bar0Open = true) ∧ (1 ≤ b.length) ∧ (off.toNat % 64 + b.length ≤ 64) ∧ (0x10000 ≤ off.toNat) ∧ (off.toNat < 0x11000) :=
  ⟨serving, 0x10FFF, [1], (by decide +kernel), (by decide +kernel), (by decide +kernel), (by decide +kernel), (by decide +kernel)⟩

theorem witness_HostRegistersAndResets_14 :
    ∃ (s : State), (s.bar0Open = true) :=
  ⟨serving, (by decide +kernel)⟩

theorem witness_HostRegistersAndResets_15 :
    ∃ (s : State), (s.bar0Open = true) :=
  ⟨serving, (by decide +kernel)⟩

theorem witness_HostRegistersAndResets_16 :
    ∃ (s : State), (s.pow.perstN = true) ∧ (s.pow.mode = .powered) ∧ (s.boot.running = true) :=
  ⟨serving, (by decide +kernel), (by decide +kernel), (by decide +kernel)⟩

theorem witness_HostRegistersAndResets_18 :
    ∃ (s : State) (f : FnId), (s.boot.running = true) ∧ (s.pow.mode = .powered) ∧ (s.flt.warmCause = none) ∧ ((s.fn f).busy = true) ∧ ((s.fn f).mbStart + (s.fn f).mbBound < s.time) :=
  ⟨{ withFn (fun x => { x with busy := true, mbBound := 10 }) with time := 11 }, 0, (by decide +kernel), (by decide +kernel), (by decide +kernel), (by decide +kernel), (by decide +kernel)⟩

theorem witness_ManagementRequestsAreAnswered_1 :
    ∃ (s : State), (s.listens) :=
  ⟨serving, (by decide +kernel)⟩

theorem witness_ManagementRequestsAreAnswered_2 :
    ∃ (s : State), (s.listens) :=
  ⟨serving, (by decide +kernel)⟩

theorem witness_ManagementRequestsAreAnswered_3 :
    ∃ (s : State) (y : BitVec 6), (s.listens) ∧ (y ≠ 0) :=
  ⟨serving, 1, (by decide +kernel), (by decide +kernel)⟩

theorem witness_ManagementRequestsAreAnswered_4 :
    ∃ (s : State), (s.listens) ∧ (s.boot.state ≠ 2) :=
  ⟨serving, (by decide +kernel), (by decide +kernel)⟩

theorem witness_ManagementRequestsAreAnswered_5 :
    ∃ (s : State) (v : SpdmVia), (s.attests v) :=
  ⟨serving, .doe, (by decide +kernel)⟩

theorem witness_ManagementRequestsAreAnswered_8 :
    ∃ (s : State) (v : SpdmVia), (s.attests v) :=
  ⟨serving, .sideband, (by decide +kernel)⟩

theorem witness_ManagementRequestsAreAnswered_6 :
    ∃ (s : State) (v : SpdmVia), (s.attests v) ∧ (v ∈ s.side.versioned) :=
  ⟨{ serving with side := { versioned := [.doe] } }, .doe, (by decide +kernel), (by decide +kernel)⟩

theorem witness_ManagementRequestsAreAnswered_7 :
    ∃ (s : State) (v : SpdmVia), (s.attests v) ∧ (v ∈ s.side.negotiated) :=
  ⟨{ serving with side := { negotiated := [.sideband] } }, .sideband, (by decide +kernel), (by decide +kernel)⟩

/-- The module serving with port 2 as given. -/
def port2 (x : Port) : State := { serving with fab := { ports := mapPut {} [] 2 x } }
def booting (s : State) : State := { s with boot := { s.boot with state := 0 } }
def flit : Codeword := ⟨0, 0, false, 0, false, 0, false, 0, 0, true⟩

theorem witness_PortsTrainAndCarryCodewords_1 :
    ∃ (s : State) (p : PortId), (s.pow.mode = .powered) ∧ ((s.port p).state = 1) ∧ (s.boot.state = 1 ∨ s.boot.state = 2) :=
  ⟨port2 { state := 1 }, 2, (by decide +kernel), (by decide +kernel), (by decide +kernel)⟩

theorem witness_PortsTrainAndCarryCodewords_2 :
    ∃ (s : State) (p : PortId), (s.pow.mode = .powered) ∧ ((s.port p).state = 1) ∧ (s.boot.state = 0 ∨ s.boot.state = 3) ∧ ((s.port p).attemptAt < s.boot.started + 500000000) ∧ ((s.port p).downStarts < 2) ∧ (∀ l, mapGet 0 (s.port p).laneFails l < 2) :=
  ⟨booting (port2 { state := 1, downStarts := 1, laneFails := [(3, 1)] }), 2, (by decide +kernel), (by decide +kernel), (by decide +kernel), (by decide +kernel), (by decide +kernel), (fun l => by rw [show (State.port _ _).laneFails = [(3, 1)] from rfl]; simp only [mapGet]; split <;> decide)⟩

theorem witness_PortsTrainAndCarryCodewords_3 :
    ∃ (s : State) (p : PortId), (s.pow.mode = .powered) ∧ ((s.port p).state = 7) :=
  ⟨port2 { state := 7 }, 2, (by decide +kernel), (by decide +kernel)⟩

theorem witness_PortsTrainAndCarryCodewords_4 :
    ∃ (s : State) (p : PortId), (s.pow.mode = .powered) ∧ ((s.port p).state = 4) ∧ (s.licensedPort p = true) ∧ (s.portFailed p = false) ∧ ((s.port p).attemptAt + 500000000 ≤ s.time) :=
  ⟨{ port2 { state := 4 } with time := 500000000, boot := { serving.boot with portsInForce := 36 } }, 2, (by decide +kernel), (by decide +kernel), (by decide +kernel), (by decide +kernel), (by decide +kernel)⟩

theorem witness_PortsTrainAndCarryCodewords_5 :
    ∃ (s : State) (p : PortId) (l : LaneId), ((s.port p).failedLanes.getLsbD l.val = false) ∧ ((s.port p).state = 2) ∧ ((s.port p).spareUsed = false) ∧ ((s.port p).failedLanes.getLsbD 8 = false) :=
  ⟨port2 { state := 2 }, 2, 3, (by decide +kernel), (by decide +kernel), (by decide +kernel), (by decide +kernel)⟩

theorem witness_PortsTrainAndCarryCodewords_6 :
    ∃ (s : State) (p : PortId) (l : LaneId), ((s.port p).failedLanes.getLsbD l.val = false) ∧ ((s.port p).state = 2) ∧ ((s.port p).spareUsed = true ∨ (s.port p).failedLanes.getLsbD 8 = true) :=
  ⟨port2 { state := 2, spareUsed := true }, 2, 3, (by decide +kernel), (by decide +kernel), (by decide +kernel)⟩

theorem witness_PortsTrainAndCarryCodewords_7 :
    ∃ (s : State) (p : PortId) (l : LaneId) (re : Bool), ((s.port p).failedLanes.getLsbD l.val = false) ∧ ((s.port p).state = 3 ∨ (s.port p).state = 2 ∧ ((s.port p).spareUsed = true ∨ (s.port p).failedLanes.getLsbD 8 = true) ∧ re = false) :=
  ⟨port2 { state := 3 }, 2, 3, true, (by decide +kernel), (by decide +kernel)⟩

theorem witness_PortsTrainAndCarryCodewords_8 :
    ∃ (s : State) (p : PortId), ((s.port p).state = 2 ∨ (s.port p).state = 3 ∨ (s.port p).state = 5 ∨ (s.port p).state = 7) :=
  ⟨port2 { state := 5 }, 2, (by decide +kernel)⟩

theorem witness_PortsTrainAndCarryCodewords_9 :
    ∃ (s : State) (p : PortId) (c : Codeword), (s.linked p) ∧ (4 < c.badSymbols ∨ c.crcOk = false) :=
  ⟨port2 { state := 2 }, 2, { flit with badSymbols := 5 }, (by decide +kernel), (by decide +kernel)⟩

theorem witness_PortsTrainAndCarryCodewords_10 :
    ∃ (s : State) (p : PortId) (c : Codeword), (s.linked p) ∧ (c.badSymbols ≤ 4) ∧ (c.crcOk = true) ∧ (c.nack = false) ∧ (c.credits = 0) :=
  ⟨port2 { state := 2 }, 2, flit, (by decide +kernel), (by decide +kernel), (by decide +kernel), (by decide +kernel), (by decide +kernel)⟩

theorem witness_PortsTrainAndCarryCodewords_11 :
    ∃ (s : State) (p : PortId) (c : Codeword), (s.linked p) ∧ (c.badSymbols = 0) ∧ (c.crcOk = true) ∧ (c.nack = true) ∧ (4 < c.vc.toNat) ∧ (c.credits = 0) ∧ (c.aseq = (s.port p).txAck) :=
  ⟨port2 { state := 3 }, 2, { flit with nack := true, vc := 5 }, (by decide +kernel), (by decide +kernel), (by decide +kernel), (by decide +kernel), (by decide +kernel), (by decide +kernel), (by decide +kernel)⟩

theorem witness_PortsTrainAndCarryCodewords_12 :
    ∃ (s : State) (p : PortId) (c : Codeword), (s.linked p) ∧ (c.badSymbols = 0) ∧ (c.crcOk = true) ∧ (c.nack = false) ∧ (4 < c.vc.toNat) ∧ (c.aseq = (s.port p).txAck) ∧ (c.cvc.toNat ≤ 4) :=
  ⟨port2 { state := 2 }, 2, { flit with vc := 7, cvc := 4, credits := 3 }, (by decide +kernel), (by decide +kernel), (by decide +kernel), (by decide +kernel), (by decide +kernel), (by decide +kernel), (by decide +kernel)⟩

/-- The plan of a ring of three modules; and port 2 up beside it. -/
def ring3 : Plan := ⟨3, 1, 1, 0xF⟩
def linked2 : State := { serving with fab := { plan := some ring3, ports := mapPut {} [] 2 { state := 2 } } }

theorem witness_RoutesHoldsAndTimeAreKept_1 :
    ∃ (s : State) (p : PortId) (w : Plan), (s.managed p) ∧ (s.fab.plan = some w) ∧ (w.connected.getLsbD p.val = true) :=
  ⟨linked2, 2, ring3, (by decide +kernel), (by decide +kernel), (by decide +kernel)⟩

theorem witness_RoutesHoldsAndTimeAreKept_2 :
    ∃ (s : State) (p : PortId), (s.managed p) :=
  ⟨linked2, 2, (by decide +kernel)⟩

theorem witness_RoutesHoldsAndTimeAreKept_3 :
    ∃ (s : State) (p : PortId), (s.managed p) :=
  ⟨linked2, 2, (by decide +kernel)⟩

theorem witness_RoutesHoldsAndTimeAreKept_4 :
    ∃ (s : State) (p : PortId) (id : BitVec 14), (s.managed p) ∧ (id ≠ s.fab.modId) ∧ (s.fab.plan ≠ none) :=
  ⟨linked2, 2, 5, (by decide +kernel), (by decide +kernel), (by decide +kernel)⟩

theorem witness_RoutesHoldsAndTimeAreKept_6 :
    ∃ (s : State), (s.pow.mode = .powered) :=
  ⟨linked2, (by decide +kernel)⟩

theorem witness_RoutesHoldsAndTimeAreKept_7 :
    ∃ (s : State) (w : Plan), (s.pow.mode = .powered) ∧ (s.boot.running = true) ∧ (s.boot.state ≠ 2) ∧ (s.fab.plan = some w) ∧ (s.colls = []) ∧ (∀ i, (s.port i).state = 5 → (s.port i).inRoutes = false) :=
  ⟨linked2, ring3, (by decide +kernel), (by decide +kernel), (by decide +kernel), (by decide +kernel), (by decide +kernel), (by decide +kernel)⟩

theorem witness_RoutesHoldsAndTimeAreKept_8 :
    ∃ (s : State) (p : PortId), (s.linked p) ∧ (s.tb.parent = some p) :=
  ⟨{ linked2 with tb := { parent := some 2 } }, 2, (by decide +kernel), (by decide +kernel)⟩

theorem witness_RoutesHoldsAndTimeAreKept_9 :
    ∃ (s : State), (s.tb.state ≠ 2) ∧ (s.tb.parent ≠ none) ∧ (s.tb.parentGood = true) ∧ ((∃ g, s.tb.goodSince = some g ∧ g + 1000000 ≤ s.time)) :=
  ⟨{ linked2 with time := 1000000, tb := { parent := some 2, parentGood := true, goodSince := some 0 } }, (by decide +kernel), (by decide +kernel), (by decide +kernel), (⟨0, by decide +kernel⟩)⟩

theorem out_is {x : Except (BitVec 8) PortId} {e : Except (BitVec 8) PortId} (h : x.toOption = e.toOption ∧ (x.toOption = none → False)) :
    x = e := by
  cases x <;> cases e <;> simp_all [Except.toOption]

/-- Modules 1 and 2 are reached by + of the first dimension. -/
def routed : State := { linked2 with boot := { serving.boot with portsInForce := 36 }, fab := { plan := some ring3, table := [(1, 2), (2, 7)], ports := mapPut {} [] 2 { state := 2, inRoutes := true } } }
def pkt (type : BitVec 5) (addr : BitVec 46) (len : BitVec 13) (data : Bytes) : Packet :=
  sealPacket { dst := 0, src := 1, vc := 0, type := type, len := len, ttl := 64, seq := 5, tag := 9, tries := 0, srcPart := 1, addr := addr
               ctr := 7, ctrValid := false, cls := false, crc := 0, data := data }
def win0 : RxWin := ⟨1, 0, 5, []⟩
def listening : State := { paged routed with fab := { routed.fab with rx := [win0] } }
def ctrPkt : Packet := sealPacket { pkt 0x00 0x2000 4 [1, 2, 3, 4] with ctrValid := true }

theorem witness_PacketsAreDeliveredOnce_1 :
    ∃ (s : State) (p : PortId) (o : PortId) (k : Packet), (s.pow.mode = .powered) ∧ (s.boot.state ≠ 2) ∧ ((s.port p).state = 2 ∨ (s.port p).state = 3) ∧ (k.dst ≠ s.fab.modId) ∧ (typeKnown k.type = true) ∧ (1 < k.ttl.toNat) ∧ (s.outPort (some p) k.dst = .ok o) :=
  ⟨routed, 2, 2, { pkt 0x00 0x2000 4 [1, 2, 3, 4] with dst := 1 }, (by decide +kernel), (by decide +kernel), (by decide +kernel), (by decide +kernel), (by decide +kernel), (by decide +kernel), (out_is (by decide +kernel))⟩

theorem witness_PacketsAreDeliveredOnce_2 :
    ∃ (s : State) (p : PortId) (k : Packet) (e : BitVec 8), (s.pow.mode = .powered) ∧ (s.boot.state ≠ 2) ∧ ((s.port p).state = 2 ∨ (s.port p).state = 3) ∧ (k.dst ≠ s.fab.modId) ∧ (typeKnown k.type = true) ∧ ((k.ttl.toNat ≤ 1 ∧ e = 0x07) ∨ (1 < k.ttl.toNat ∧ s.outPort (some p) k.dst = .error e)) :=
  ⟨routed, 2, { pkt 0x00 0x2000 4 [1, 2, 3, 4] with dst := 1, ttl := 1 }, 0x07, (by decide +kernel), (by decide +kernel), (by decide +kernel), (by decide +kernel), (by decide +kernel), (Or.inl (by decide +kernel))⟩

theorem witness_PacketsAreDeliveredOnce_3 :
    ∃ (s : State) (k : Packet) (w : RxWin) (j : StackId) (c : BitVec 12) (p : PartId) (x : Xlat) (d : DieId) (o : Nat), (s.fresh1 k w) ∧ (k.type = 0x00) ∧ (k.ctrValid = true) ∧ (k.ctr.toNat = 4096 * j.val + c.toNat) ∧ (s.stackPart j = some p) ∧ (s.stackFenced j = false) ∧ (1 ≤ k.data.length) ∧ (k.addr.toNat % 64 + k.data.length ≤ 64) ∧ (s.translateWrite p k.addr.toNat = .ok x) ∧ (x.remote = true) ∧ (s.paKind x.pa = .region d o) ∧ (o + k.data.length ≤ s.regionSize d) ∧ (s.stackFenced (s.stackOf d o) = false) ∧ (s.agentFenced x.pa = none) ∧ (x.pa % 64 = k.addr.toNat % 64) ∧ (x.pa / 64 ∉ s.poison) :=
  ⟨listening, ctrPkt, win0, 0, 7, 1, ⟨0x2000, true, true, true, false⟩, 0, 0x2000, (by decide +kernel), (by decide +kernel), (by decide +kernel), (by decide +kernel), (by decide +kernel), (by decide +kernel), (by decide +kernel), (by decide +kernel), (ok_is (by decide +kernel) (by decide +kernel)), (by decide +kernel), (by decide +kernel), (by decide +kernel), (by decide +kernel), (by decide +kernel), (by decide +kernel), (by decide +kernel)⟩

theorem witness_PacketsAreDeliveredOnce_4 :
    ∃ (s : State) (k : Packet) (w : RxWin), (s.fresh1 k w) ∧ (k.type = 0x00) ∧ (k.ctrValid = false) :=
  ⟨listening, pkt 0x00 0x2000 4 [1, 2, 3, 4], win0, (by decide +kernel), (by decide +kernel), (by decide +kernel)⟩

theorem witness_PacketsAreDeliveredOnce_5 :
    ∃ (s : State) (k : Packet) (w : RxWin), (s.pow.mode = .powered) ∧ (k.dst = s.fab.modId) ∧ (s.boot.state = 1) ∧ (packetCrc k = k.crc) ∧ (s.rxWin? k.src k.vc = some w) ∧ (2 ^ 23 ≤ (k.seq - w.low).toNat ∨ k.seq ∈ w.got) ∧ (k.type = 0x00) :=
  ⟨listening, sealPacket { pkt 0x00 0x2000 4 [1, 2, 3, 4] with seq := 4 }, win0, (by decide +kernel), (by decide +kernel), (by decide +kernel), (by decide +kernel), (by decide +kernel), (by decide +kernel), (by decide +kernel)⟩

theorem witness_PacketsAreDeliveredOnce_6 :
    ∃ (s : State) (k : Packet) (w : RxWin) (x : Xlat) (d : DieId) (o : Nat), (s.fresh1 k w) ∧ (k.type = 0x02) ∧ ((s.part (PartId.ofNat k.srcPart.toNat)).exists_ = true) ∧ (1 ≤ k.len.toNat) ∧ (k.addr.toNat % 64 + k.len.toNat ≤ 64) ∧ (s.translate (PartId.ofNat k.srcPart.toNat) k.addr.toNat = .ok x) ∧ (s.paKind x.pa = .region d o) ∧ (o + k.len.toNat ≤ s.regionSize d) ∧ (s.stackFenced (s.stackOf d o) = false) ∧ (s.agentFenced x.pa = none) ∧ (x.pa % 64 = k.addr.toNat % 64) ∧ (x.pa / 64 ∉ s.poison) :=
  ⟨listening, pkt 0x02 0x2000 4 [], win0, ⟨0x2000, true, true, true, false⟩, 0, 0x2000, (by decide +kernel), (by decide +kernel), (by decide +kernel), (by decide +kernel), (by decide +kernel), (ok_is (by decide +kernel) (by decide +kernel)), (by decide +kernel), (by decide +kernel), (by decide +kernel), (by decide +kernel), (by decide +kernel), (by decide +kernel)⟩

theorem witness_PacketsAreDeliveredOnce_7 :
    ∃ (s : State) (k : Packet) (w : RxWin), (s.fresh1 k w) ∧ (k.type = 0x02) ∧ ((s.part (PartId.ofNat k.srcPart.toNat)).exists_ = false) :=
  ⟨listening, sealPacket { pkt 0x02 0x2000 4 [] with srcPart := 3 }, win0, (by decide +kernel), (by decide +kernel), (by decide +kernel)⟩

/-- One packet sent to module 1 waits for its answer. -/
def sent1 (type : BitVec 5) (seg : Option SegRef) : Unacked := ⟨{ pkt type 0x2000 4 [1, 2, 3, 4] with dst := 1, src := 0 }, 0, 0, 1000, 0, seg⟩
def tx1 (u : Unacked) : TxWin := ⟨1, 0, 6, [u], [], none, true⟩
def sending (u : Unacked) : State := { paged routed with fab := { routed.fab with tx := [tx1 u] } }
def dmaUsed : DmaOp := { dmaOp with cmd := some ⟨0, 1⟩, next := 1, segs := 1, due := [(0, 2)] }
def dmaSends (u : Unacked) : State :=
  ({ live [begunCmd 3] with fab := { routed.fab with tx := [tx1 u] } }).setTile 3 { cmd := some ⟨0, 1⟩, dma := { ops := [dmaUsed] } }
def writeSent : Unacked := sent1 0x00 (some ⟨3, 0, 0, 0⟩)
def readSent : Unacked := sent1 0x02 (some ⟨3, 0, 0, 0⟩)

theorem witness_PacketsAreDeliveredOnce_8 :
    ∃ (s : State) (k : Packet) (w : TxWin) (u : Unacked), (s.answers1 k 0x01 w u) ∧ (u.pkt.type ≠ 0x02) :=
  ⟨sending writeSent, pkt 0x01 0x2000 4 [], tx1 writeSent, writeSent, (by decide +kernel), (by decide +kernel)⟩

theorem witness_PacketsAreDeliveredOnce_9 :
    ∃ (s : State) (k : Packet) (w : TxWin) (u : Unacked) (r : SegRef) (o : DmaOp) (c : CmdId) (x : Cmd), (s.answers1 k 0x03 w u) ∧ (s.servesOp u r o c x) ∧ (1 < mapGet 0 o.due r.seg) :=
  ⟨dmaSends readSent, pkt 0x03 0x2000 4 [1, 2, 3, 4], tx1 readSent, readSent, ⟨3, 0, 0, 0⟩, dmaUsed, ⟨0, 1⟩, begunCmd 3, (by decide +kernel), (by decide +kernel), (by decide +kernel)⟩

theorem witness_PacketsAreDeliveredOnce_10 :
    ∀ r ∈ ([(0x01, 0x5001), (0x03, 0x2008), (0x04, 0x2008), (0x09, 0x900D)] : List (BitVec 46 × BitVec 16)), ∃ (s : State) (k : Packet) (w : TxWin) (u : Unacked), (s.answers1 k 0x04 w u) ∧ (k.addr = r.1) := by
  intro r hr
  simp only [List.mem_cons, List.not_mem_nil, or_false] at hr
  rcases hr with rfl | rfl | rfl | rfl
  · exact ⟨sending writeSent, pkt 0x04 0x01 4 [], tx1 writeSent, writeSent, by decide +kernel, by decide +kernel⟩
  · exact ⟨sending writeSent, pkt 0x04 0x03 4 [], tx1 writeSent, writeSent, by decide +kernel, by decide +kernel⟩
  · exact ⟨sending writeSent, pkt 0x04 0x04 4 [], tx1 writeSent, writeSent, by decide +kernel, by decide +kernel⟩
  · exact ⟨sending writeSent, pkt 0x04 0x09 4 [], tx1 writeSent, writeSent, by decide +kernel, by decide +kernel⟩

theorem witness_PacketsAreDeliveredOnce_11 :
    ∀ r ∈ ([0x02, 0x05] : List (BitVec 46)), ∃ (s : State) (k : Packet) (w : TxWin) (u : Unacked), (s.answers1 k 0x04 w u) ∧ (k.addr = r) := by
  intro r hr
  simp only [List.mem_cons, List.not_mem_nil, or_false] at hr
  rcases hr with rfl | rfl
  · exact ⟨sending writeSent, pkt 0x04 0x02 4 [], tx1 writeSent, writeSent, by decide +kernel, by decide +kernel⟩
  · exact ⟨sending writeSent, pkt 0x04 0x05 4 [], tx1 writeSent, writeSent, by decide +kernel, by decide +kernel⟩

theorem witness_PacketsAreDeliveredOnce_12 :
    ∃ (s : State) (k : Packet) (w : TxWin) (u : Unacked), (s.answers1 k 0x04 w u) ∧ (k.addr = 0x0A) ∧ (w.resync = none) :=
  ⟨sending writeSent, pkt 0x04 0x0A 4 [], tx1 writeSent, writeSent, (by decide +kernel), (by decide +kernel), (by decide +kernel)⟩

theorem witness_PacketsAreDeliveredOnce_13 :
    ∃ (s : State) (w : TxWin) (u : Unacked), (s.fab.tx = [w]) ∧ (w.unacked = [u]) ∧ (u.pkt.dst = w.dst) ∧ (u.pkt.vc = w.vc) ∧ (w.resync = none) ∧ (u.lastSent + u.interval ≤ s.time) ∧ (s.time < u.firstSent + 30000000) ∧ (w.dst = s.fab.modId ∨ s.routeOf w.dst ≠ 7) ∧ (u.pkt.type ≠ ptCollData) :=
  ⟨{ sending writeSent with time := 1000 }, tx1 writeSent, writeSent, (by decide +kernel), (by decide +kernel), (by decide +kernel), (by decide +kernel), (by decide +kernel), (by decide +kernel), (by decide +kernel), (by decide +kernel), (by decide +kernel)⟩

theorem witness_PacketsAreDeliveredOnce_14 :
    ∃ (s : State) (w : TxWin) (u : Unacked), (s.fab.tx = [w]) ∧ (w.unacked = [u]) ∧ (w.waiting = []) ∧ (u.firstSent + 30000000 ≤ s.time) :=
  ⟨{ sending writeSent with time := 30000000 }, tx1 writeSent, writeSent, (by decide +kernel), (by decide +kernel), (by decide +kernel), (by decide +kernel)⟩

theorem witness_PacketsAreDeliveredOnce_15 :
    ∃ (s : State) (k : Packet), (s.pow.mode = .powered) ∧ (k.type = 0x05) ∧ (k.dst = s.fab.modId) ∧ (packetCrc k = k.crc) ∧ (s.boot.state ≠ 2) :=
  ⟨routed, pkt 0x05 0 0 [], (by decide +kernel), (by decide +kernel), (by decide +kernel), (by decide +kernel), (by decide +kernel)⟩
def resyncing : TxWin := ⟨1, 0, 6, [], [], some (5, 0), true⟩

theorem witness_PacketsAreDeliveredOnce_16 :
    ∃ (s : State) (k : Packet) (w : TxWin) (t : Nat), (s.pow.mode = .powered) ∧ (k.type = 0x06) ∧ (k.dst = s.fab.modId) ∧ (packetCrc k = k.crc) ∧ (s.fab.tx = [w]) ∧ (w.dst = k.src) ∧ (w.vc = k.tag.setWidth 3) ∧ (w.resync = some (k.seq, t)) ∧ (w.unacked = []) ∧ (w.waiting = []) :=
  ⟨{ routed with fab := { routed.fab with tx := [resyncing] } }, sealPacket { pkt 0x06 0 0 [] with tag := 0 }, resyncing, 0, (by decide +kernel), (by decide +kernel), (by decide +kernel), (by decide +kernel), (by decide +kernel), (by decide +kernel), (by decide +kernel), (by decide +kernel), (by decide +kernel), (by decide +kernel)⟩

theorem witness_PacketsAreDeliveredOnce_17 :
    ∃ (s : State) (w : TxWin) (b : BitVec 24) (t : Nat), (s.pow.mode = .powered) ∧ (s.fab.tx = [w]) ∧ (w.resync = some (b, t)) ∧ (t + 10000000 ≤ s.time) :=
  ⟨{ routed with time := 10000000, fab := { routed.fab with tx := [resyncing] } }, resyncing, 5, 0, (by decide +kernel), (by decide +kernel), (by decide +kernel), (by decide +kernel)⟩

/-- Tile 3 runs for command 1 of queue 0. -/
def tileBusy : State := (live [{ begunCmd 2 with tiles := [3], holds := [3] }]).setTile 3 { cmd := some ⟨0, 1⟩, seq := { run := .running } }

theorem witness_DetectionsRecordAndFence_1 :
    ∃ (s : State) (e : TileId → EngineId) (t : TileId) (c : CmdId) (x : Cmd), (e ∈ [EngineId.sequencer, .array, .vector, .dma]) ∧ (s.pow.mode = .powered) ∧ (s.engineBusy (e t) = true) ∧ (s.engineCmd t c x) ∧ (e = EngineId.dma → s.dmaOwner t = some c) :=
  ⟨tileBusy, .sequencer, 3, ⟨0, 1⟩, { begunCmd 2 with tiles := [3], holds := [3] }, (by simp), (by decide +kernel), (by decide +kernel), (by decide +kernel), (fun h => by simpa using congrFun h 0)⟩

theorem witness_DetectionsRecordAndFence_2 :
    ∃ (s : State) (k : StackId), (s.pow.mode = .powered) ∧ (s.stackFenced k = false) ∧ (s.colls = []) :=
  ⟨serving, 23, (by decide +kernel), (by decide +kernel), (by decide +kernel)⟩

theorem witness_DetectionsRecordAndFence_3 :
    ∃ (s : State), (s.pow.mode = .powered) ∧ (s.flt.warmCause = none) ∧ (s.colls = []) :=
  ⟨serving, (by decide +kernel), (by decide +kernel), (by decide +kernel)⟩

theorem witness_DetectionsRecordAndFence_4 :
    ∃ (s : State), (s.pow.mode = .powered) ∧ (s.boot.running = true) ∧ (s.flt.warmCause = none) ∧ (s.colls = []) :=
  ⟨serving, (by decide +kernel), (by decide +kernel), (by decide +kernel), (by decide +kernel)⟩

theorem witness_DetectionsRecordAndFence_5 :
    ∃ (s : State), (s.boot.running = true) :=
  ⟨serving, (by decide +kernel)⟩

theorem witness_DetectionsRecordAndFence_6 :
    ∃ (s : State), (s.boot.running = true) ∧ (s.pow.mode = .powered) ∧ (s.flt.warmCause = none) ∧ (s.colls = []) ∧ (s.flt.heartbeat + 1000000 ≤ s.time) :=
  ⟨{ serving with time := 1000000 }, (by decide +kernel), (by decide +kernel), (by decide +kernel), (by decide +kernel), (by decide +kernel)⟩

theorem witness_DetectionsRecordAndFence_7 :
    ∃ (s : State), (s.boot.running = true) ∧ (s.flt.hubOffline = false) :=
  ⟨serving, (by decide +kernel), (by decide +kernel)⟩

theorem witness_DetectionsRecordAndFence_8 :
    ∃ (s : State) (x : Crossing), (s.pow.mode = .powered) ∧ (∀ d c, x ≠ .dieSide d c) :=
  ⟨serving, .hubPcie, (by decide +kernel), (fun _ _ h => by cases h)⟩

theorem witness_DetectionsRecordAndFence_9 :
    ∃ (s : State) (d : DieId), (s.pow.mode = .powered) ∧ ((s.die d).inReset = false) ∧ (s.colls = []) :=
  ⟨serving, 11, (by decide +kernel), (by decide +kernel), (by decide +kernel)⟩

theorem witness_DetectionsRecordAndFence_10 :
    ∃ (s : State) (l : BridgeLink), (s.pow.mode = .powered) ∧ (l ∉ s.flt.linksDown) :=
  ⟨serving, 30, (by decide +kernel), (by decide +kernel)⟩

theorem witness_DetectionsRecordAndFence_11 :
    ∃ (s : State) (a : Island) (b : Island) (d : DieId) (e : DieId), (s.pow.mode = .powered) ∧ (dieOfLogic a.die = some d) ∧ (dieOfLogic b.die = some e) ∧ (d ≠ e) ∧ (s.colls = []) ∧ ((s.die d).inReset = false) ∧ ((s.die e).inReset = false) :=
  ⟨serving, ⟨logicOfDie 0, 0, none⟩, ⟨logicOfDie 11, 0, none⟩, 0, 11, (by decide +kernel), (by decide +kernel), (by decide +kernel), (by decide +kernel), (by decide +kernel), (by decide +kernel), (by decide +kernel)⟩

theorem witness_DetectionsRecordAndFence_12 :
    ∃ (s : State) (a : Island) (b : Island), (s.pow.mode = .powered) ∧ (s.flt.warmCause = none) ∧ (dieOfLogic a.die = none) ∧ (dieOfLogic b.die = none) ∧ (s.colls = []) :=
  ⟨serving, ⟨logicOfHub 0, 0, none⟩, ⟨logicOfHub 0, 1, none⟩, (by decide +kernel), (by decide +kernel), (by decide +kernel), (by decide +kernel), (by decide +kernel)⟩

/-- The module serving with resets due. -/
def why : ResetCause := ⟨0x9008, 1, 0x03, false⟩
def dueTile : State := { serving with flt := { tileCause := [(3, some why)] } }
def dueDie : State := { serving with flt := { dieCause := [(11, some why)] } }
def dueWarm : State := { serving with flt := { warmCause := some why } }
def tileCmd3 : Cmd := { begunCmd 2 with tiles := [3], holds := [3] }
def dueBusy : State := { tileBusy with flt := { tileCause := [(3, some why)] } }

theorem witness_ResetsRestoreTheirDomain_1 :
    ∃ (s : State) (t : TileId) (c : ResetCause), (mapGet none s.flt.tileCause t.val = some c) ∧ (s.jobs = []) ∧ (∀ q, s.queueIn (.tile t) q = false) :=
  ⟨dueTile, 3, why, (by decide +kernel), (by decide +kernel), (fun _ => rfl)⟩

theorem witness_ResetsRestoreTheirDomain_2 :
    ∃ (s : State) (t : TileId) (c : ResetCause) (q : QueueId) (x : Cmd), (mapGet none s.flt.tileCause t.val = some c) ∧ (c.sag = false) ∧ (s.jobs = []) ∧ (s.colls = []) ∧ (s.queues = [(q.val, s.queue q)]) ∧ ((s.queue q).cfg ≠ none) ∧ ((s.queue q).cmds = [x]) ∧ (x.stage = .begun) ∧ (x.depth = 0) ∧ (t ∈ x.engineTiles) ∧ (s.slotOf (dieOf t) q = none) ∧ ((s.queue q).state = qRunning) ∧ ((s.queue q).halting = none) :=
  ⟨dueBusy, 3, why, 0, tileCmd3, (by decide +kernel), (by decide +kernel), (by decide +kernel), (by decide +kernel), (by decide +kernel), (by decide +kernel), (by decide +kernel), (by decide +kernel), (by decide +kernel), (by decide +kernel), (by decide +kernel), (by decide +kernel), (by decide +kernel)⟩

theorem witness_ResetsRestoreTheirDomain_3 :
    ∃ (s : State) (d : DieId) (c : ResetCause), (mapGet none s.flt.dieCause d.val = some c) ∧ (s.jobs = []) ∧ (∀ q, s.queueIn (.die d) q = false) :=
  ⟨dueDie, 11, why, (by decide +kernel), (by decide +kernel), (fun _ => rfl)⟩

theorem witness_ResetsRestoreTheirDomain_4 :
    ∃ (s : State) (c : ResetCause), (s.flt.warmCause = some c) ∧ (s.pow.refclk = true) ∧ (s.pow.sagResetAt = none) ∧ (∀ q, (s.queue q).cfg = none) ∧ (s.colls = []) ∧ (∀ d, (s.die d).pstate ≠ 2) :=
  ⟨dueWarm, why, (by decide +kernel), (by decide +kernel), (by decide +kernel), (fun _ => rfl), (by decide +kernel), (by decide +kernel)⟩

theorem witness_ResetsRestoreTheirDomain_5 :
    ∃ (s : State), (s.pow.mode ≠ .off) :=
  ⟨serving, (by decide +kernel)⟩

theorem witness_ResetsRestoreTheirDomain_6 :
    ∃ (s : State) (t : TileId) (c : ResetCause), (mapGet none s.flt.tileCause t.val = some c) ∧ ((s.die (dieOf t)).inReset = false) ∧ (s.colls = []) :=
  ⟨dueTile, 3, why, (by decide +kernel), (by decide +kernel), (by decide +kernel)⟩

theorem witness_ResetsRestoreTheirDomain_7 :
    ∃ (s : State) (d : DieId) (c : ResetCause), (mapGet none s.flt.dieCause d.val = some c) ∧ (c.sag = false) ∧ (s.pow.mode = .powered) ∧ (s.flt.warmCause = none) ∧ (s.colls = []) :=
  ⟨dueDie, 11, why, (by decide +kernel), (by decide +kernel), (by decide +kernel), (by decide +kernel), (by decide +kernel)⟩

theorem witness_CapoKeepsLimitsAndCharges_1 :
    ∃ (s : State) (m : PowerReading), (s.pow.mode = .powered) ∧ (s.boot.running = true) ∧ (m.temps = []) :=
  ⟨serving, ⟨0, [], []⟩, (by decide +kernel), (by decide +kernel), (by decide +kernel)⟩

theorem witness_CapoKeepsLimitsAndCharges_2 :
    ∃ (s : State) (m : PowerReading) (l : LogicDie) (x : Int), (s.pow.mode = .powered) ∧ (s.boot.running = true) ∧ (m.temps = [(l, x)]) ∧ (dieOfLogic l = none) :=
  ⟨serving, ⟨0, [], [(logicOfHub 0, 400)]⟩, logicOfHub 0, 400, (by decide +kernel), (by decide +kernel), (by decide +kernel), (by decide +kernel)⟩

theorem witness_CapoKeepsLimitsAndCharges_3 :
    ∃ (s : State) (d : DieId), (s.pow.mode = .powered) ∧ (s.boot.running = true) ∧ ((s.die d).pstate = 0) ∧ ((s.die d).inReset = false) :=
  ⟨serving, 11, (by decide +kernel), (by decide +kernel), (by decide +kernel), (by decide +kernel)⟩

theorem witness_CapoKeepsLimitsAndCharges_4 :
    ∃ (s : State) (n : Nat), (s.pow.mode = .powered) ∧ (5600000 < n) ∧ (s.capo.inputStretch = false) :=
  ⟨serving, 5600001, (by decide +kernel), (by decide +kernel), (by decide +kernel)⟩

theorem witness_CapoKeepsLimitsAndCharges_5 :
    ∃ (s : State) (n : Nat), (s.capo.inputStretch = true) ∧ (n < 4600000) :=
  ⟨{ serving with capo := { inputStretch := true } }, 4599999, (by decide +kernel), (by decide +kernel)⟩

theorem witness_CapoKeepsLimitsAndCharges_6 :
    ∃ (s : State) (d : DieId), (s.pow.mode = .powered) ∧ ((s.die d).droop = false) ∧ ((s.die d).pstate = 0) :=
  ⟨serving, 11, (by decide +kernel), (by decide +kernel), (by decide +kernel)⟩

theorem witness_CapoKeepsLimitsAndCharges_8 :
    ∃ (s : State), (s.pow.mode = .powered) ∧ (s.capo.sagWarn = false) :=
  ⟨serving, (by decide +kernel), (by decide +kernel)⟩

theorem witness_CapoKeepsLimitsAndCharges_9 :
    ∃ (s : State), (s.capo.sagWarn = true) :=
  ⟨{ serving with capo := { sagWarn := true } }, (by decide +kernel)⟩

theorem witness_CapoKeepsLimitsAndCharges_10 :
    ∃ (s : State) (t : Nat), (s.capo.sagReleasedAt = some t) ∧ (s.capo.sagHeld = true) ∧ (t + 10000000 ≤ s.time) :=
  ⟨{ serving with time := 10000000, capo := { sagHeld := true, sagReleasedAt := some 0 } }, 0, (by decide +kernel), (by decide +kernel), (by decide +kernel)⟩

theorem witness_CapoKeepsLimitsAndCharges_11 :
    ∃ (s : State), (s.pow.mode = .powered) ∧ (s.pow.sagResetAt = none) ∧ (s.flt.warmCause = none) ∧ (s.colls = []) :=
  ⟨serving, (by decide +kernel), (by decide +kernel), (by decide +kernel), (by decide +kernel)⟩

theorem witness_CapoKeepsLimitsAndCharges_12 :
    ∃ (s : State) (t : Nat), (s.pow.sagResetAt = some t) ∧ (t + 1000000 ≤ s.time) ∧ (s.time ≤ t + 20000000) :=
  ⟨{ serving with time := 20000000, pow := { serving.pow with sagResetAt := some 0 } }, 0, (by decide +kernel), (by decide +kernel), (by decide +kernel)⟩

theorem witness_CapoKeepsLimitsAndCharges_13 :
    ∃ (s : State), (s.pow.sagResetAt ≠ none) ∧ (s.pow.mode ≠ .off) :=
  ⟨{ serving with time := 5, pow := { serving.pow with sagResetAt := some 0 } }, (by decide +kernel), (by decide +kernel)⟩

theorem witness_CapoKeepsLimitsAndCharges_14 :
    ∃ (s : State), (s.pow.mode ≠ .off) :=
  ⟨serving, (by decide +kernel)⟩

theorem witness_CapoKeepsLimitsAndCharges_15 :
    ∃ (s : State) (e : EnergyReading), (s.pow.mode = .powered) ∧ (e.dies.length = 12) ∧ (e.memStacks.length = 24) ∧ (s.capo.energy + intervalSum e ≤ energyTop) ∧ (s.charged + intervalSum e ≤ energyTop) :=
  ⟨serving, ⟨List.replicate 12 (1, false), [], List.replicate 24 (1, 1, []), [], 1, 0, 0, 0⟩, (by decide +kernel), (by decide +kernel), (by decide +kernel), (by decide +kernel), (by decide +kernel)⟩

theorem witness_CapoKeepsLimitsAndCharges_16 :
    ∃ (s : State), (s.pow.mode = .dormant) :=
  ⟨{ serving with pow := { serving.pow with mode := .dormant } }, (by decide +kernel)⟩
def off : State := { State.reset with pow := { pwrEn := false, offUntil := some 500 } }

theorem witness_PinsGiveAndTakePower_2 :
    ∃ (s : State), (s.pow.pwrEn = false) ∧ (s.mayPower) :=
  ⟨State.reset, (by decide +kernel), (by decide +kernel)⟩

theorem witness_PinsGiveAndTakePower_3 :
    ∃ (s : State) (t : Nat), (s.pow.pwrEn = false) ∧ (s.pow.offUntil = some t) :=
  ⟨off, 500, (by decide +kernel), (by decide +kernel)⟩

theorem witness_PinsGiveAndTakePower_4 :
    ∃ (s : State), (s.pow.pwrEn = true) ∧ (s.pow.mode ≠ .off) :=
  ⟨serving, (by decide +kernel), (by decide +kernel)⟩

theorem witness_PinsGiveAndTakePower_5 :
    ∃ (s : State) (t : Nat), (s.pow.offUntil = some t) ∧ (t ≤ s.time) :=
  ⟨{ off with time := 500 }, 500, (by decide +kernel), (by decide +kernel)⟩

theorem witness_PinsGiveAndTakePower_6 :
    ∀ i ∈ [Instr.inputOvervoltage, .inputLoss], ∃ (s : State), (s.pow.mode ≠ .off) := fun _ _ => ⟨serving, by decide +kernel⟩

theorem witness_PinsGiveAndTakePower_7 :
    ∃ (s : State), (s.pow.auxUp = false) :=
  ⟨{ State.reset with pow := { auxUp := false } }, (by decide +kernel)⟩

theorem witness_PinsGiveAndTakePower_8 :
    ∃ (s : State), (s.pow.mode ≠ .off) :=
  ⟨serving, (by decide +kernel)⟩

theorem witness_PinsGiveAndTakePower_9 :
    ∃ (s : State), (s.pow.inputUp = false) :=
  ⟨{ State.reset with pow := { inputUp := false } }, (by decide +kernel)⟩

theorem witness_PinsGiveAndTakePower_10 :
    ∃ (s : State), (s.pow.auxUp = true) ∧ (s.pow.inputUp = true) :=
  ⟨State.reset, (by decide +kernel), (by decide +kernel)⟩

theorem witness_PinsGiveAndTakePower_11 :
    ∃ (s : State), (s.pow.auxUp = true) ∧ (s.pow.inputUp = false) :=
  ⟨{ State.reset with pow := { inputUp := false } }, (by decide +kernel), (by decide +kernel)⟩

theorem witness_PinsGiveAndTakePower_12 :
    ∃ (s : State), (s.pow.auxUp = false) :=
  ⟨{ State.reset with pow := { auxUp := false } }, (by decide +kernel)⟩

theorem witness_PinsGiveAndTakePower_14 :
    ∃ (s : State), (s.pow.refclk = true) ∧ (s.pow.mode = .powered) ∧ (s.flt.warmCause = none) ∧ (s.colls = []) :=
  ⟨serving, (by decide +kernel), (by decide +kernel), (by decide +kernel), (by decide +kernel)⟩

/-- A module that starts, and a start in which nothing fails. -/
def starting : State := { serving with boot := {} }
def goodStart : StartOutcome := ⟨true, true, true, [], 5, 16, true⟩

theorem witness_StartsReadinessAndTelemetry_1 :
    ∃ (s : State) (o : StartOutcome), (s.startsAnew) ∧ (o.flashReads = true) ∧ (o.pufOk = true) ∧ (o.countersOk = true) ∧ (s.boot.image = none) ∧ (s.boot.startStaged = false) ∧ (s.boot.recordGen = s.flashCounter 1) ∧ (s.boot.licenceGen = s.flashCounter 2) :=
  ⟨starting, goodStart, (by decide +kernel), (by decide +kernel), (by decide +kernel), (by decide +kernel), (by decide +kernel), (by decide +kernel), (by decide +kernel), (by decide +kernel)⟩

theorem witness_StartsReadinessAndTelemetry_2 :
    ∃ (s : State) (o : StartOutcome) (r : Byte), (s.startsAnew) ∧ (s.boot.image = none) ∧ (s.boot.startStaged = false) ∧ ((r = 0x01 ∧ o.flashReads = false) ∨ (r = 0x08 ∧ o.flashReads = true ∧ o.pufOk = false) ∨ (r = 0x09 ∧ o.flashReads = true ∧ o.pufOk = true ∧ o.countersOk = false) ∨ (r = 0x0A ∧ o.flashReads = true ∧ o.pufOk = true ∧ o.countersOk = true ∧ s.boot.recordGen ≠ s.flashCounter 1)) :=
  ⟨starting, { goodStart with countersOk := false }, 0x09, (by decide +kernel), (by decide +kernel), (by decide +kernel), (by decide +kernel)⟩

theorem witness_StartsReadinessAndTelemetry_3 :
    ∃ (s : State), (s.startDue = true) ∧ (3 ≤ s.boot.attempts.toNat) :=
  ⟨{ starting with boot := { attempts := 3 } }, (by decide +kernel), (by decide +kernel)⟩

theorem witness_StartsReadinessAndTelemetry_4 :
    ∃ (s : State), (s.pow.mode = .powered) ∧ (s.boot.running = true) ∧ (s.boot.state = 0 ∨ s.boot.state = 3) ∧ (∀ i, (s.port i).state ≠ 1) ∧ (s.jobs = []) :=
  ⟨{ serving with boot := { running := true } }, (by decide +kernel), (by decide +kernel), (by decide +kernel), (by decide +kernel), (by decide +kernel)⟩

theorem witness_StartsReadinessAndTelemetry_5 :
    ∃ (s : State), (s.pow.mode = .powered) ∧ (s.boot.state = 0 ∨ s.boot.state = 3) ∧ (s.boot.started + 10000000000 ≤ s.time) ∧ (s.colls = []) :=
  ⟨{ starting with time := 10000000000 }, (by decide +kernel), (by decide +kernel), (by decide +kernel), (by decide +kernel)⟩

theorem witness_StartsReadinessAndTelemetry_6 :
    ∃ (s : State), (s.pow.auxUp = true ∨ s.pow.inputUp = true) :=
  ⟨State.reset, (by decide +kernel)⟩

theorem witness_StartsReadinessAndTelemetry_8 :
    ∃ (s : State), (s.boot.presenceOpen = true) ∧ (s.boot.presenceCloses ≤ s.time) :=
  ⟨{ serving with time := 7, boot := { presenceOpen := true, presenceCloses := 7 } }, (by decide +kernel), (by decide +kernel)⟩

theorem witness_StartsReadinessAndTelemetry_10 :
    ∃ (s : State) (f : LogicDie) (w : Bytes × Nat) (l : List (Bytes × Nat)) (a : Nat) (o : Nat) (d : DieId), ((s.xq f.val).words = w :: l) ∧ (s.pow.mode = .powered) ∧ (s.tel.trace.enable = true) ∧ (s.tel.trace.host = false) ∧ (s.tel.trace.buf.toNat + 32 * (s.tel.trace.written % 2 ^ s.tel.trace.size) = a) ∧ (a % 32 = 0) ∧ (s.paKind a = .region d o) ∧ (o + 32 ≤ s.regionSize d) ∧ (s.agentFenced a = none) ∧ (a / 64 ∉ s.poison) :=
  ⟨{ serving with xqs := [(0, { words := [(zeros 32, 0)] })], tel := { trace := { enable := true, buf := 0x8000, size := 10, written := 3 } } }, 0, (zeros 32, 0), [], 0x8060, 0x8060, 0, (by decide +kernel), (by decide +kernel), (by decide +kernel), (by decide +kernel), (by decide +kernel), (by decide +kernel), (by decide +kernel), (by decide +kernel), (by decide +kernel), (by decide +kernel)⟩

theorem witness_StartsReadinessAndTelemetry_11 :
    ∃ (s : State) (x : AgeingSample), (s.pow.mode = .powered) ∧ (s.boot.running = true) ∧ (s.samplable x = true) :=
  ⟨serving, ⟨2, 23, 0, 1, 1, 1⟩, (by decide +kernel), (by decide +kernel), (by decide +kernel)⟩

theorem witness_StepKeepsMemoriesCanonical_1 :
    ∃ (s : State) (s' : State), (s.Inv) ∧ (step s = .next s') := ⟨State.reset, State.reset.tick, by unfold State.Inv; decide +kernel, rfl⟩

/-! ## Ill-formed commands -/

/-- A message whose payload is one byte longer than its buffer (R288). -/
def longMsg : Msg := ask 0 (zeros 4081)
theorem test_wellFormed_refuses_long_message : Instr.wellFormed (.getIdentity longMsg) = false := by decide +kernel
theorem test_wellFormed_refuses_long_partition_message : Instr.wellFormed (.partitionCreate (.msg longMsg)) = false := by decide +kernel
/-- R315: 4,097 bytes. -/
theorem test_wellFormed_refuses_long_packet : Instr.wellFormed (.writePacket (pkt 0 0 0 (zeros 4097))) = false := by decide +kernel
/-- R225: 8 bytes at offset 60 of a line. -/
theorem test_wellFormed_refuses_split_read : Instr.wellFormed (.stackRead 0 ⟨60, 8, none⟩ .clean) = false := by decide +kernel
theorem test_wellFormed_refuses_unequal_write : Instr.wellFormed (.stackWrite 0 ⟨56, 8, none⟩ (zeros 7) .clean) = false := by decide +kernel
theorem test_wellFormed_refuses_far_line : Instr.wellFormed (.dieCacheEviction 0 (2 ^ 36)) = false := by decide +kernel
theorem test_wellFormed_refuses_empty_bar0 : Instr.wellFormed (.bar0InvalidAccess 0 false 0 0) = false := by decide +kernel
theorem test_wellFormed_refuses_empty_bar2_read : Instr.wellFormed (.bar2Read 0 0 0) = false := by decide +kernel
theorem test_wellFormed_refuses_long_bar2_write : Instr.wellFormed (.bar2Write 0 0 (zeros 4097)) = false := by decide +kernel
theorem test_wellFormed_refuses_long_register_write : Instr.wellFormed (.registerWrite 0 0 (zeros 65)) = false := by decide +kernel
/-- R304: a nonce of 32 bytes. -/
theorem test_wellFormed_refuses_short_nonce : Instr.wellFormed (.challenge .doe 0 (zeros 31)) = false := by decide +kernel
theorem test_wellFormed_refuses_short_measurement_nonce : Instr.wellFormed (.getMeasurements .doe 0 true (zeros 31)) = false := by
  decide +kernel
theorem test_wellFormed_refuses_short_die_list : Instr.wellFormed (.capoModuleLoop ⟨0, [], []⟩) = false := by decide +kernel
theorem test_wellFormed_refuses_short_energy_list : Instr.wellFormed (.energyInterval ⟨[], [], [], [], 0, 0, 0, 0⟩) = false := by decide +kernel
theorem test_wellFormed_refuses_start_without_stacks : Instr.wellFormed (.moduleStart goodStart) = false := by decide +kernel
theorem test_wellFormed_refuses_unknown_ageing_class : Instr.wellFormed (.ageingSample ⟨4, 0, 0, 0, 0, 0⟩) = false := by decide +kernel
theorem test_wellFormed_accepts_message : Instr.wellFormed (.getIdentity (ask 0 (zeros 4080))) = true := by decide +kernel

/-! ## Numbers -/

/-- FP32's 3.3, 0xD33333 × 2^-22. -/
def v3_3 : Val := .num false 0xD33333 (-22)
/-- Example 1 of the number formats: 3.3 in each narrow format. -/
theorem test_convert_narrow : ([Elem.e4m3, .e5m2, .e3m2, .e2m3, .e2m1].map fun f => convert f false .rne 0 0 v3_3)
    = [(0x45, flInexact), (0x43, flInexact), (0x13, flInexact), (0x15, flInexact), (0x5, flInexact)] := by decide +kernel
/-- Example 2: stochastic rounding rounds up from r = 3,006,477,108, about. -/
theorem test_convert_stochastic : (convert .e2m1 false ⟨.stochastic, false⟩ 0xC0000000 0 v3_3).1 = 0x6
    ∧ (convert .e2m1 false ⟨.stochastic, false⟩ 0xB0000000 0 v3_3).1 = 0x5 := by decide +kernel
/-- Example 3: a block whose largest magnitude is 700, with 0.01 as FP32's 0xA3D70A × 2^-30. -/
theorem test_block_conversion : toBlock .e4m3 .rne [(.num false 700 0, 0), (.num false 0xA3D70A (-30), 0)]
    = (0x80, [0x7B, 0x03], flInexact ||| flUnderflow) := by decide +kernel
/-- The automatic base's example: ceilings 0x83 and 0x7E over 4,096 products, by both rules. -/
theorem test_automatic_base : deriveBase 0x83 0x7E none 4096 false = -110 ∧ deriveBase 0x83 0x7E none 4096 true = -33 := by decide +kernel
/-- The collective example's base. -/
theorem test_collective_base : collectiveBase 0x85 = -42 := by decide +kernel
/-- The check value of CRC-64 ECMA-182 over "123456789". -/
theorem test_crc64 : crc64 [0x31, 0x32, 0x33, 0x34, 0x35, 0x36, 0x37, 0x38, 0x39] = 0x6C40DF5F0B497347 := by decide +kernel

/-! ## Tile programs (R128) -/

/-- The module after a command. -/
def after (i : Instr) (s : State) : State :=
  match exec i s with
  | .next t => t
  | _ => s

/-- Register n of tile 3 after its instruction w (s1 = 0x40, s2 = 3). -/
def regAfter (i : TileId → BitVec 32 → Instr) (w : BitVec 32) (n : BitVec 5) : Word := (after (i 3 w) (in32 w)).reg 3 n
theorem test_sub_order : regAfter .aluSub (asm 0 5 1 0x1001) 5 = 0x3D := by decide +kernel
theorem test_divs_by_zero : regAfter .aluDivs (asm 0 5 1 0x000C) 5 = 0xFFFFFFFFFFFFFFFF := by decide +kernel
theorem test_write_to_s0 : regAfter .aluAdd (asm 0 0 1 0x1000) 0 = 0 := by decide +kernel
theorem test_addi_sign : regAfter .addi (asm 1 5 1 0xFFBF) 5 = 0xFFFFFFFFFFFFFFFF := by decide +kernel
theorem test_ori_zero_extends : regAfter .ori (asm 3 5 0 0x8000) 5 = 0x8000 := by decide +kernel
theorem test_slti_signed : regAfter .slti (asm 6 5 1 0xFFFF) 5 = 0 ∧ regAfter .sltiu (asm 7 5 1 0xFFFF) 5 = 1 := by decide +kernel
theorem test_lui : regAfter .lui (asm 8 5 0 0x8000) 5 = 0xFFFFFFFF80000000 := by decide +kernel
theorem test_shi_arithmetic : regAfter .shi (asm 5 5 1 0x43) 5 = 8 ∧ regAfter .shi (asm 5 5 1 0x03) 5 = 0x200 := by decide +kernel
theorem test_call_links : regAfter .call (asm 0x27 0 0 4) 31 = 4
    ∧ ((after (.call 3 (asm 0x27 0 0 4)) (in32 (asm 0x27 0 0 4))).tile 3).seq.pc = 16 := by decide +kernel
/-- s1 = 0x40 is not s2 = 3: beq falls through, bne goes back 4. -/
theorem test_branches : ((after (.beq 3 (asm 0x20 1 2 0xFFFF)) (in32 (asm 0x20 1 2 0xFFFF))).tile 3).seq.pc = 4
    ∧ ((after (.bne 3 (asm 0x21 1 2 0xFFFF)) (in32 (asm 0x21 1 2 0xFFFF))).tile 3).seq.pc = 0xFFFFFFFFFFFFFFFC := by decide +kernel
def loadState (w : BitVec 32) : State := onTile { codeTile (natLe w.toNat 4) with scratch := [(0x38, 0x80), (0x39, 0x7F)] }
theorem test_loads_extend : ((after (.ld8s 3 (asm 0x14 5 1 0xFFF8)) (loadState (asm 0x14 5 1 0xFFF8))).reg 3 5) = 0xFFFFFFFFFFFFFF80
    ∧ ((after (.ld16u 3 (asm 0x11 5 1 0xFFF8)) (loadState (asm 0x11 5 1 0xFFF8))).reg 3 5) = 0x7F80 := by decide +kernel
theorem test_store_low_bytes : bytesAt ((after (.st16 3 (asm 0x19 2 1 0xFFF8)) (loadState (asm 0x19 2 1 0xFFF8))).tile 3).scratch 0x38 2 = [3, 0] := by
  decide +kernel
theorem test_evsig : mapGet 0 ((after (.evsig 3 (asm 0x2C 0 0 0x0052)) (in32 (asm 0x2C 0 0 0x0052))).tile 3).seq.events 2 = 5 := by decide +kernel

/-! ## Memory -/

/-- The stack memory's example: PA 0x1C2_0004_1F40 lies in stack 15, at 0x1_0002_0F40 there, in pseudo-channel 13. -/
theorem test_stack_address : serving.paKind 0x1C200041F40 = .region 7 0x200041F40 ∧ serving.stackOf 7 0x200041F40 = 15
    ∧ serving.stackAddr 7 0x200041F40 = 0x100020F40 ∧ pchanOf 0x100020F40 = 13 := by decide +kernel
/-- The counter example: the wait pends, and is satisfied once commits have wrapped the counter. -/
theorem test_counter_wraps : ctrReached 0xFFFFFFF00000 0x000000100000 = false ∧ ctrReached 0x000000100000 0x000000100000 = true := by decide +kernel

/-! ## The mailbox and the rings -/

/-- The mailbox's example: tag 7, sequence 0x2A, a sequence expected. -/
def idMsg : Msg := ⟨0, false, 0, 0, 7, 0x2A, 0, 0, []⟩
def idState : State := withFn fun x => { x with seqAny := false, nextSeq := 0x2A }
theorem test_identity_request : slice (bytesAt ((after (.getIdentity idMsg) idState).fn 0).req 0 16) 0 16
    = [0, 1, 0, 0, 0, 0, 7, 0, 0x2A, 0, 0, 0, 0, 0, 0, 0] := by decide +kernel
/-- The response's header has resp set, and the request's tag and sequence number. -/
theorem test_response_header : bytesAt ((after (.setModuleIdentifier (asks [(14, 5)] 8)) serving).fn 0).resp 0 16
    = [0, 9, 1, 0, 0, 0, 7, 0, 1, 0, 0, 0, 0, 0, 0, 0] := by decide +kernel
/-- A repeat of the last request leaves next_seq at 0x2B; the vector, masked after reset, pends. -/
def repeated : State := after (.getIdentity idMsg) (withFn fun x => { x with seqAny := false, nextSeq := 0x2B })
theorem test_repeat : (repeated.fn 0).nextSeq = 0x2B ∧ (repeated.fn 0).done = true ∧ (mapGet {} (repeated.fn 0).msix 0).pending = true := by decide +kernel
theorem test_doorbell_to_busy_mailbox : ((after (.getIdentity idMsg) (withFn fun x => { x with busy := true })).fn 0).dbIgnored = true := by
  decide +kernel
/-- R244: a queue's tail moves to the value written. -/
theorem test_doorbell_tail : ((after (.doorbellTailWrite 0 0 3) (live [])).queue 0).tail = 3 := by decide +kernel
/-- The power states' example: a busy queue refuses Dormant with 0x6001, which is counted. -/
theorem test_dormant_refused : leNat (slice (bytesAt ((after (.enterDormant (asks [(3, 3)] 8)) (live [])).fn 0).resp 0 16) 12 2) = 0x6001
    ∧ (after (.enterDormant (asks [(3, 3)] 8)) (live [])).pow.last = 0x01 := by decide +kernel

/-! ## Fabric -/

/-- The routing example, 32 × 32 × 16: from module 0x0431 at (17, 1, 1) to 0x27C2 the packet goes -x, from (2, 1, 1) -y, from
(2, 30, 1) +z. -/
theorem test_dimension_order : dimensionOrder ⟨31, 31, 15, 0xFFFFFFFFF⟩ 0x0431 0x27C2 = 1 ∧ dimensionOrder ⟨31, 31, 15, 0xFFFFFFFFF⟩ 0x0422 0x27C2 = 3
    ∧ dimensionOrder ⟨31, 31, 15, 0xFFFFFFFFF⟩ 0x07C2 0x27C2 = 4 := by decide +kernel
theorem test_time_to_live : (after (.routeThrough 2 { pkt 0 0 0 [] with dst := 1, ttl := 64 }) routed).fab.out.length = 1 := by decide +kernel
/-- R325: an identifier is set while no plan is loaded. -/
theorem test_module_identifier : (after (.setModuleIdentifier (asks [(14, 0x0431)] 8)) serving).fab.modId = 0x0431 := by decide +kernel
theorem test_port_width : ((after (.portTrained 2 0x1EF) (port2 { state := 1 })).port 2).state = 2
    ∧ ((after (.portTrained 2 0x0F0) (port2 { state := 1 })).port 2).state = 3
    ∧ ((after (.portTrained 2 0x007) (port2 { state := 1 })).port 2).state = 4 := by decide +kernel
/-- R311: five bad symbols drop the codeword, four do not. -/
theorem test_codeword_limits : ((after (.codewordReceive 2 { flit with badSymbols := 5 }) (port2 { state := 2 })).port 2).rxSeq = 0
    ∧ ((after (.codewordReceive 2 { flit with badSymbols := 4 }) (port2 { state := 2 })).port 2).rxSeq = 1 := by decide +kernel

/-! ## Power, pins, boot -/

theorem test_power_on : (after .pwrEnAssert State.reset).pow.mode = .powered := by decide +kernel
/-- R497: a release of PWR_EN starts the 500 ms off time. -/
theorem test_off_time : (after .pwrEnDeassert { serving with time := 7 }).pow.offUntil = some 500000007 := by decide +kernel
/-- R483: a press opens the presence window for 60 s. -/
theorem test_presence : (after .presencePress { serving with time := 5 }).boot.presenceCloses = 60000000005 := by decide +kernel
theorem test_sag_warning : (after .sagWarningAssert serving).capo.sagWarn = true := by decide +kernel
theorem test_refclk_loss : (after .refclkLoss serving).pow.refclk = false := by decide +kernel
theorem test_heartbeat : (after .firmwareHeartbeat { serving with time := 9 }).flt.heartbeat = 9 := by decide +kernel
theorem test_die_reset_fences : (after (.engineWatchdog (.stackAgent 23)) serving).flt.nextNo = 2 := by decide +kernel
theorem test_endpoint : (after (.setEndpointId 0x42) serving).side.eid = 0x42 := by decide +kernel

/-! ## The queue of commands -/

/-- A step takes the front command; on an empty queue a nanosecond passes. -/
theorem test_step_takes_front : (match step { serving with pending := [.setEndpointId 7, .setEndpointId 8] } with
    | .next t => (t.side.eid, t.pending.length) | _ => (0, 0)) = (7, 1) := by decide +kernel
theorem test_step_idles : (match step State.reset with | .next t => t.time | _ => 0) = 1 := by decide +kernel

end Sys2Proof.Tests
end

/-! Detections: what a fault record leaves in the fault ring, what a fence and abandoned work leave unchanged, and
the statement that the detections outside a tile's arithmetic record and fence (R23, R33, R39 to R41, R404 to
R411). -/

namespace Sys2Proof.Machine

/-! ## What a report leaves unchanged -/

section Reports
variable {s s' : State} (h : s.reportsTo s')
include h

theorem State.reportsTo.tile (t : TileId) : s'.tile t = s.tile t := (congrArg (fun x : State => x.tile t) h :)
theorem State.reportsTo.die (d : DieId) : s'.die d = s.die d := (congrArg (fun x : State => x.die d) h :)
theorem State.reportsTo.queue (q : QueueId) : s'.queue q = s.queue q := (congrArg (fun x : State => x.queue q) h :)
theorem State.reportsTo.time : s'.time = s.time := (congrArg State.time h :)
theorem State.reportsTo.colls : s'.colls = s.colls := (congrArg State.colls h :)
theorem State.reportsTo.xqs : s'.xqs = s.xqs := (congrArg State.xqs h :)
theorem State.reportsTo.boot : s'.boot = s.boot := (congrArg State.boot h :)
theorem State.reportsTo.pow : s'.pow = s.pow := (congrArg State.pow h :)
theorem State.reportsTo.jobs : s'.jobs = s.jobs := (congrArg State.jobs h :)
theorem State.reportsTo.tileCause : s'.flt.tileCause = s.flt.tileCause := (congrArg (fun x : State => x.flt.tileCause) h :)
theorem State.reportsTo.warmCause : s'.flt.warmCause = s.flt.warmCause := (congrArg (fun x : State => x.flt.warmCause) h :)
theorem State.reportsTo.replays : s'.flt.replays = s.flt.replays := (congrArg (fun x : State => x.flt.replays) h :)
theorem State.reportsTo.linksDown : s'.flt.linksDown = s.flt.linksDown := (congrArg (fun x : State => x.flt.linksDown) h :)

end Reports

@[simp] theorem State.recordFault_number (s : State) (r : FaultRec) : (s.recordFault r).1 = s.flt.nextNo := rfl

/-! ## The fields of a fault record (R410) -/

/-- A field of a field. -/
theorem bits_bits (v hi lo top base : Nat) (h : hi ≤ top) :
    bits (bits v (base + top) base) hi lo = bits v (base + hi) (base + lo) := by
  unfold bits
  rcases Nat.lt_or_ge hi lo with hl | hl
  · rw [show hi + 1 - lo = 0 by omega, show base + hi + 1 - (base + lo) = 0 by omega]
    simp [Nat.mod_one]
  · have key := bits_mod (v / 2 ^ base) hi lo (top + 1) (by omega) hl
    unfold bits at key
    rw [show base + top + 1 - base = top + 1 by omega, key, Nat.div_div_eq_div_mul, ← Nat.pow_add]
    congr 2; omega

@[simp] theorem FaultRec.length_bytes (r : FaultRec) (no : BitVec 24) (st : Word) (q : BitVec 32) :
    (r.bytes no st q).length = 64 := length_natLe _ _

/-- What a record says of its fault, field by field: the bits of the header and their value. -/
def FaultRec.fields (r : FaultRec) : List (Nat × Nat × Nat) :=
  [(31, 24, r.kind.toNat), (47, 32, r.status.toNat), (56, 56, bnat r.masked), (207, 192, r.src.toNat),
   (268, 264, (r.die.map Fin.val).getD 0x1F), (287, 280, r.mech.toNat), (351, 288, r.addr.toNat), (447, 416, r.count.toNat)]

theorem FaultRec.hasFields_bytes (r : FaultRec) (no : BitVec 24) (st : Word) (q : BitVec 32) :
    hasFields (leNat (r.bytes no st q)) ((23, 0, no.toNat) :: (191, 128, st.toNat) :: (511, 448, 0) :: r.fields) := by
  have hb : bnat r.masked % 2 ^ 1 = bnat r.masked := by cases r.masked <;> rfl
  have hd : (r.die.map Fin.val).getD 0x1F % 2 ^ 5 = (r.die.map Fin.val).getD 0x1F := by
    cases r.die with
    | none => rfl
    | some d => exact Nat.mod_eq_of_lt (Nat.lt_trans d.isLt (by decide))
  simp only [hasFields, FaultRec.fields, List.forall_mem_cons, FaultRec.bytes, bits_record, bits_pack_skip, bits_pack_head,
    Nat.reduceLeDiff, Nat.reduceSub, Nat.reduceAdd, Nat.reduceMul, Nat.reduceLT, BitVec.toNat_mod_cancel, hb, hd, Nat.zero_mod,
    true_and]
  simp

/-! ## The fault record in its slot (R299, R409) -/

/-- A line of device memory written whole (R226). -/
def State.lineWritten (s : State) (pa : Nat) (b : Bytes) : State :=
  { s with mem := putBytes s.mem pa b, poison := s.poison.filter (· ≠ pa / 64) }

/-- The state in which a record of a source goes into the rings: the source's and the fault number taken. -/
def State.numbered (s : State) (src : BitVec 16) : State :=
  { (s.nextSrcSeq src).2 with flt := { s.flt with nextNo := nextFaultNo s.flt.nextNo } }

theorem State.recordFault_simple (s : State) {r : FaultRec} (hd : r.detail = none) (hp : r.part = none) :
    (s.recordFault r).2 = (s.numbered r.src).ringPut 0 .fault [r.bytes s.flt.nextNo s.stamp (s.nextSrcSeq r.src).1] := by
  simp only [State.recordFault, hd, hp]; rfl

/-- A whole free line of device memory takes a write. -/
theorem State.agentWrite_line (s : State) (k : Bool) {pa o : Nat} {d : DieId} {b : Bytes} (hf : s.agentFenced pa = none)
    (hk : s.paKind pa = .region d o) (ho : o + 64 ≤ s.regionSize d) (ha : pa % 64 = 0) (hb : b.length = 64) :
    s.agentWrite k pa b = (s.lineWritten pa b, none) := by
  have hp : linePieces pa b = [(pa, b)] := by
    obtain ⟨x, y, rfl⟩ := List.exists_cons_of_length_eq_add_one hb
    simp [linePieces, cutLines, ha, hb, List.take_of_length_le, List.drop_of_length_le]
  simp [State.agentWrite, hf, hk, hb, hp, State.agentWritePieces, State.agentWriteLine, ha, State.lineWritten]
  omega

@[simp] theorem State.mem_raiseVector (s : State) (f : FnId) (e : Nat) : (s.raiseVector f e).mem = s.mem := by
  simp only [State.raiseVector]; split <;> rfl

@[simp] theorem State.mem_setCause (s : State) (f : FnId) (i : Nat) : (s.setCause f i).mem = s.mem := by
  simp only [State.setCause]; split <;> simp

@[simp] theorem State.mem_setRing (s : State) (f : FnId) (k : RingId) (r : Ring) : (s.setRing f k r).mem = s.mem := rfl

/-- A raised vector touches a function's MSI-X table alone (R298). -/
theorem State.fn_raiseVector (s : State) (f : FnId) (e : Nat) (g : FnId) :
    (s.raiseVector f e).fn g = { s.fn g with msix := ((s.raiseVector f e).fn g).msix } := by
  simp only [State.raiseVector]
  split
  · by_cases hg : g = f
    · subst hg; simp
    · simp [State.fn_updFn_ne _ _ hg]
  · rfl

/-- A cause that is set stands in KEV_CAUSE (R300). -/
theorem State.kevCause_setCause (s : State) (f : FnId) {i : Nat} (hi : i < 8) :
    ((s.setCause f i).fn f).kevCause.getLsbD i = true := by
  have hb : ((s.fn f).kevCause ||| BitVec.ofNat 8 (2 ^ i)).getLsbD i = true := by
    rw [BitVec.getLsbD_or, BitVec.getLsbD_ofNat, Nat.testBit_two_pow_self]
    simp [hi]
  simp only [State.setCause]
  split
  · rw [State.fn_setFn_self]; exact hb
  · rw [State.fn_raiseVector, State.fn_setFn_self]; exact hb

/-- A cause leaves the fault ring as it is. -/
@[simp] theorem State.faultRing_setCause (s : State) (f : FnId) (i : Nat) : ((s.setCause f i).fn f).flt = (s.fn f).flt := by
  simp only [State.setCause]
  split
  · rw [State.fn_setFn_self]
  · rw [State.fn_raiseVector, State.fn_setFn_self]

/-- The slot is free as long as functions, dies and stacks stay. -/
theorem State.faultSlot.after {a b : State} {pa : Nat} (h : a.faultSlot pa) (hf : b.fns = a.fns) (hd : b.dies = a.dies)
    (hm : b.memStacks = a.memStacks) : b.faultSlot pa := by
  simp only [State.faultSlot, State.fn, State.paKind, State.regionSize, State.dieInUse, State.stack, State.agentFenced,
    State.agentDie, State.die, hf, hd, hm] at h ⊢
  exact h

/-- A write of the ring goes into its slot. -/
theorem State.ringWriteAll_slot (s : State) {pa : Nat} {b : Bytes} (h : s.faultSlot pa) (hb : b.length = 64) :
    s.ringWriteAll 0 (s.fn 0).flt 0 [b] = (s.lineWritten pa b, none) := by
  obtain ⟨-, -, hat, hlt, hal, ⟨d, o, hk, ho⟩, hf⟩ := h
  have hspace : (2 * 2 ^ 60 + pa) / 2 ^ 60 = 2 := by omega
  have haddr : (2 * 2 ^ 60 + pa) % 2 ^ 48 = pa := by omega
  have hfn : partOfFn 0 = none := rfl
  simp only [State.ringWriteAll, State.ringWrite, Nat.add_zero, Ring.sizeLog2, hat, hspace, haddr, hfn,
    s.agentWrite_line false hf hk ho hal hb]

/-- A record put into the free slot of the fault ring lies there, and the ring counts it. -/
theorem State.ringPut_slot (s : State) {pa : Nat} {b : Bytes} (h : s.faultSlot pa) (hb : b.length = 64) :
    s.ringPut 0 .fault [b]
      = ((s.lineWritten pa b).setRing 0 .fault { (s.fn 0).flt with prod := (s.fn 0).flt.prod + 1 }).setCause 0 0 := by
  have hw := s.ringWriteAll_slot h hb
  obtain ⟨hen, hroom, -⟩ := h
  have hfit : ¬ ((s.fn 0).flt.prod - (s.fn 0).flt.cons).toNat + [b].length > 2 ^ (s.fn 0).flt.sizeLog2 := by
    simp only [List.length_singleton, Ring.sizeLog2]; omega
  simp only [State.ringPut, State.ringOf, Ring.enabled, hen, hfit, hw, Bool.not_true, Bool.false_eq_true, if_false]
  rfl

/-- A record of no partition, without detail, stands in the free slot with its fields (R409, R410). -/
theorem State.recordFault_stands (s : State) {pa : Nat} {r : FaultRec} (h : s.faultSlot pa) (hd : r.detail = none)
    (hp : r.part = none) : s.faultStands (s.recordFault r).2 pa r.fields := by
  have hlen := FaultRec.length_bytes r s.flt.nextNo s.stamp (s.nextSrcSeq r.src).1
  have hslot : (s.numbered r.src).faultSlot pa := h.after rfl rfl rfl
  rw [s.recordFault_simple hd hp, State.ringPut_slot _ hslot hlen]
  have hmem : (s.numbered r.src).mem = s.mem := rfl
  have hbytes := bytesAt_putBytes_self s.mem pa (r.bytes s.flt.nextNo s.stamp (s.nextSrcSeq r.src).1)
  rw [FaultRec.length_bytes] at hbytes
  refine ⟨?_, fun i hi => ?_, ?_, ?_⟩
  · simp only [State.mem_setCause, State.mem_setRing, State.lineWritten, hmem, hbytes]
    exact r.hasFields_bytes _ _ _
  · simp only [State.mem_setCause, State.mem_setRing, State.lineWritten, hmem]
    rw [byteAt_putBytes, hlen, if_neg (by omega)]
  · rw [State.faultRing_setCause, State.setRing, State.fn_updFn_self]
    rfl
  · exact State.kevCause_setCause _ 0 (by decide)

/-- A record that stands says whatever follows from its fields. -/
theorem State.faultStands.says {s s' : State} {pa : Nat} {l l' : List (Nat × Nat × Nat)} (h : s.faultStands s' pa l)
    (hl : ∀ v, hasFields v l → hasFields v l') : s.faultStands s' pa l' := by
  obtain ⟨hf, hrest⟩ := h
  simp only [hasFields, List.forall_mem_cons] at hf
  obtain ⟨hno, hstamp, hzero, hfields⟩ := hf
  refine ⟨?_, hrest⟩
  simp only [hasFields, List.forall_mem_cons]
  exact ⟨hno, hstamp, hzero, hl _ hfields⟩

/-- A record stands as long as memory and the functions do. -/
theorem State.faultStands.after {s a b : State} {pa : Nat} {l : List (Nat × Nat × Nat)} (h : s.faultStands a pa l)
    (hm : b.mem = a.mem) (hf : b.fns = a.fns) : s.faultStands b pa l := by
  have hfn : b.fn 0 = a.fn 0 := by simp only [State.fn, hf]
  unfold State.faultStands at h ⊢
  rwa [hm, hfn]

/-- A record is the next one of every earlier state that has the same number, time, memory and functions. -/
theorem State.faultStands.before {a b s' : State} {pa : Nat} {l : List (Nat × Nat × Nat)} (h : b.faultStands s' pa l)
    (hno : b.flt.nextNo = a.flt.nextNo) (ht : b.stamp = a.stamp) (hm : b.mem = a.mem) (hf : b.fns = a.fns) :
    a.faultStands s' pa l := by
  have hfn : b.fn 0 = a.fn 0 := by simp only [State.fn, hf]
  unfold State.faultStands at h ⊢
  rwa [hno, ht, hm, hfn] at h

/-! ## What a fence does (R219, R413) -/

/-- Only memory, tiles and dies differ. -/
def State.onlyUnits (s s' : State) : Prop :=
  s' = { s with mem := s'.mem, poison := s'.poison, tiles := s'.tiles, dies := s'.dies }


theorem State.onlyUnits.trans {a b c : State} (h : a.onlyUnits b) (k : b.onlyUnits c) : a.onlyUnits c :=
  Eq.trans k (congrArg (fun x : State => { x with mem := c.mem, poison := c.poison, tiles := c.tiles, dies := c.dies }) h)

/-- Only the cache of die `d`, and the memory behind it, differ. -/
structure State.WritesBack (d : DieId) (s s' : State) : Prop where
  frame : s.onlyUnits s'
  tiles : s'.tiles = s.tiles
  same : s'.die d = { s.die d with cache := (s'.die d).cache }
  other : ∀ e, e ≠ d → s'.die e = s.die e

theorem State.WritesBack.refl (d : DieId) (s : State) : State.WritesBack d s s := ⟨rfl, rfl, rfl, fun _ _ => rfl⟩

theorem State.WritesBack.trans {d : DieId} {a b c : State} (h : State.WritesBack d a b) (k : State.WritesBack d b c) :
    State.WritesBack d a c where
  frame := h.frame.trans k.frame
  tiles := k.tiles.trans h.tiles
  same := k.same.trans (congrArg (fun x : Die => { x with cache := (c.die d).cache }) h.same)
  other e he := (k.other e he).trans (h.other e he)

theorem State.setCline_writesBack (s : State) (d : DieId) (line : Nat) (l : Option CLine) :
    State.WritesBack d s (s.setCline d line l) :=
  ⟨rfl, rfl, by simp [State.setCline], fun _ he => State.die_updDie_ne _ _ he⟩

theorem State.writeBackLine_writesBack (s : State) (d : DieId) (line : Nat) (m : BitVec 64) :
    State.WritesBack d s (s.writeBackLine d line m).1 := by
  simp only [State.writeBackLine]
  split
  · exact .refl d s
  · split
    · exact .refl d s
    · split
      · exact .refl d s
      · split
        · exact .refl d s
        · have written (m : List Host.Cell) (p : List Nat) : State.WritesBack d s { s with mem := m, poison := p } :=
            ⟨rfl, rfl, rfl, fun _ _ => rfl⟩
          exact (written _ _).trans (State.setCline_writesBack _ d line _)

theorem State.writeBackAll_writesBack (s : State) (d : DieId) : State.WritesBack d s (s.writeBackAll d).1 :=
  List.foldlRecOn (motive := fun a : State × Option Fail => State.WritesBack d s a.1) _ _ (.refl d s)
    fun a ha e _ => ha.trans (a.1.writeBackLine_writesBack d e.1 _)

theorem State.dropCache_writesBack (s : State) (d : DieId) : State.WritesBack d s (s.dropCache d) :=
  (s.writeBackAll_writesBack d).trans ⟨rfl, rfl, by simp [State.dropCache], fun _ he => State.die_updDie_ne _ _ he⟩

theorem State.die_dropCache (s : State) (d e : DieId) :
    (s.dropCache d).die e = if e = d then { s.die e with cache := [] } else s.die e := by
  split
  · subst e
    rw [State.dropCache, State.die_updDie_self, (s.writeBackAll_writesBack d).same]
  · exact (s.dropCache_writesBack d).other e ‹_›

/-- An empty cache has nothing to write back. -/
theorem State.mem_dropCache (s : State) (d : DieId) (h : (s.die d).cache = []) : (s.dropCache d).mem = s.mem := by
  simp [State.dropCache, State.writeBackAll, h]

/-- The steps of a fence: tiles close, die caches are dropped, dies close. -/
def State.closeTiles (s : State) (l : List TileId) : State := l.foldl (fun a t => a.updTile t fun x => { x with inReset := true }) s
def State.dropCaches (s : State) (l : List DieId) : State := l.foldl (fun a d => a.dropCache d) s
def State.closeDies (s : State) (l : List DieId) : State := l.foldl (fun a d => a.updDie d fun x => { x with inReset := true }) s

/-- A fence while no collective runs. -/
theorem State.fence_eq (s : State) (m : Domain) (st : BitVec 16) (h : s.colls = []) :
    s.fence m st = ((s.closeTiles m.tiles).dropCaches m.wholeDies).closeDies m.wholeDies := by
  have habort : s.abortIn m st = s := by simp [State.abortIn, h]
  rw [State.fence, habort]
  rfl

theorem State.closeTiles_frame (s : State) (l : List TileId) :
    s.onlyUnits (s.closeTiles l) ∧ (s.closeTiles l).dies = s.dies ∧ (s.closeTiles l).mem = s.mem :=
  List.foldlRecOn (motive := fun a : State => s.onlyUnits a ∧ a.dies = s.dies ∧ a.mem = s.mem) l _ ⟨rfl, rfl, rfl⟩
    fun _ ⟨hu, hd, hm⟩ _ _ => ⟨hu.trans rfl, hd, hm⟩

theorem State.tile_closeTiles (s : State) (l : List TileId) (u : TileId) :
    (s.closeTiles l).tile u = if u ∈ l then { s.tile u with inReset := true } else s.tile u := by
  induction l generalizing s with
  | nil => rfl
  | cons t l ih =>
    have hs : s.closeTiles (t :: l) = (s.updTile t fun x => { x with inReset := true }).closeTiles l := rfl
    rw [hs, ih]
    by_cases hu : u = t
    · subst hu; simp
    · simp [hu, State.tile_updTile_ne _ _ hu]

theorem State.closeDies_frame (s : State) (l : List DieId) :
    s.onlyUnits (s.closeDies l) ∧ (s.closeDies l).tiles = s.tiles ∧ (s.closeDies l).mem = s.mem :=
  List.foldlRecOn (motive := fun a : State => s.onlyUnits a ∧ a.tiles = s.tiles ∧ a.mem = s.mem) l _ ⟨rfl, rfl, rfl⟩
    fun _ ⟨hu, ht, hm⟩ _ _ => ⟨hu.trans rfl, ht, hm⟩

theorem State.die_closeDies (s : State) (l : List DieId) (e : DieId) :
    (s.closeDies l).die e = if e ∈ l then { s.die e with inReset := true } else s.die e := by
  induction l generalizing s with
  | nil => rfl
  | cons d l ih =>
    have hs : s.closeDies (d :: l) = (s.updDie d fun x => { x with inReset := true }).closeDies l := rfl
    rw [hs, ih]
    by_cases he : e = d
    · subst he; simp
    · simp [he, State.die_updDie_ne _ _ he]

theorem State.dropCaches_frame (s : State) (l : List DieId) : s.onlyUnits (s.dropCaches l) ∧ (s.dropCaches l).tiles = s.tiles :=
  List.foldlRecOn (motive := fun a : State => s.onlyUnits a ∧ a.tiles = s.tiles) l _ ⟨rfl, rfl⟩
    fun a ⟨hu, ht⟩ d _ => ⟨hu.trans (a.dropCache_writesBack d).frame, (a.dropCache_writesBack d).tiles.trans ht⟩

theorem State.die_dropCaches (s : State) (l : List DieId) (e : DieId) :
    (s.dropCaches l).die e = if e ∈ l then { s.die e with cache := [] } else s.die e := by
  induction l generalizing s with
  | nil => rfl
  | cons d l ih =>
    have hs : s.dropCaches (d :: l) = (s.dropCache d).dropCaches l := rfl
    rw [hs, ih, State.die_dropCache]
    by_cases he : e = d <;> simp [he]

theorem State.mem_dropCaches (s : State) (l : List DieId) (h : ∀ d, (s.die d).cache = []) : (s.dropCaches l).mem = s.mem := by
  induction l generalizing s with
  | nil => rfl
  | cons d l ih =>
    have hs : s.dropCaches (d :: l) = (s.dropCache d).dropCaches l := rfl
    have hempty : ∀ e, ((s.dropCache d).die e).cache = [] := by
      intro e
      rw [State.die_dropCache]
      split
      · rfl
      · exact h e
    rw [hs, ih _ hempty, s.mem_dropCache d (h d)]

section Units
variable {s s' : State} (h : s.onlyUnits s')
include h

theorem State.onlyUnits.flt : s'.flt = s.flt := (congrArg State.flt h :)
theorem State.onlyUnits.boot : s'.boot = s.boot := (congrArg State.boot h :)
theorem State.onlyUnits.colls : s'.colls = s.colls := (congrArg State.colls h :)
theorem State.onlyUnits.fns : s'.fns = s.fns := (congrArg State.fns h :)
theorem State.onlyUnits.xqs : s'.xqs = s.xqs := (congrArg State.xqs h :)

end Units

theorem State.tile_of_tiles {s s' : State} (h : s'.tiles = s.tiles) (t : TileId) : s'.tile t = s.tile t := by
  simp only [State.tile, h]

theorem State.die_of_dies {s s' : State} (h : s'.dies = s.dies) (d : DieId) : s'.die d = s.die d := by
  simp only [State.die, h]

/-- What a domain's fence leaves: its tiles and dies closed, its die caches dropped, memory as it was where there was
nothing to write back, and what records and crossings need untouched. -/
structure State.Fenced (m : Domain) (s s' : State) : Prop where
  tile : ∀ t, s'.tile t = if t ∈ m.tiles then { s.tile t with inReset := true } else s.tile t
  die : ∀ d, s'.die d = if d ∈ m.wholeDies then { s.die d with inReset := true, cache := [] } else s.die d
  mem : (∀ d, (s.die d).cache = []) → s'.mem = s.mem
  colls : s'.colls = s.colls
  fns : s'.fns = s.fns
  xqs : s'.xqs = s.xqs

theorem State.fence_onlyUnits (s : State) (m : Domain) (st : BitVec 16) (h : s.colls = []) : s.onlyUnits (s.fence m st) := by
  rw [s.fence_eq m st h]
  exact ((s.closeTiles_frame _).1.trans (State.dropCaches_frame _ _).1).trans (State.closeDies_frame _ _).1

theorem State.fence_fenced (s : State) (m : Domain) (st : BitVec 16) (h : s.colls = []) : State.Fenced m s (s.fence m st) := by
  have hu := s.fence_onlyUnits m st h
  refine ⟨fun t => ?_, fun d => ?_, fun hempty => ?_, hu.colls, hu.fns, hu.xqs⟩ <;> rw [s.fence_eq m st h]
  all_goals
    obtain ⟨-, hdies, hmem⟩ := s.closeTiles_frame m.tiles
    obtain ⟨-, htiles⟩ := (s.closeTiles m.tiles).dropCaches_frame m.wholeDies
    obtain ⟨-, htiles', hmem'⟩ := ((s.closeTiles m.tiles).dropCaches m.wholeDies).closeDies_frame m.wholeDies
  · rw [State.tile_of_tiles htiles', State.tile_of_tiles htiles, State.tile_closeTiles]
  · rw [State.die_closeDies, State.die_dropCaches, State.die_of_dies hdies]
    split <;> rfl
  · rw [hmem', State.mem_dropCaches _ _ fun d => by rw [State.die_of_dies hdies, hempty], hmem]

/-! ## A die's reset becomes due (R412, R413) -/

theorem mem_dieTiles (d : DieId) (t : TileId) : t ∈ dieTiles d ↔ dieOf t = d := by
  simp only [dieTiles, List.mem_map, List.mem_finRange, true_and, dieOf, Fin.ext_iff]
  constructor
  · rintro ⟨i, hi⟩; omega
  · intro ht; exact ⟨⟨t.val % 8, by omega⟩, by simp only; omega⟩

section StartDie
variable (s : State) (d : DieId) (c : ResetCause) (hr : (s.die d).inReset = false) (hc : s.colls = [])
include hr hc

/-- The reset of a die in service fences the die and notes its cause. -/
theorem State.startDie_eq :
    s.startDie d c = { s.fence (.die d) c.given with flt := { s.flt with dieCause := mapPut none s.flt.dieCause d.val (some c) } } := by
  simp only [State.startDie, hr, Bool.false_eq_true, if_false, (s.fence_onlyUnits (.die d) c.given hc).flt]

theorem State.startDie_fenced : State.Fenced (.die d) s (s.startDie d c) := by
  obtain ⟨htile, hdie, hmem, hcolls, hfns, hxqs⟩ := s.fence_fenced (.die d) c.given hc
  rw [s.startDie_eq d c hr hc]
  generalize s.fence (.die d) c.given = x at *
  exact ⟨htile, hdie, hmem, hcolls, hfns, hxqs⟩

theorem State.dieCause_startDie (e : DieId) : mapGet none (s.startDie d c).flt.dieCause e.val
    = if e = d then some c else mapGet none s.flt.dieCause e.val := by
  rw [s.startDie_eq d c hr hc]
  simp [mapGet_put, Fin.ext_iff]

theorem State.die_startDie (e : DieId) :
    (s.startDie d c).die e = if e = d then { s.die e with inReset := true, cache := [] } else s.die e := by
  rw [(s.startDie_fenced d c hr hc).die]
  simp only [Domain.wholeDies, List.mem_singleton]

theorem State.tile_startDie (t : TileId) :
    (s.startDie d c).tile t = if dieOf t = d then { s.tile t with inReset := true } else s.tile t := by
  rw [(s.startDie_fenced d c hr hc).tile]
  simp only [Domain.tiles, mem_dieTiles]

theorem State.startDie_dieStops : s.dieStops (s.startDie d c) d c := by
  refine ⟨?_, ?_, s.tile_startDie d c hr hc, fun e he => ?_⟩
  · rw [s.dieCause_startDie d c hr hc, if_pos rfl]
  · rw [s.die_startDie d c hr hc, if_pos rfl]
  · rw [s.die_startDie d c hr hc, if_neg he]

end StartDie

/-- What leaves tiles and dies as they are is no part of a die's stop. -/
theorem State.dieStops.before {a b s' : State} {d : DieId} {c : ResetCause} (k : b.dieStops s' d c) (ht : ∀ t, b.tile t = a.tile t)
    (hd : ∀ e, b.die e = a.die e) : a.dieStops s' d c := by
  unfold State.dieStops at k ⊢
  simpa only [ht, hd] using k

/-! ## A module-warm reset becomes due (R412, R413, R461) -/

/-- Reports between changes of the power counters, folded over a list. -/
theorem State.reportsTo.foldl_pow {β : Type} {f : State → β → State}
    (h : ∀ a x, State.reportsTo { a with pow := (f a x).pow } (f a x)) (l : List β) (s : State) :
    State.reportsTo { s with pow := (l.foldl f s).pow } (l.foldl f s) :=
  List.foldlRecOn (motive := fun a : State => State.reportsTo { s with pow := a.pow } a) l f (State.reportsTo.refl s)
    fun a ha x _ => State.reportsTo.trans (congrArg (fun y : State => { y with pow := (f a x).pow }) ha :) (h a x)

/-- Entries that end are counted and reported; no other work of firmware is touched. -/
theorem State.endEntries_reportsTo (s : State) :
    State.reportsTo { s with pow := s.endEntries.pow, jobs := s.endEntries.jobs } s.endEntries := by
  have fold := State.reportsTo.foldl_pow (f := fun (a : State) (j : Job) => match j.kind with
    | .power _ => (a.countRefusal 0x08 true).event (srcHub 0) 0x08 0x08
    | _ => a) (fun a j => by
      split
      · have he := (a.countRefusal 0x08 true).event_reportsTo (srcHub 0) 0x08 0x08 none
        rw [he.pow]
        exact he
      · exact State.reportsTo.refl a) s.jobs s
  exact (congrArg (fun x : State => { x with jobs := s.endEntries.jobs }) fold :)

theorem State.tile_endEntries (s : State) (t : TileId) : s.endEntries.tile t = s.tile t := s.endEntries_reportsTo.tile t
theorem State.die_endEntries (s : State) (d : DieId) : s.endEntries.die d = s.die d := s.endEntries_reportsTo.die d

/-- Without work of firmware nothing ends. -/
theorem State.endEntries_idle (s : State) (h : s.jobs = []) : s.endEntries = s := by
  have hs : s = { s with jobs := [] } := by rw [← h]
  rw [hs]; rfl

theorem mem_moduleTiles (t : TileId) : t ∈ Domain.module.tiles := List.mem_finRange t
theorem mem_moduleDies (d : DieId) : d ∈ Domain.module.wholeDies := List.mem_finRange d

/-- A module-warm reset noted as due in a fenced module, at the time `n`. -/
def State.warmDue (x : State) (n : Nat) (c : ResetCause) : State :=
  { x with
    flt := { x.flt with tileCause := [], dieCause := [], warmCause := some c }
    boot := { x.boot with state := 3, running := false, presenceOpen := false, started := n
                          startKind := if c.sag then 0x03 else 0x02 } }

@[simp] theorem State.mem_warmDue (x : State) (n : Nat) (c : ResetCause) : (x.warmDue n c).mem = x.mem := rfl
@[simp] theorem State.fns_warmDue (x : State) (n : Nat) (c : ResetCause) : (x.warmDue n c).fns = x.fns := rfl
@[simp] theorem State.latchedReason_warmDue (x : State) (n : Nat) (c : ResetCause) :
    (x.warmDue n c).boot.latchedReason = x.boot.latchedReason := rfl

/-- A module whose boot state is that of `s` and whose units are all closed has stopped. -/
theorem State.warmDue_moduleStops {s x : State} (c : ResetCause) (hb : x.boot = s.boot)
    (ht : ∀ t, x.tile t = { s.tile t with inReset := true }) (hd : ∀ d, x.die d = { s.die d with inReset := true, cache := [] }) :
    s.moduleStops (x.warmDue s.time c) c :=
  ⟨rfl, rfl, rfl, by simp only [State.warmDue, hb], ht, hd⟩

theorem State.boot_fenceModule (s : State) (c : ResetCause) (hc : s.colls = []) : (s.endEntries.fence .module c.given).boot = s.boot :=
  have hr := s.endEntries_reportsTo
  (s.endEntries.fence_onlyUnits .module c.given (hr.colls.trans hc)).boot.trans hr.boot

section StartWarm
variable (s : State) (c : ResetCause) (hw : s.flt.warmCause = none) (hp : s.pow.mode = .powered) (hc : s.colls = [])
include hw hp

theorem State.startWarm_eq : s.startWarm c = (s.endEntries.fence .module c.given).warmDue s.time c := by
  simp only [State.startWarm, hw, hp, ne_eq, not_true, if_false, State.warmDue]

include hc

theorem State.startWarm_moduleStops : s.moduleStops (s.startWarm c) c := by
  have hf := s.endEntries.fence_fenced .module c.given (s.endEntries_reportsTo.colls.trans hc)
  rw [s.startWarm_eq c hw hp]
  refine State.warmDue_moduleStops c (s.boot_fenceModule c hc) (fun t => ?_) fun d => ?_
  · rw [hf.tile, if_pos (mem_moduleTiles t), s.tile_endEntries]
  · rw [hf.die, if_pos (mem_moduleDies d), s.die_endEntries]

theorem State.latchedReason_startWarm : (s.startWarm c).boot.latchedReason = s.boot.latchedReason := by
  rw [s.startWarm_eq c hw hp, State.latchedReason_warmDue, s.boot_fenceModule c hc]

/-- Where no cache holds anything and firmware has no work, memory and the functions stay. -/
theorem State.startWarm_idle (hj : s.jobs = []) (he : ∀ d, (s.die d).cache = []) :
    (s.startWarm c).mem = s.mem ∧ (s.startWarm c).fns = s.fns := by
  have hf := s.fence_fenced .module c.given hc
  rw [s.startWarm_eq c hw hp, s.endEntries_idle hj, State.mem_warmDue, State.fns_warmDue]
  exact ⟨hf.mem he, hf.fns⟩

end StartWarm

/-- What leaves tiles, dies and time as they are, and the reason latched then, are no part of a module's stop. -/
theorem State.moduleStops.before {a b s' : State} {c : ResetCause} {why : Byte} (k : b.moduleStops s' c) (ht : ∀ t, b.tile t = a.tile t)
    (hd : ∀ d, b.die d = a.die d) (hn : b.time = a.time) (hb : b.boot = { a.boot with latchedReason := why }) : a.moduleStops s' c := by
  unfold State.moduleStops at k ⊢
  simpa only [ht, hd, hn, hb] using k

/-! ## What abandoned work leaves (R116, R145, R267, R276) -/

/-- Queues hold the same commands, tiles stay closed or open, and the tile resets that are due stay due. -/
structure State.KeepsService (s s' : State) : Prop where
  cmds : ∀ q, (s'.queue q).cmds = (s.queue q).cmds
  tileCause : s'.flt.tileCause = s.flt.tileCause
  inReset : ∀ t, (s'.tile t).inReset = (s.tile t).inReset

theorem State.KeepsService.refl (s : State) : s.KeepsService s := ⟨fun _ => rfl, rfl, fun _ => rfl⟩

theorem State.KeepsService.trans {a b c : State} (h : a.KeepsService b) (k : b.KeepsService c) : a.KeepsService c where
  cmds q := (k.cmds q).trans (h.cmds q)
  tileCause := k.tileCause.trans h.tileCause
  inReset t := (k.inReset t).trans (h.inReset t)

theorem State.KeepsService.foldl {β : Type} {f : State → β → State} (h : ∀ (a : State) x, a.KeepsService (f a x)) (l : List β) (s : State) :
    s.KeepsService (l.foldl f s) :=
  List.foldlRecOn (motive := s.KeepsService) l f (.refl s) fun a ha x _ => ha.trans (h a x)

/-- Steps that touch neither queues, nor fault unit, nor tiles. -/
theorem State.KeepsService.of_eq {s s' : State} (hq : s'.queues = s.queues) (hf : s'.flt = s.flt) (ht : s'.tiles = s.tiles) :
    s.KeepsService s' where
  cmds q := by simp only [State.queue, hq]
  tileCause := by rw [hf]
  inReset t := by simp only [State.tile, ht]

theorem State.reportsTo.keepsService {s s' : State} (h : s.reportsTo s') : s.KeepsService s' where
  cmds q := by rw [h.queue]
  tileCause := h.tileCause
  inReset t := by rw [h.tile]

theorem State.updTile_keepsService (s : State) (t : TileId) {f : Tile → Tile} (hf : ∀ x, (f x).inReset = x.inReset) :
    s.KeepsService (s.updTile t f) where
  cmds _ := rfl
  tileCause := rfl
  inReset u := by
    by_cases hu : u = t
    · subst hu; rw [State.tile_updTile_self, hf]
    · rw [State.tile_updTile_ne _ _ hu]

theorem State.setQueue_keepsService (s : State) (q : QueueId) {x : Queue} (hx : x.cmds = (s.queue q).cmds) :
    s.KeepsService (s.setQueue q x) where
  cmds r := by
    by_cases hr : r = q
    · subst hr; rw [State.queue_setQueue_self, hx]
    · rw [State.queue_setQueue_ne _ _ hr]
  tileCause := rfl
  inReset _ := rfl

theorem State.dieAgentWrite_keepsService (s : State) (d : DieId) (k : Bool) (pa : Nat) (b : Bytes) :
    s.KeepsService (s.dieAgentWrite d k pa b).1 := by
  unfold State.dieAgentWrite
  split
  · exact .refl s
  · exact (s.agentWrite_reportsTo k pa b).keepsService

theorem State.setCline_keepsService (s : State) (d : DieId) (line : Nat) (l : Option CLine) :
    s.KeepsService (s.setCline d line l) := .of_eq rfl rfl rfl

theorem State.cacheWriteLine_keepsService (s : State) (d : DieId) (k : Bool) (pol : Policy) (pa : Nat) (b : Bytes) :
    s.KeepsService (s.cacheWriteLine d k pol pa b).1 := by
  have hw := s.dieAgentWrite_keepsService d k pa b
  simp only [State.cacheWriteLine]
  split
  · exact s.setCline_keepsService _ _ _
  · split
    · exact hw.trans (State.setCline_keepsService _ _ _ _)
    · exact hw
  · exact hw

theorem State.dieWriteVa_keepsService (d : DieId) (p : PartId) (k : Bool) (pol : Policy) (l : List (Nat × Bytes)) :
    ∀ s : State, s.KeepsService (s.dieWriteVa d p k pol l).1 := by
  induction l with
  | nil => exact .refl
  | cons e l ih =>
    intro s
    unfold State.dieWriteVa
    split
    · exact .refl s
    · rename_i x _
      have h := s.cacheWriteLine_keepsService d k (if x.nocache then .bypass else pol) x.pa e.2
      split
      · rename_i h2; rw [h2] at h; exact h.trans (ih _)
      · rename_i h2; rw [h2] at h; exact h

theorem State.scratchWrite_keepsService (s : State) (t : TileId) (o : Nat) (b : Bytes) :
    s.KeepsService (s.updTile t fun x => x.scratchWrite o b) := s.updTile_keepsService t fun _ => rfl

theorem State.reachWrite_keepsService (s : State) (t : TileId) (pol : Policy) (a : Word) (b : Bytes) :
    s.KeepsService (s.reachWrite t pol a b).1 := by
  unfold State.reachWrite
  split
  · exact .refl s
  · split
    · exact .refl s
    · exact s.scratchWrite_keepsService _ _ b
  · split
    · exact .refl s
    · split
      · exact .refl s
      · exact s.scratchWrite_keepsService _ _ b
  · exact State.dieWriteVa_keepsService _ _ _ _ _ s
  · exact (s.hostWrite_reportsTo _ _).keepsService
  · exact .refl s

theorem State.drawBytes_keepsService (s : State) (n : Nat) : s.KeepsService (s.drawBytes n).2 := .of_eq rfl rfl rfl

theorem State.scribble_keepsService (s : State) (t : TileId) (a n : Nat) : s.KeepsService (s.scribble t a n) := by
  unfold State.scribble
  split
  · exact .refl s
  · exact (s.drawBytes_keepsService n).trans (State.updTile_keepsService _ _ fun _ => rfl)

theorem State.scribbleOut_keepsService (s : State) (t : TileId) (i : MatInstr) : s.KeepsService (s.scribbleOut t i) := by
  unfold State.scribbleOut
  split
  · exact .refl s
  · exact .foldl (fun a _ => a.scribble_keepsService _ _ _) _ s

theorem State.abandonPane_keepsService (s : State) (t : TileId) (p : PaneId) : s.KeepsService (s.abandonPane t p) := by
  unfold State.abandonPane
  split
  · exact s.updTile_keepsService _ fun _ => rfl
  · exact (s.scribbleOut_keepsService t _).trans (State.updTile_keepsService _ _ fun _ => rfl)

theorem State.abandonTile_keepsService (s : State) (t : TileId) : s.KeepsService (s.abandonTile t) := by
  have hpanes := State.KeepsService.foldl (fun a p => a.abandonPane_keepsService t p) (List.finRange 16) s
  unfold State.abandonTile
  generalize (List.finRange 16).foldl (fun a p => a.abandonPane t p) s = x at *
  exact (hpanes.trans (x.updTile_keepsService t (f := Tile.clearProgram) fun _ => rfl)).trans (.of_eq rfl rfl rfl)

theorem State.scribbleOuts_keepsService (s : State) (x : Cmd) : s.KeepsService (s.scribbleOuts x) := by
  unfold State.scribbleOuts
  split
  · exact .refl s
  · refine .foldl (fun a r => ?_) _ s
    exact (a.drawBytes_keepsService r.2).trans (State.reachWrite_keepsService _ _ _ _ _)

/-- The tiles that a command holds are abandoned. -/
theorem State.abandonHeld_keepsService (s : State) (c : CmdId) (l : List TileId) :
    s.KeepsService (l.foldl (fun a t => if (a.tile t).cmd = some c then a.abandonTile t else a) s) := by
  refine .foldl (fun a t => ?_) l s
  split
  · exact a.abandonTile_keepsService t
  · exact .refl a

theorem State.forget_keepsService (s : State) (c : CmdId) (l : List Coll) :
    s.KeepsService { s.dropWaits c with colls := l } := .of_eq rfl rfl rfl

theorem State.abandonWork_keepsService (s : State) (c : CmdId) : s.KeepsService (s.abandonWork c) := by
  simp only [State.abandonWork]
  split
  · exact .refl s
  · rename_i x _
    have hheld := s.abandonHeld_keepsService c x.holds
    have hrest (a : State) (ha : s.KeepsService a) : s.KeepsService
        { (if x.stage = .begun then a.scribbleOuts x else a).dropWaits c with
          colls := ((if x.stage = .begun then a.scribbleOuts x else a).dropWaits c).colls.filter fun k => k.cmd ≠ c } := by
      split
      · exact (ha.trans (a.scribbleOuts_keepsService x)).trans (State.forget_keepsService _ _ _)
      · exact ha.trans (State.forget_keepsService _ _ _)
    refine hrest _ ?_
    split
    · split
      · exact hheld.trans (State.updTile_keepsService _ _ fun _ => rfl)
      · exact hheld
    · exact hheld

theorem State.dropPreloads_keepsService (s : State) (q : QueueId) : s.KeepsService (s.dropPreloads q) := by
  unfold State.dropPreloads
  refine .foldl (fun a t => ?_) allTiles s
  split
  · exact a.updTile_keepsService t fun _ => rfl
  · exact .refl a

/-! ## The failure of a command alone in its queue (R267, R407, R412) -/

/-- Command `x`, which `c` names, is alone in flight in its queue. -/
def State.Alone (s : State) (c : CmdId) (x : Cmd) : Prop := (s.queue c.queue).cmds = [x] ∧ x.id = c.id

theorem State.KeepsService.alone {s s' : State} {c : CmdId} {x : Cmd} (h : s.KeepsService s') (ha : s.Alone c x) : s'.Alone c x :=
  ⟨(h.cmds c.queue).trans ha.1, ha.2⟩

theorem State.Alone.cmd? {s : State} {c : CmdId} {x : Cmd} (h : s.Alone c x) : s.cmd? c = some x := by
  simp [State.cmd?, h.1, h.2]

theorem State.Alone.updCmd {s : State} {c : CmdId} {x : Cmd} (h : s.Alone c x) {f : Cmd → Cmd} (hf : (f x).id = x.id) :
    (s.updCmd c f).Alone c (f x) := by
  refine ⟨?_, hf.trans h.2⟩
  simp [State.updCmd, h.1, h.2]

/-- No later command is cancelled. -/
theorem State.haltFor_keepsService {s : State} {c : CmdId} {x : Cmd} (h : s.Alone c x) : s.KeepsService (s.haltFor c) := by
  simp only [State.haltFor]
  split
  · exact .refl s
  · have hlater (a : State) (ha : s.KeepsService a) :
        s.KeepsService ((a.laterCmds c).foldl (fun b d => b.cancelCmd d 0x8001) a) := by
      obtain ⟨hcmds, hid⟩ := ha.alone h
      have hnone : a.laterCmds c = [] := by simp [State.laterCmds, hcmds, hid]
      rw [hnone]
      exact ha
    refine hlater _ (State.KeepsService.trans ?_ (State.dropPreloads_keepsService _ _))
    exact s.setQueue_keepsService _ rfl

/-- The first fault by a mechanism is logged. -/
theorem State.noteTileFault_first (s : State) (t : TileId) (mech : Byte) (h : (s.tile t).mechLog = []) :
    s.noteTileFault t mech = s.setTile t { s.tile t with mechLog := [(mech, s.time)] } := by
  simp [State.noteTileFault, h]

/-- A tile's first detection closes the tile and makes its reset due; commands go on. -/
theorem State.tileDetection_first (s : State) (t : TileId) (st : BitVec 16) (no : BitVec 24) (mech : Byte)
    (hm : (s.tile t).mechLog = []) (hc : mapGet none s.flt.tileCause t.val = none) :
    let s' := s.tileDetection t st no mech
    s'.queues = s.queues ∧ s'.colls = s.colls ∧ (s'.tile t).inReset = true
      ∧ mapGet none s'.flt.tileCause t.val = some ⟨st, no, mech, false⟩ := by
  have hclosed (x : State) (hq : x.queues = s.queues) (hcol : x.colls = s.colls) (hf : x.flt = s.flt) :
      let y := x.updTile t fun z => { z with inReset := true }
      y.queues = s.queues ∧ y.colls = s.colls ∧ y.flt = s.flt ∧ (y.tile t).inReset = true := by
    simp [hq, hcol, hf]
  have hy := hclosed (s.noteTileFault t mech) (by simp [s.noteTileFault_first t mech hm])
    (by simp [s.noteTileFault_first t mech hm]) (by simp [s.noteTileFault_first t mech hm])
  simp only [State.tileDetection]
  generalize (s.noteTileFault t mech).updTile t _ = y at *
  obtain ⟨hq, hcol, hf, hin⟩ := hy
  simp only [hf, hc]
  exact ⟨hq, hcol, hin, by simp⟩

/-- A begun command that is marked, abandoned and finished ends with its status; no tile opens, no reset is forgotten. -/
theorem State.abandonedEnd (s : State) {c : CmdId} {x : Cmd} {g : Cmd → Cmd} {st : BitVec 16} {now : Word} (ha : s.Alone c x)
    (hbegun : x.stage = .begun) (hg : ∀ y, (g y).id = y.id ∧ (g y).stage = y.stage) :
    let s' := (((s.updCmd c g).abandonWork c).updCmd c fun y => y.finish st now).haltFor c
    s'.endsWith c st ∧ s'.flt.tileCause = s.flt.tileCause ∧ ∀ t, (s'.tile t).inReset = (s.tile t).inReset := by
  have hmarked : (s.updCmd c g).Alone c (g x) := ha.updCmd (hg x).1
  have hwork := (s.updCmd c g).abandonWork_keepsService c
  have hleft := hwork.alone hmarked
  generalize (s.updCmd c g).abandonWork c = a at *
  have hdone : (a.updCmd c fun y => y.finish st now).Alone c ((g x).finish st now) := hleft.updCmd rfl
  have hhalt := State.haltFor_keepsService hdone
  refine ⟨⟨_, (hhalt.alone hdone).cmd?, rfl, ?_⟩, hhalt.tileCause.trans hwork.tileCause,
    fun t => (hhalt.inReset t).trans (hwork.inReset t)⟩
  simp [Cmd.finish, (hg x).2, hbegun]

/-- What a detected fault of a tile's unit leaves of the command that the unit served. -/
theorem State.failCmd_unit (s : State) {t : TileId} {c : CmdId} {x : Cmd} {e : Fail} (eng : Byte) (hrec : writesRecord e.status = true)
    (hunit : tileUnitStatus e.status = true) (ha : s.Alone c x) (hbegun : x.stage = .begun) (hcolls : s.colls = [])
    (hm : (s.tile t).mechLog = []) (hc : mapGet none s.flt.tileCause t.val = none) :
    let s' := s.failCmd c e eng (some t)
    s'.endsWith c e.status ∧ (s'.tile t).inReset = true
      ∧ mapGet none s'.flt.tileCause t.val = some ⟨e.status, s.flt.nextNo, e.mech, false⟩ := by
  have hno : (s.recordCmdFault c e eng (some t)).1 = s.flt.nextNo := rfl
  have hr : s.reportsTo (s.recordCmdFault c e eng (some t)).2 := s.recordFault_reportsTo _
  simp only [State.failCmd, hrec, hunit, if_true, hno]
  generalize (s.recordCmdFault c e eng (some t)).2 = s1 at *
  have hd := s1.tileDetection_first t e.status s.flt.nextNo e.mech (by rw [hr.tile, hm]) (by rw [hr.tileCause, hc])
  generalize s1.tileDetection t e.status s.flt.nextNo e.mech = s2 at *
  obtain ⟨hq, hcol, hin, hcause⟩ := hd
  have ha2 : s2.Alone c x := by
    have ha1 := hr.keepsService.alone ha
    simpa only [State.Alone, State.queue, hq] using ha1
  have hcol2 : s2.colls = [] := by rw [hcol, hr.colls, hcolls]
  have hlive : x.live = true := by simp [Cmd.live, hbegun]
  obtain ⟨hend, hkcause, hkin⟩ := s2.abandonedEnd ha2 hbegun (g := fun y => { y with
    engine := eng, faultRef := s.flt.nextNo, flags := y.flags ||| s2.tileFlags y }) (st := e.status) (now := s.stamp)
    fun _ => ⟨rfl, rfl⟩
  simp only [ha2.cmd?, hlive, hcol2, List.any_nil, Bool.not_true, Bool.false_eq_true, and_false, if_false]
  exact ⟨hend, (hkin t).trans hin, by rw [hkcause, hcause]⟩

/-! ## Watchdogs (R407) -/

/-- A hang of a tile's engine ends the command that the engine serves and makes the tile's reset due. -/
theorem State.failTile_hung (s : State) {t : TileId} {c : CmdId} {x : Cmd} (eng : Byte) (h : s.engineCmd t c x) :
    let s' := s.failTile t hung eng
    s'.endsWith c 0x9008 ∧ (s'.tile t).inReset = true ∧ mapGet none s'.flt.tileCause t.val = some ⟨0x9008, s.flt.nextNo, 0x13, false⟩ := by
  obtain ⟨hcmd, hres, hlog, hcmds, hid, hbegun, -, hcolls, hcause⟩ := h
  have htile : s.tileCmd t = some c := by simp [State.tileCmd, hres, hcmd]
  have hfail := s.failCmd_unit (e := hung) eng (by decide) (by decide) ⟨hcmds, hid⟩ hbegun hcolls hlog hcause
  simp only [State.failTile, htile, hcmd, hres, Bool.false_eq_true, if_false]
  exact hfail

theorem exec_engineWatchdog {s : State} {e : EngineId} (hp : s.pow.mode = .powered) (hb : s.engineBusy e = true) :
    exec (.engineWatchdog e) s = .next (s.watchdog e) := by
  have harm : exec (.engineWatchdog e) s = execEngineWatchdog e s := rfl
  simp [harm, execEngineWatchdog, hp, hb]

theorem engineWatchdog_endsCommand (s : State) (e : TileId → EngineId) (t : TileId) (c : CmdId) (x : Cmd)
    (he : e ∈ [EngineId.sequencer, .array, .vector, .dma]) (hp : s.pow.mode = .powered) (hb : s.engineBusy (e t) = true)
    (h : s.engineCmd t c x) (hd : e = EngineId.dma → s.dmaOwner t = some c) :
    ∃ s', exec (.engineWatchdog (e t)) s = .next s' ∧ s'.endsWith c 0x9008 ∧ (s'.tile t).inReset = true
      ∧ mapGet none s'.flt.tileCause t.val = some ⟨0x9008, s.flt.nextNo, 0x13, false⟩ := by
  have hfail : ∃ eng, s.watchdog (e t) = s.failTile t hung eng := by
    simp only [List.mem_cons, List.not_mem_nil, or_false] at he
    rcases he with rfl | rfl | rfl | rfl
    · exact ⟨engSeq, rfl⟩
    · exact ⟨engArray, rfl⟩
    · exact ⟨engVector, rfl⟩
    · exact ⟨engDma, by simp [State.watchdog, hd rfl, h.1]⟩
  obtain ⟨eng, heng⟩ := hfail
  exact ⟨_, exec_engineWatchdog hp hb, by rw [heng]; exact s.failTile_hung eng h⟩

/-- A record, then the reset of a die in service. -/
theorem State.recordFault_dieStops (s : State) (r : FaultRec) (d : DieId) (st : BitVec 16) (mech : Byte)
    (hin : (s.die d).inReset = false) (hc : s.colls = []) :
    s.dieStops ((s.recordFault r).2.startDie d ⟨st, s.flt.nextNo, mech, false⟩) d ⟨st, s.flt.nextNo, mech, false⟩ := by
  have hr := s.recordFault_reportsTo r
  have hstop := (s.recordFault r).2.startDie_dieStops d ⟨st, s.flt.nextNo, mech, false⟩ (by rw [hr.die, hin]) (hr.colls.trans hc)
  exact hstop.before hr.tile hr.die

/-- A record, then the module's reset. -/
theorem State.recordFault_moduleStops (s : State) (r : FaultRec) (st : BitVec 16) (mech : Byte) (hw : s.flt.warmCause = none)
    (hp : s.pow.mode = .powered) (hc : s.colls = []) :
    s.moduleStops ((s.recordFault r).2.startWarm ⟨st, s.flt.nextNo, mech, false⟩) ⟨st, s.flt.nextNo, mech, false⟩ := by
  have hr := s.recordFault_reportsTo r
  have hstop := (s.recordFault r).2.startWarm_moduleStops ⟨st, s.flt.nextNo, mech, false⟩ (hr.warmCause.trans hw)
    (by rw [hr.pow, hp]) (hr.colls.trans hc)
  exact hstop.before (why := s.boot.latchedReason) hr.tile hr.die hr.time hr.boot

theorem engineWatchdog_stackAgent (s : State) (k : StackId) (hp : s.pow.mode = .powered) (hf : s.stackFenced k = false)
    (hc : s.colls = []) :
    ∃ s', exec (.engineWatchdog (.stackAgent k)) s = .next s' ∧ s.dieStops s' (stackDie k) ⟨0x9008, s.flt.nextNo, 0x13, false⟩ := by
  have hin : (s.die (stackDie k)).inReset = false := by
    simp only [State.stackFenced, Bool.or_eq_false_iff] at hf
    exact hf.2
  refine ⟨_, exec_engineWatchdog hp (by simp [State.engineBusy, hf]), ?_⟩
  simp only [State.watchdog, State.unitFault]
  exact s.recordFault_dieStops _ _ _ _ hin hc

theorem engineWatchdog_linkRouter (s : State) (l : Fin 6) (hp : s.pow.mode = .powered) (hw : s.flt.warmCause = none)
    (hc : s.colls = []) :
    ∃ s', exec (.engineWatchdog (.linkRouter l)) s = .next s' ∧ s.moduleStops s' ⟨0x9008, s.flt.nextNo, 0x13, false⟩ := by
  refine ⟨_, exec_engineWatchdog hp rfl, ?_⟩
  simp only [State.watchdog, State.unitFault]
  exact s.recordFault_moduleStops _ _ _ hw hp hc

theorem engineWatchdog_commandProcessor (s : State) (i : Fin 8) (hp : s.pow.mode = .powered) (hrun : s.boot.running = true)
    (hw : s.flt.warmCause = none) (hc : s.colls = []) :
    ∃ s', exec (.engineWatchdog (.commandProcessor i none)) s = .next s'
      ∧ s.moduleStops s' ⟨0x9008, s.flt.nextNo, 0x13, false⟩ := by
  refine ⟨_, exec_engineWatchdog hp hrun, ?_⟩
  simp only [State.watchdog, State.cmdOrUnit, State.unitFault, Option.bind_none]
  exact s.recordFault_moduleStops _ _ _ hw hp hc

/-! ## Firmware and the control processors (R405, R406, R408) -/

theorem exec_firmwareHeartbeat (s : State) (h : s.boot.running = true) :
    exec .firmwareHeartbeat s = .next { s with flt := { s.flt with heartbeat := s.time } } := by
  have harm : exec .firmwareHeartbeat s = execFirmwareHeartbeat s := rfl
  simp [harm, execFirmwareHeartbeat, h]

/-- The record of a failed hub. -/
def hubRecord (mech : Byte) : FaultRec := { kind := 0x03, status := 0x9009, src := srcHub 11, mech := mech }

/-- The reason latched for a failed hub (R470, R471). -/
def hubReason (mech : Byte) : Byte := if mech = 0x06 then 0x0B else 0x07

/-- The state after the record of a failed hub, its reason latched before ready. -/
def State.hubNoted (s : State) (mech : Byte) : State :=
  let s1 := (s.recordFault (hubRecord mech)).2
  if s.boot.state = 1 then s1 else { s1 with boot := { s1.boot with latchedReason := hubReason mech } }

theorem State.hubFails_eq (s : State) (mech : Byte) :
    s.hubFails mech = (s.hubNoted mech).startWarm ⟨0x9009, s.flt.nextNo, mech, false⟩ := rfl

/-- Beside what a report changes, the latched reason alone differs. -/
theorem State.hubNoted_reportsTo (s : State) (mech : Byte) :
    State.reportsTo { s with boot := { s.boot with
      latchedReason := if s.boot.state = 1 then s.boot.latchedReason else hubReason mech } } (s.hubNoted mech) := by
  have hr := s.recordFault_reportsTo (hubRecord mech)
  simp only [State.hubNoted]
  split
  · exact hr
  · rw [hr.boot]
    exact (congrArg (fun x : State => { x with boot := { s.boot with latchedReason := hubReason mech } }) hr :)

section HubFails
variable (s : State) (mech : Byte) (hw : s.flt.warmCause = none) (hp : s.pow.mode = .powered) (hc : s.colls = [])
include hw hp hc

theorem State.hubFails_moduleStops : s.moduleStops (s.hubFails mech) ⟨0x9009, s.flt.nextNo, mech, false⟩ := by
  have hr := s.hubNoted_reportsTo mech
  have hstop := (s.hubNoted mech).startWarm_moduleStops ⟨0x9009, s.flt.nextNo, mech, false⟩
    (hr.warmCause.trans hw) (by rw [hr.pow, hp]) (hr.colls.trans hc)
  exact hstop.before hr.tile hr.die hr.time hr.boot

theorem State.hubFails_latchedReason : (s.hubFails mech).boot.latchedReason
    = if s.boot.state = 1 then s.boot.latchedReason else hubReason mech := by
  have hr := s.hubNoted_reportsTo mech
  rw [s.hubFails_eq, State.latchedReason_startWarm _ _ (hr.warmCause.trans hw) (by rw [hr.pow, hp]) (hr.colls.trans hc), hr.boot]

/-- The record of a failed hub still stands when the module has stopped. -/
theorem State.hubFails_stands {pa : Nat} (h : s.faultSlot pa) (hj : s.jobs = []) (he : ∀ d, (s.die d).cache = []) :
    s.faultStands (s.hubFails mech) pa (hubRecord mech).fields := by
  have hr := s.hubNoted_reportsTo mech
  have hrec := s.recordFault_stands (r := hubRecord mech) h rfl rfl
  have hnoted : s.faultStands (s.hubNoted mech) pa (hubRecord mech).fields := by
    simp only [State.hubNoted]
    split
    · exact hrec
    · exact hrec.after rfl rfl
  obtain ⟨hmem, hfns⟩ := (s.hubNoted mech).startWarm_idle ⟨0x9009, s.flt.nextNo, mech, false⟩
    (hr.warmCause.trans hw) (by rw [hr.pow, hp]) (hr.colls.trans hc) (hr.jobs.trans hj) (fun d => by rw [hr.die]; exact he d)
  rw [s.hubFails_eq]
  exact hnoted.after hmem hfns

end HubFails

theorem heartbeatExpiry_stopsModule (s : State) (hrun : s.boot.running = true) (hp : s.pow.mode = .powered)
    (hw : s.flt.warmCause = none) (hc : s.colls = []) (hbeat : s.flt.heartbeat + 1000000 ≤ s.time) :
    ∃ s', exec .heartbeatExpiry s = .next s' ∧ s.moduleStops s' ⟨0x9009, s.flt.nextNo, 0x18, false⟩
      ∧ s'.boot.latchedReason = (if s.boot.state = 1 then s.boot.latchedReason else 0x07)
      ∧ (∀ pa, s.faultSlot pa → s.jobs = [] → (∀ d, (s.die d).cache = []) →
          s.faultStands s' pa [(31, 24, 0x03), (47, 32, 0x9009), (207, 192, 0x600B), (287, 280, 0x18)]) := by
  have hexec : exec .heartbeatExpiry s = .next (s.hubFails 0x18) := by
    have harm : exec .heartbeatExpiry s = execHeartbeatExpiry s := rfl
    simp [harm, execHeartbeatExpiry, hrun, hbeat]
  refine ⟨_, hexec, s.hubFails_moduleStops 0x18 hw hp hc, s.hubFails_latchedReason 0x18 hw hp hc, fun pa hpa hj he => ?_⟩
  refine (s.hubFails_stands 0x18 hw hp hc hpa hj he).says fun v hv => ?_
  simp only [FaultRec.fields, hubRecord, hasFields, List.forall_mem_cons] at hv ⊢
  obtain ⟨hkind, hstatus, -, hsrc, -, hmech, -⟩ := hv
  exact ⟨hkind, hstatus, hsrc, hmech, by simp⟩

/-- The first masked error of a state that holds none back has its record at once (R411). -/
theorem State.maskedError_first (s : State) (r : FaultRec) (h : s.flt.masked = []) :
    s.maskedError r = (State.recordFault { s with flt := { s.flt with masked := [⟨r, s.time, 0⟩] } }
      { r with masked := true, kind := 0x02, count := 1 }).2 := by
  simp only [State.maskedError, h, List.find?_nil, List.filter_nil, State.maskedRecord]
  rfl

/-- The record of a first masked error stands in the free slot. -/
theorem State.maskedError_stands (s : State) {pa : Nat} {r : FaultRec} (hs : s.faultSlot pa) (h : s.flt.masked = [])
    (hd : r.detail = none) (hp : r.part = none) :
    s.faultStands (s.maskedError r) pa { r with masked := true, kind := 0x02, count := 1 : FaultRec }.fields := by
  rw [s.maskedError_first r h]
  have hstands := State.recordFault_stands { s with flt := { s.flt with masked := [⟨r, s.time, 0⟩] } }
    (r := { r with masked := true, kind := 0x02, count := 1 }) (hs.after rfl rfl rfl) hd hp
  exact hstands.before (a := s) rfl rfl rfl rfl

theorem hubLockstepMismatch_detected (s : State) (hrun : s.boot.running = true) (hoff : s.flt.hubOffline = false) (b : Bool)
    (hp : s.pow.mode = .powered) (hw : s.flt.warmCause = none) (hc : s.colls = []) :
    ∃ s', exec (.hubLockstepMismatch b b) s = .next s' ∧ s.moduleStops s' ⟨0x9009, s.flt.nextNo, 0x06, false⟩ := by
  have hexec : exec (.hubLockstepMismatch b b) s = .next (s.hubFails 0x06) := by
    have harm : exec (.hubLockstepMismatch b b) s = execHubLockstepMismatch b b s := rfl
    simp [harm, execHubLockstepMismatch, hrun, hoff]
  exact ⟨_, hexec, s.hubFails_moduleStops 0x06 hw hp hc⟩

/-- The masked record of a processor that goes offline. -/
def offlineRecord : FaultRec := { kind := 0x02, status := 0x900E, src := srcHub 0, mech := 0x06 }

theorem hubLockstepMismatch_offline (s : State) (hrun : s.boot.running = true) (hoff : s.flt.hubOffline = false) (b : Bool) :
    ∃ s', exec (.hubLockstepMismatch b !b) s = .next s' ∧ State.reportsTo { s with flt := { s.flt with hubOffline := true } } s'
      ∧ (∀ pa, s.faultSlot pa → s.flt.masked = [] →
          s.faultStands s' pa [(31, 24, 0x02), (47, 32, 0x900E), (56, 56, 1), (207, 192, 0x6000), (287, 280, 0x06), (447, 416, 1)]) := by
  have hexec : exec (.hubLockstepMismatch b !b) s
      = .next (State.maskedError { s with flt := { s.flt with hubOffline := true } } offlineRecord) := by
    have harm : exec (.hubLockstepMismatch b !b) s = execHubLockstepMismatch b (!b) s := rfl
    simp [harm, execHubLockstepMismatch, hrun, hoff, offlineRecord]
  refine ⟨_, hexec, State.maskedError_reportsTo _ _, fun pa hpa hm => ?_⟩
  have hstands := State.maskedError_stands { s with flt := { s.flt with hubOffline := true } } (r := offlineRecord)
    (hpa.after rfl rfl rfl) hm rfl rfl
  refine (hstands.before (a := s) rfl rfl rfl rfl).says fun v hv => ?_
  simp only [FaultRec.fields, offlineRecord, hasFields, List.forall_mem_cons] at hv ⊢
  obtain ⟨hkind, hstatus, hmasked, hsrc, -, hmech, -, hcount, -⟩ := hv
  exact ⟨hkind, hstatus, hmasked, hsrc, hmech, hcount, by simp⟩

/-! ## Crossing queues (R39 to R41) -/

theorem State.xq_setXq (s : State) (i j : Nat) (x : XQueue) : (s.setXq i x).xq j = if j = i then x else s.xq j := mapGet_put _ _ _ _ _

/-- What a mismatch away from a die's own crossing leaves: the queue reset, and reports. -/
theorem State.crossingReset_reportsTo (s : State) (x : Crossing) (h : ∀ d c, x ≠ .dieSide d c) :
    (s.setXq (crossingNo x) (s.xq (crossingNo x)).mismatch).reportsTo (s.crossingReset x) := by
  cases x with
  | bridge l => exact (State.errAdd_reportsTo _ _ _).trans (State.maskedError_reportsTo _ _)
  | port p => exact (State.errAdd_reportsTo _ _ _).trans (State.maskedError_reportsTo _ _)
  | dieSide d c => exact absurd rfl (h d c)
  | hubPcie => exact State.recordFault_reportsTo _ _
  | traceFifo f => exact State.maskedError_reportsTo _ _
  | eventRing => exact State.maskedError_reportsTo _ _

theorem exec_crossingQueueMismatch {s : State} (x : Crossing) (hp : s.pow.mode = .powered) :
    exec (.crossingQueueMismatch x) s = .next (s.crossingReset x) := by
  have harm : exec (.crossingQueueMismatch x) s = execCrossingQueueMismatch x s := rfl
  simp [harm, execCrossingQueueMismatch, hp]

/-- R39, R41: the contents are lost, overrun stays, the mismatches are counted up to their largest value. -/
theorem XQueue.toNat_mismatches (x : XQueue) : x.mismatch.mismatches.toNat = min (x.mismatches.toNat + 1) 0xFFFFFFFF := by
  simp only [XQueue.mismatch, BitVec.toNat_ofNat]
  omega

theorem crossingQueueMismatch_losesContents (s : State) (x : Crossing) (hp : s.pow.mode = .powered) (h : ∀ d c, x ≠ .dieSide d c) :
    ∃ s', exec (.crossingQueueMismatch x) s = .next s' ∧ State.reportsTo { s with xqs := s'.xqs } s'
      ∧ (∀ i, i ≠ crossingNo x → s'.xq i = s.xq i)
      ∧ (s'.xq (crossingNo x)).words = [] ∧ (s'.xq (crossingNo x)).pack = [] ∧ (s'.xq (crossingNo x)).overrun = (s.xq (crossingNo x)).overrun
      ∧ (s'.xq (crossingNo x)).mismatches.toNat = min ((s.xq (crossingNo x)).mismatches.toNat + 1) 0xFFFFFFFF := by
  have hr := s.crossingReset_reportsTo x h
  have hxq (i : Nat) : (s.crossingReset x).xq i = if i = crossingNo x then (s.xq (crossingNo x)).mismatch else s.xq i := by
    rw [← s.xq_setXq (crossingNo x)]
    simp only [State.xq, hr.xqs]
  refine ⟨_, exec_crossingQueueMismatch x hp, ?_, fun i hi => by rw [hxq, if_neg hi], ?_⟩
  · rw [hr.xqs]
    exact hr
  · rw [hxq, if_pos rfl]
    exact ⟨rfl, rfl, rfl, XQueue.toNat_mismatches _⟩

theorem crossingQueueMismatch_dieSide (s : State) (d : DieId) (hp : s.pow.mode = .powered) (hin : (s.die d).inReset = false)
    (hc : s.colls = []) :
    ∃ s', exec (.crossingQueueMismatch (.dieSide d none)) s = .next s' ∧ s.dieStops s' d ⟨0x9004, s.flt.nextNo, 0x11, false⟩
      ∧ (s'.xq (100 + d.val)).words = [] := by
  refine ⟨_, exec_crossingQueueMismatch _ hp, ?_⟩
  simp only [State.crossingReset, crossingNo, State.cmdOrUnit, State.unitFault, Option.bind_none, State.recordFault_number]
  generalize hx : s.setXq (100 + d.val) (s.xq (100 + d.val)).mismatch = x
  have hdies (e : DieId) : x.die e = s.die e := by rw [← hx]; rfl
  have htiles (t : TileId) : x.tile t = s.tile t := by rw [← hx]; rfl
  have hcolls : x.colls = [] := by rw [← hx]; exact hc
  have hno : x.flt.nextNo = s.flt.nextNo := by rw [← hx]; rfl
  have hwords : (x.xq (100 + d.val)).words = [] := by rw [← hx, State.xq_setXq, if_pos rfl]; rfl
  generalize (FaultRec.mk _ _ _ _ _ _ _ _ _ _ _ _ _ _ _ _ _) = r
  have hr := x.recordFault_reportsTo r
  have hstop := x.recordFault_dieStops r d 0x9004 0x11 (by rw [hdies, hin]) hcolls
  have hxqs := ((x.recordFault r).2.startDie_fenced d ⟨0x9004, x.flt.nextNo, 0x11, false⟩ (by rw [hr.die, hdies, hin])
    (hr.colls.trans hcolls)).xqs
  refine ⟨?_, ?_⟩
  · rw [← hno]
    exact hstop.before htiles hdies
  · rw [State.xq, hxqs, hr.xqs]
    exact hwords

/-! ## Bridge links (R23) -/

/-- Link `l` with `n` failures in succession behind it. -/
def State.withReplays (s : State) (l : BridgeLink) (n : Nat) : State :=
  { s with flt := { s.flt with replays := mapPut 0 s.flt.replays l.val n } }

/-- Link `l` taken down by its sixteenth failure, which is counted. -/
def State.linkDown (s : State) (l : BridgeLink) : State :=
  let a := (s.withReplays l 0).errAdd (bridgeSrc l) 0x01
  { a with flt := { a.flt with linksDown := a.flt.linksDown ++ [l] } }

/-- The masked record of a failure, and the record of the link going down. -/
def replayRecord (l : BridgeLink) : FaultRec :=
  { kind := 0x02, status := 0, src := bridgeSrc l, die := (bridgeDie l).map logicOfDie, mech := 0x03, addr := BitVec.ofNat 64 l.val }
def downRecord (l : BridgeLink) : FaultRec := { replayRecord l with kind := 0x04, status := 0x9005 }

section Bridge
variable (s : State) (l : BridgeLink) (hp : s.pow.mode = .powered) (hl : l ∉ s.flt.linksDown)
include hp hl

theorem bridgeFlitReceive_passes : ∃ s', exec (.bridgeFlitReceive l true) s = .next s'
    ∧ s' = { s with flt := { s.flt with replays := s'.flt.replays } }
    ∧ ∀ m, mapGet 0 s'.flt.replays m = if m = l.val then 0 else mapGet 0 s.flt.replays m := by
  have hexec : exec (.bridgeFlitReceive l true) s = .next (s.withReplays l 0) := by
    have harm : exec (.bridgeFlitReceive l true) s = execBridgeFlitReceive l true s := rfl
    simp [harm, execBridgeFlitReceive, hp, hl, State.withReplays]
  exact ⟨_, hexec, rfl, fun m => mapGet_put 0 s.flt.replays l.val m 0⟩

theorem bridgeFlitReceive_fails (hn : mapGet 0 s.flt.replays l.val < 15) : ∃ s', exec (.bridgeFlitReceive l false) s = .next s'
    ∧ State.reportsTo { s with flt := { s.flt with replays := s'.flt.replays } } s'
    ∧ ∀ m, mapGet 0 s'.flt.replays m = if m = l.val then mapGet 0 s.flt.replays m + 1 else mapGet 0 s.flt.replays m := by
  have hcount : (mapGet 0 s.flt.replays l.val + 1) % 16 = mapGet 0 s.flt.replays l.val + 1 := by omega
  have hmore : mapGet 0 s.flt.replays l.val + 1 < 16 := by omega
  have hexec : exec (.bridgeFlitReceive l false) s
      = .next (((s.withReplays l (mapGet 0 s.flt.replays l.val + 1)).errAdd (bridgeSrc l) 0x01).maskedError (replayRecord l)) := by
    have harm : exec (.bridgeFlitReceive l false) s = execBridgeFlitReceive l false s := rfl
    simp [harm, execBridgeFlitReceive, hp, hl, State.withReplays, hcount, hmore, replayRecord]
  have hr := (State.errAdd_reportsTo (s.withReplays l (mapGet 0 s.flt.replays l.val + 1)) (bridgeSrc l) 0x01).trans
    (State.maskedError_reportsTo _ (replayRecord l))
  refine ⟨_, hexec, ?_, fun m => ?_⟩
  · rw [hr.replays]
    exact hr
  · rw [hr.replays, State.withReplays, mapGet_put]
    split
    · subst m; rfl
    · rfl

theorem bridgeFlitReceive_goesDown (hn : mapGet 0 s.flt.replays l.val = 15) : ∃ s', exec (.bridgeFlitReceive l false) s = .next s'
    ∧ s'.flt.linksDown = s.flt.linksDown ++ [l]
    ∧ State.reportsTo { s with flt := { s.flt with replays := s'.flt.replays, linksDown := s'.flt.linksDown } } s'
    ∧ ∀ pa, s.faultSlot pa → s.faultStands s' pa [(31, 24, 0x04), (47, 32, 0x9005), (287, 280, 0x03), (351, 288, l.val)] := by
  have hexec : exec (.bridgeFlitReceive l false) s = .next ((s.linkDown l).recordFault (downRecord l)).2 := by
    have harm : exec (.bridgeFlitReceive l false) s = execBridgeFlitReceive l false s := rfl
    simp [harm, execBridgeFlitReceive, hp, hl, State.withReplays, hn, downRecord, replayRecord, State.linkDown]
  have hr := (s.linkDown l).recordFault_reportsTo (downRecord l)
  refine ⟨_, hexec, hr.linksDown, ?_, fun pa hpa => ?_⟩
  · rw [hr.replays, hr.linksDown]
    exact hr
  · have hstands := (s.linkDown l).recordFault_stands (r := downRecord l) (hpa.after rfl rfl rfl) rfl rfl
    refine (hstands.before (a := s) rfl rfl rfl rfl).says fun v hv => ?_
    simp only [FaultRec.fields, downRecord, replayRecord, hasFields, List.forall_mem_cons] at hv ⊢
    obtain ⟨hkind, hstatus, -, -, -, hmech, haddr, -⟩ := hv
    refine ⟨hkind, hstatus, hmech, ?_, by simp⟩
    rw [haddr, BitVec.toNat_ofNat]
    omega

end Bridge

/-! ## Regulators (R33) -/

/-- The record of a regulator fault between two islands. -/
def regulatorRecord (a b : Island) : FaultRec :=
  { kind := 0x04, status := 0x9006, src := srcHub 11, die := some (if a.die ≤ b.die then a.die else b.die), stack := a.stack <|> b.stack
    mech := 0x17
    addr := BitVec.ofNat 64 (packBits [(5, a.die.val), (3, 0), (5, b.die.val), (3, 0), (3, a.kind.val), (5, 0), (3, b.kind.val)]) }

theorem exec_regulatorFault {s : State} (a b : Island) (hp : s.pow.mode = .powered) : exec (.regulatorFault a b) s
    = .next (((s.recordFault (regulatorRecord a b)).2.islandReset a s.flt.nextNo).islandReset b s.flt.nextNo) := by
  have harm : exec (.regulatorFault a b) s = execRegulatorFault a b s := rfl
  simp only [harm, execRegulatorFault, hp, if_true]
  rfl

/-- What the record of a regulator fault says: the dies and the rows of both islands, in its address field. -/
theorem regulatorRecord_says (a b : Island) (v : Nat) (h : hasFields v (regulatorRecord a b).fields) :
    hasFields v [(31, 24, 0x04), (47, 32, 0x9006), (207, 192, 0x600B), (268, 264, min a.die.val b.die.val), (287, 280, 0x17),
      (292, 288, a.die.val), (300, 296, b.die.val), (306, 304, a.kind.val), (314, 312, b.kind.val)] := by
  simp only [FaultRec.fields, regulatorRecord, hasFields, List.forall_mem_cons] at h ⊢
  obtain ⟨hkind, hstatus, -, hsrc, hdie, hmech, haddr, -⟩ := h
  have hin (hi lo : Nat) (hle : hi ≤ 63) : bits v (288 + hi) (288 + lo) = bits (bits v 351 288) hi lo :=
    (bits_bits v hi lo 63 288 hle).symm
  have hpack : packBits [(5, a.die.val), (3, 0), (5, b.die.val), (3, 0), (3, a.kind.val), (5, 0), (3, b.kind.val)] < 2 ^ 64 := by
    simp only [packBits]
    omega
  have ha := a.die.isLt
  have hb := b.die.isLt
  have hka := a.kind.isLt
  have hkb := b.kind.isLt
  rw [BitVec.toNat_ofNat, Nat.mod_eq_of_lt hpack] at haddr
  refine ⟨hkind, hstatus, hsrc, ?_, hmech, ?_, ?_, ?_, ?_, by simp⟩
  · rw [hdie]
    simp only [Option.map_some, Option.getD_some, Fin.le_def]
    split <;> omega
  · rw [hin 4 0 (by decide), haddr, bits_pack_head _ _ _ _ rfl]
    omega
  · rw [hin 12 8 (by decide), haddr]
    simp only [bits_pack_skip, Nat.reduceLeDiff, Nat.reduceSub, bits_pack_head, Nat.reduceAdd]
    omega
  · rw [hin 18 16 (by decide), haddr]
    simp only [bits_pack_skip, Nat.reduceLeDiff, Nat.reduceSub, bits_pack_head, Nat.reduceAdd]
    omega
  · rw [hin 26 24 (by decide), haddr]
    simp only [bits_pack_skip, Nat.reduceLeDiff, Nat.reduceSub, bits_pack_head, Nat.reduceAdd]
    omega

/-- An idempotent change made for two reasons in turn is made for either. -/
theorem ite_twice {α : Type} (f : α → α) (hf : ∀ a, f (f a) = f a) (p q : Prop) [Decidable p] [Decidable q] (a : α) :
    (if p then f (if q then f a else a) else if q then f a else a) = if q ∨ p then f a else a := by
  by_cases hp : p <;> by_cases hq : q <;> simp [hp, hq, hf]

theorem regulatorFault_stopsDies (s : State) (a b : Island) (d e : DieId) (hp : s.pow.mode = .powered)
    (hd : dieOfLogic a.die = some d) (he : dieOfLogic b.die = some e) (hne : d ≠ e) (hc : s.colls = [])
    (hind : (s.die d).inReset = false) (hine : (s.die e).inReset = false) :
    ∃ s', exec (.regulatorFault a b) s = .next s'
      ∧ (∀ f, f = d ∨ f = e → mapGet none s'.flt.dieCause f.val = some ⟨0x9006, s.flt.nextNo, 0x17, false⟩
          ∧ s'.die f = { s.die f with inReset := true, cache := [] })
      ∧ (∀ f, f ≠ d → f ≠ e → s'.die f = s.die f)
      ∧ (∀ t, s'.tile t = if dieOf t = d ∨ dieOf t = e then { s.tile t with inReset := true } else s.tile t)
      ∧ ∀ pa, s.faultSlot pa → (∀ f, (s.die f).cache = []) → s.faultStands s' pa [(31, 24, 0x04), (47, 32, 0x9006), (207, 192, 0x600B),
          (268, 264, min a.die.val b.die.val), (287, 280, 0x17), (292, 288, a.die.val), (300, 296, b.die.val), (306, 304, a.kind.val), (314, 312, b.kind.val)] := by
  have hr := s.recordFault_reportsTo (regulatorRecord a b)
  have hexec := exec_regulatorFault (s := s) a b hp
  have hstands (pa : Nat) (hpa : s.faultSlot pa) :=
    (s.recordFault_stands (r := regulatorRecord a b) hpa rfl rfl).says (regulatorRecord_says a b)
  simp only [State.islandReset, hd, he] at hexec
  generalize (s.recordFault (regulatorRecord a b)).2 = x at *
  generalize (⟨0x9006, s.flt.nextNo, 0x17, false⟩ : ResetCause) = c at *
  have hxd : (x.die d).inReset = false := by rw [hr.die, hind]
  have hxc : x.colls = [] := hr.colls.trans hc
  have hye : ((x.startDie d c).die e).inReset = false := by rw [x.die_startDie d c hxd hxc, if_neg hne.symm, hr.die, hine]
  have hyc : (x.startDie d c).colls = [] := (x.startDie_fenced d c hxd hxc).colls.trans hxc
  have hcause (f : DieId) : mapGet none ((x.startDie d c).startDie e c).flt.dieCause f.val
      = if f = e then some c else if f = d then some c else mapGet none x.flt.dieCause f.val := by
    rw [State.dieCause_startDie _ e c hye hyc, x.dieCause_startDie d c hxd hxc]
  have hdie (f : DieId) : ((x.startDie d c).startDie e c).die f
      = if f = d ∨ f = e then { s.die f with inReset := true, cache := [] } else s.die f := by
    rw [State.die_startDie _ e c hye hyc, x.die_startDie d c hxd hxc, hr.die]
    exact ite_twice (fun y : Die => { y with inReset := true, cache := [] }) (fun _ => rfl) _ _ _
  have htile (t : TileId) : ((x.startDie d c).startDie e c).tile t
      = if dieOf t = d ∨ dieOf t = e then { s.tile t with inReset := true } else s.tile t := by
    rw [State.tile_startDie _ e c hye hyc, x.tile_startDie d c hxd hxc, hr.tile]
    exact ite_twice (fun y : Tile => { y with inReset := true }) (fun _ => rfl) _ _ _
  refine ⟨_, hexec, fun f hf => ⟨?_, by rw [hdie, if_pos hf]⟩, fun f hfd hfe => by rw [hdie, if_neg (not_or_intro hfd hfe)],
    htile, fun pa hpa hempty => ?_⟩
  · rw [hcause]
    rcases hf with rfl | rfl <;> simp
  · have hfx := x.startDie_fenced d c hxd hxc
    have hfy := (x.startDie d c).startDie_fenced e c hye hyc
    have hemptyx (f : DieId) : (x.die f).cache = [] := by rw [hr.die, hempty]
    have hemptyy (f : DieId) : ((x.startDie d c).die f).cache = [] := by
      rw [x.die_startDie d c hxd hxc]
      split
      · rfl
      · exact hemptyx f
    exact ((hstands pa hpa).after (hfx.mem hemptyx) hfx.fns).after (hfy.mem hemptyy) hfy.fns

theorem regulatorFault_stopsModule (s : State) (a b : Island) (hp : s.pow.mode = .powered) (hw : s.flt.warmCause = none)
    (ha : dieOfLogic a.die = none) (hb : dieOfLogic b.die = none) (hc : s.colls = []) :
    ∃ s', exec (.regulatorFault a b) s = .next s' ∧ s.moduleStops s' ⟨0x9006, s.flt.nextNo, 0x17, false⟩ := by
  have hexec := exec_regulatorFault (s := s) a b hp
  have hstop := s.recordFault_moduleStops (regulatorRecord a b) 0x9006 0x17 hw hp hc
  simp only [State.islandReset, ha, hb] at hexec
  generalize (s.recordFault (regulatorRecord a b)).2.startWarm _ = y at *
  have hwarm : y.flt.warmCause = some ⟨0x9006, s.flt.nextNo, 0x17, false⟩ := hstop.1
  have hagain : y.startWarm ⟨0x9006, s.flt.nextNo, 0x17, false⟩ = y := by simp [State.startWarm, hwarm]
  rw [hagain] at hexec
  exact ⟨y, hexec, hstop⟩

/-- Settles O54: every detection outside a tile's arithmetic leaves its record and the fence of its domain. -/
theorem detectionsRecordAndFence : Obligations.DetectionsRecordAndFence := by
  unfold Obligations.DetectionsRecordAndFence
  exact ⟨engineWatchdog_endsCommand, engineWatchdog_stackAgent, engineWatchdog_linkRouter, engineWatchdog_commandProcessor,
    exec_firmwareHeartbeat, heartbeatExpiry_stopsModule,
    fun s hrun hoff => ⟨hubLockstepMismatch_detected s hrun hoff, hubLockstepMismatch_offline s hrun hoff⟩,
    crossingQueueMismatch_losesContents, crossingQueueMismatch_dieSide,
    fun s l hp hl => ⟨bridgeFlitReceive_passes s l hp hl, bridgeFlitReceive_fails s l hp hl, bridgeFlitReceive_goesDown s l hp hl⟩,
    regulatorFault_stopsDies, regulatorFault_stopsModule⟩

end Sys2Proof.Machine

/-! Pre-emption: what the stop of a queue's sequencers and engines, the save of its contexts and their reload do to
tiles, dies and queues, and the statement that pre-emption stops, saves and restores (R114, R146, R169, R193, R391 to
R398). That sequencers stop at once and firmware saves by one command, and that a context is kept as values, are the
choices of notes/assumptions/47.md and 48.md. -/

namespace Sys2Proof.Machine

/-! ## Steps over a list of units -/

/-- A fold in which nothing listed acts. -/
theorem foldl_idle {α β : Type} {f : α → β → α} {a : α} {l : List β} (h : ∀ x ∈ l, f a x = a) : l.foldl f a = a :=
  List.foldlRecOn (motive := (· = a)) l f rfl fun b hb x hx => by rw [hb]; exact h x hx

/-- A fold in which one element alone acts. -/
theorem foldl_single {α β : Type} {f : α → β → α} {a : α} {l : List β} {x : β} (hx : x ∈ l) (hn : l.Nodup)
    (hbefore : ∀ y, y ≠ x → f a y = a) (hafter : ∀ y, y ≠ x → f (f a x) y = f a x) : l.foldl f a = f a x := by
  obtain ⟨l₁, l₂, rfl⟩ := List.append_of_mem hx
  obtain ⟨-, hn₂, hne⟩ := List.nodup_append.mp hn
  obtain ⟨hnot, -⟩ := List.nodup_cons.mp hn₂
  have hfirst : l₁.foldl f a = a := foldl_idle fun y hy => hbefore y (hne y hy x List.mem_cons_self)
  have hlast : l₂.foldl f (f a x) = f a x := foldl_idle fun y hy => hafter y fun e => hnot (e ▸ hy)
  rw [List.foldl_append, hfirst, List.foldl_cons, hlast]

theorem mem_allTiles (t : TileId) : t ∈ allTiles := List.mem_finRange t
theorem mem_allDies (d : DieId) : d ∈ allDies := List.mem_finRange d

/-- The same change to each die of a list touches dies alone, and each of them once. -/
theorem State.foldl_updDie_frame (s : State) (f : Die → Die) (l : List DieId) :
    s.onlyUnits (l.foldl (fun a d => a.updDie d f) s) ∧ (l.foldl (fun a d => a.updDie d f) s).tiles = s.tiles :=
  List.foldlRecOn (motive := fun a : State => s.onlyUnits a ∧ a.tiles = s.tiles) l _ ⟨rfl, rfl⟩
    fun _ ⟨hu, ht⟩ _ _ => ⟨hu.trans rfl, ht⟩

theorem State.die_foldl_updDie (f : Die → Die) {l : List DieId} (hn : l.Nodup) (s : State) (e : DieId) :
    (l.foldl (fun a d => a.updDie d f) s).die e = if e ∈ l then f (s.die e) else s.die e := by
  induction l generalizing s with
  | nil => rfl
  | cons d l ih =>
    obtain ⟨hd, hn⟩ := List.nodup_cons.mp hn
    rw [List.foldl_cons, ih hn]
    by_cases he : e = d
    · subst he; simp [hd]
    · simp [he, State.die_updDie_ne _ _ he]

/-- A tile changed alone. -/
theorem State.updTile_onlyTile (s : State) (t : TileId) (f : Tile → Tile) : s.onlyTile t (s.updTile t f) :=
  ⟨rfl, fun _ hu => s.tile_updTile_ne f hu⟩

/-- Nothing but tiles differs. -/
def State.onlyTiles (s s' : State) : Prop := s' = { s with tiles := s'.tiles }

theorem State.onlyTiles.trans {a b c : State} (h : a.onlyTiles b) (k : b.onlyTiles c) : a.onlyTiles c :=
  Eq.trans k (congrArg (fun x : State => { x with tiles := c.tiles }) h)

theorem State.onlyTiles.onlyUnits {s s' : State} (h : s.onlyTiles s') : s.onlyUnits s' := by
  unfold State.onlyUnits; rw [h]

theorem State.onlyTiles.frame_updQueue {s s' : State} {q : QueueId} {f : Queue → Queue} (h : (s.updQueue q f).onlyTiles s') :
    s' = { s with queues := s'.queues, tiles := s'.tiles } := by
  unfold State.onlyTiles at h
  rw [h]; rfl

theorem State.onlyTiles.foldl {β : Type} {f : State → β → State} (h : ∀ a x, State.onlyTiles a (f a x)) (l : List β) (s : State) :
    s.onlyTiles (l.foldl f s) :=
  List.foldlRecOn (motive := s.onlyTiles) l f rfl fun a ha x _ => ha.trans (h a x)

section Tiles
variable {s s' : State} (h : s.onlyTiles s')
include h

theorem State.onlyTiles.queue (q : QueueId) : s'.queue q = s.queue q := (congrArg (fun x : State => x.queue q) h :)
theorem State.onlyTiles.die (d : DieId) : s'.die d = s.die d := (congrArg (fun x : State => x.die d) h :)
theorem State.onlyTiles.colls : s'.colls = s.colls := (congrArg State.colls h :)
theorem State.onlyTiles.semWaits : s'.semWaits = s.semWaits := (congrArg State.semWaits h :)
theorem State.onlyTiles.slotOf (d : DieId) (q : QueueId) : s'.slotOf d q = s.slotOf d q :=
  (congrArg (fun x : State => x.slotOf d q) h :)

end Tiles

theorem State.onlyUnits.queue {s s' : State} (h : s.onlyUnits s') (q : QueueId) : s'.queue q = s.queue q :=
  (congrArg (fun x : State => x.queue q) h :)

/-! ## The stop of the sequencers (R146, R393, R394) -/

/-- What a sequencer does once it has stopped at an instruction boundary (R146). -/
def SeqRun.atStop : SeqRun → SeqRun
  | .running | .waitEvent _ _ | .waitSem | .waitSync _ | .waitIssue _ | .waitWdone _ _ => .stopped
  | r => r

def Tile.seqAtStop (x : Tile) : Tile := { x with seq := { x.seq with run := x.seq.run.atStop } }

theorem Tile.seqAtStop_of_fixed {x : Tile} (h : x.seq.run.atStop = x.seq.run) : x.seqAtStop = x := by rw [Tile.seqAtStop, h]

/-- While no wait on a semaphore is pending, a sequencer that stops changes what it does, or had nothing to stop. -/
theorem State.stopSeq_cases (s : State) (t : TileId) (h : s.semWaits = []) :
    s.stopSeq t = s.updTile t Tile.seqAtStop ∨ s.stopSeq t = s ∧ (s.tile t).seqAtStop = s.tile t := by
  have hrelease : (if s.semWaits.any (fun w => w.ofTile t && w.met) then s.semWaitRelease t else s) = s := if_neg (by simp [h])
  have hdrop : { s with semWaits := s.semWaits.filter fun w => !w.ofTile t } = s := by rw [h, List.filter_nil, ← h]
  unfold State.stopSeq
  rw [hrelease]
  dsimp only
  rw [hdrop]
  cases hr : (s.tile t).seq.run
  case running | waitEvent | waitSem | waitSync | waitIssue | waitWdone =>
    exact .inl (congrArg (s.setTile t) (by rw [Tile.seqAtStop, hr]; rfl))
  case idle | ended | done | faulted | stopped =>
    exact .inr ⟨rfl, Tile.seqAtStop_of_fixed (by rw [hr]; rfl)⟩

theorem State.stopSeq_onlyTiles (s : State) (t : TileId) (h : s.semWaits = []) : s.onlyTiles (s.stopSeq t) := by
  obtain hs | ⟨hs, -⟩ := s.stopSeq_cases t h <;> rw [hs] <;> rfl

theorem State.tile_stopSeq (s : State) (t u : TileId) (h : s.semWaits = []) :
    (s.stopSeq t).tile u = if u = t then (s.tile u).seqAtStop else s.tile u := by
  obtain hs | ⟨hs, hx⟩ := s.stopSeq_cases t h <;> rw [hs] <;> split
  · subst u; exact s.tile_updTile_self t _
  · exact s.tile_updTile_ne _ ‹_›
  · subst u; exact hx.symm
  · rfl

@[simp] theorem Tile.seqAtStop_seqAtStop (x : Tile) : x.seqAtStop.seqAtStop = x.seqAtStop := by
  simp only [Tile.seqAtStop]
  cases x.seq.run <;> rfl

/-- The sequencers of a list of tiles stop. -/
theorem State.stopSeqs (l : List TileId) (s : State) (h : s.semWaits = []) :
    s.onlyTiles (l.foldl (fun a t => a.stopSeq t) s)
      ∧ ∀ u, (l.foldl (fun a t => a.stopSeq t) s).tile u = if u ∈ l then (s.tile u).seqAtStop else s.tile u := by
  induction l generalizing s with
  | nil => exact ⟨rfl, fun _ => rfl⟩
  | cons t l ih =>
    have ht := s.stopSeq_onlyTiles t h
    obtain ⟨hframe, htile⟩ := ih (s.stopSeq t) (ht.semWaits.trans h)
    refine ⟨ht.trans hframe, fun u => ?_⟩
    rw [List.foldl_cons, htile, s.tile_stopSeq t u h]
    by_cases hu : u = t <;> simp [hu]

/-- Only what a queue staged for its next kernels is dropped (R264). -/
theorem State.dropPreloads_onlyTiles (s : State) (q : QueueId) : s.onlyTiles (s.dropPreloads q) := by
  refine .foldl (fun a t => ?_) allTiles s
  split <;> rfl

theorem State.tile_dropPreloads (s : State) (q : QueueId) (u : TileId) :
    (s.dropPreloads q).tile u
      = { s.tile u with seq := { (s.tile u).seq with preload := ((s.dropPreloads q).tile u).seq.preload } } := by
  unfold State.dropPreloads
  refine List.foldlRecOn (motive := fun a : State => a.tile u
    = { s.tile u with seq := { (s.tile u).seq with preload := (a.tile u).seq.preload } }) allTiles _ rfl fun a ha t _ => ?_
  split
  · by_cases hu : u = t
    · subst hu; simp only [State.updSeq_tile_self]; rw [ha]
    · rw [State.updSeq_tile_ne _ _ hu]; exact ha
  · exact ha

theorem State.mem_tilesOf (s : State) (q : QueueId) (t : TileId) :
    t ∈ s.tilesOf q ↔ ((s.tile t).cmd.any fun c => c.queue = q) = true := by
  simp [State.tilesOf, mem_allTiles]

/-- A queue marked as being pre-empted, what it staged dropped. -/
def State.marked (s : State) (q : QueueId) : State := (s.updQueue q fun x => { x with preempting := true }).dropPreloads q

theorem State.queue_marked (s : State) (q r : QueueId) :
    (s.marked q).queue r = if r = q then { s.queue r with preempting := true } else s.queue r := by
  rw [State.marked, (State.dropPreloads_onlyTiles _ q).queue]
  split
  · subst r; simp
  · exact s.queue_updQueue_ne _ ‹_›

theorem State.tile_marked (s : State) (q : QueueId) (t : TileId) : (s.marked q).tile t
    = { s.tile t with seq := { (s.tile t).seq with preload := ((s.marked q).tile t).seq.preload } } := by
  have h := State.tile_dropPreloads (s.updQueue q fun x => { x with preempting := true }) q t
  rwa [State.tile_updQueue, ← State.marked] at h

/-- Without front-end waits and collectives, pre-emption begins with the stop of the queue's sequencers alone. -/
theorem State.beginPreempt_stops (s : State) (q : QueueId) (hw : ∀ x ∈ (s.queue q).cmds, ¬(x.opcode = 5 ∧ x.stage = .begun))
    (hk : ∀ k ∈ s.colls, k.cmd.queue ≠ q) (hs : s.semWaits = []) :
    (s.marked q).onlyTiles (s.beginPreempt q)
      ∧ ∀ u, (s.beginPreempt q).tile u
        = if u ∈ (s.marked q).tilesOf q then ((s.marked q).tile u).seqAtStop else (s.marked q).tile u := by
  have hm : (s.updQueue q fun x => { x with preempting := true }).onlyTiles (s.marked q) := State.dropPreloads_onlyTiles _ q
  have hstop := State.stopSeqs ((s.marked q).tilesOf q) (s.marked q) (hm.semWaits.trans hs)
  have hwaits : ((s.marked q).queue q).cmds.filter (fun x => x.opcode = 5 && x.stage = .begun) = [] := by
    rw [s.queue_marked, if_pos rfl]
    simpa using hw
  have hcolls : (((s.marked q).tilesOf q).foldl (fun a t => a.stopSeq t) (s.marked q)).colls.filter
      (fun k => k.cmd.queue = q && k.op ≠ 7) = [] := by
    rw [hstop.1.colls, hm.colls]
    simpa using fun k hk' e => absurd e (hk k hk')
  have heq : s.beginPreempt q = ((s.marked q).tilesOf q).foldl (fun a t => a.stopSeq t) (s.marked q) := by
    simp only [State.beginPreempt, ← State.marked.eq_def, hwaits, List.foldl_nil, hcolls, ite_self]
  rwa [heq]

theorem exec_preemption {s : State} {q r : QueueId} (hb : s.blockers q = [r]) (hy : s.yields q r = true) :
    exec (.preemption q) s = .next (s.beginPreempt r) := by
  change execPreemption q s = _
  simp [execPreemption, hb, hy]

theorem preemption_stopsSequencers (s : State) (q r : QueueId) (hb : s.blockers q = [r]) (hy : s.yields q r = true)
    (hw : ∀ x ∈ (s.queue r).cmds, ¬(x.opcode = 5 ∧ x.stage = .begun)) (hk : ∀ k ∈ s.colls, k.cmd.queue ≠ r)
    (hs : s.semWaits = []) :
    ∃ s', exec (.preemption q) s = .next s' ∧ s' = { s with queues := s'.queues, tiles := s'.tiles }
      ∧ s'.queue r = { s.queue r with preempting := true } ∧ (∀ u, u ≠ r → s'.queue u = s.queue u)
      ∧ (∀ t, ((s.tile t).cmd.any fun c => c.queue = r) = true → (s.tile t).seq.run = .running → (s'.tile t).seq.run = .stopped)
      ∧ (∀ t, s'.tile t = { s.tile t with seq := { (s.tile t).seq with
          run := (s'.tile t).seq.run, preload := (s'.tile t).seq.preload } })
      ∧ ∀ t, ((s.tile t).cmd.any fun c => c.queue = r) = false → (s'.tile t).seq.run = (s.tile t).seq.run := by
  have hm : (s.updQueue r fun x => { x with preempting := true }).onlyTiles (s.marked r) := State.dropPreloads_onlyTiles _ r
  have hmt := s.tile_marked r
  obtain ⟨hframe, htile⟩ := s.beginPreempt_stops r hw hk hs
  have hcmd (t : TileId) : ((s.marked r).tile t).cmd = (s.tile t).cmd := by rw [hmt]
  have hrun (t : TileId) : ((s.marked r).tile t).seq.run = (s.tile t).seq.run := by rw [hmt]
  simp only [State.mem_tilesOf, hcmd] at htile
  refine ⟨_, exec_preemption hb hy, (hm.trans hframe).frame_updQueue, ?_, fun u hu => ?_, fun t ht hrunning => ?_,
    fun t => ?_, fun t ht => ?_⟩
  · rw [hframe.queue, s.queue_marked, if_pos rfl]
  · rw [hframe.queue, s.queue_marked, if_neg hu]
  · rw [htile, if_pos ht, Tile.seqAtStop, hrun, hrunning]; rfl
  · rw [htile]
    split
    · simp only [Tile.seqAtStop]; rw [hmt]
    · rw [hrun]; exact hmt t
  · rw [htile, if_neg (by simp [ht]), hrun]

/-! ## Each engine reports stopped (R114, R169, R193, R393) -/

/-- A map changed value by value, read at a key. -/
theorem mapGet_map {α : Type} {d : α} {f : α → α} (hd : f d = d) (m : NMap α) (i : Nat) :
    mapGet d (m.map fun e => (e.1, f e.2)) i = f (mapGet d m i) := by
  induction m with
  | nil => exact hd.symm
  | cons e m ih =>
    by_cases hi : i = e.1 <;> simp [mapGet, hi, ih]

/-- The array of a tile reports stopped, its panes at their stop. -/
def Tile.arrayAtStop (x : Tile) : Tile :=
  { x with arr := { x.arr with stopped := true, panes := x.arr.panes.map fun e => (e.1, e.2.atStop) } }

theorem Tile.pane_arrayAtStop (x : Tile) (p : PaneId) : x.arrayAtStop.pane p = (x.pane p).atStop := mapGet_map rfl _ _

/-- With no resident block outside an instruction there is nothing to spill: the array stops at once. -/
theorem State.arrayStop_eq {s : State} {t : TileId} (hstop : s.tileStopping t = true) (hin : (s.tile t).inService = true)
    (harr : (s.tile t).arr.stopped = false) (hfin : ∀ o ∈ (s.tile t).finished, o.engine ≠ .array)
    (hpane : ∀ p, ((s.tile t).pane p).resident = true → ((s.tile t).pane p).instr ≠ none) :
    s.arrayStop t = s.updTile t Tile.arrayAtStop := by
  have hspill : (List.finRange 16).foldl (fun a p =>
      let y := (a.tile t).pane p
      if y.resident && y.instr.isNone then (a.spillTo t p 0 y.place .good).1 else a) s = s := by
    refine foldl_idle fun p _ => if_neg fun h => ?_
    obtain ⟨hres, hnone⟩ := (Bool.and_eq_true _ _).mp h
    exact hpane p hres (Option.isNone_iff_eq_none.mp hnone)
  have hdone : (s.tile t).finished.any (fun o => o.engine = .array) = false := by simpa using hfin
  simp only [State.arrayStop, hspill, hstop, hin, harr, hdone, ne_eq, not_true_eq_false, if_false]
  rfl

theorem arrayStopped_stops (s : State) (t : TileId) (hstop : s.tileStopping t = true) (hin : (s.tile t).inService = true)
    (harr : (s.tile t).arr.stopped = false) (hfin : ∀ o ∈ (s.tile t).finished, o.engine ≠ .array)
    (hpane : ∀ p, ((s.tile t).pane p).resident = true → ((s.tile t).pane p).instr ≠ none) :
    ∃ s', exec (.arrayStopped t) s = .next s' ∧ s.onlyTile t s'
      ∧ s'.tile t = { s.tile t with arr := { (s.tile t).arr with stopped := true, panes := (s'.tile t).arr.panes } }
      ∧ ∀ p, (s'.tile t).pane p = ((s.tile t).pane p).atStop := by
  refine ⟨_, congrArg Host.Outcome.next (State.arrayStop_eq hstop hin harr hfin hpane), s.updTile_onlyTile t _, ?_,
    fun p => ?_⟩
  · rw [State.tile_updTile_self]; rfl
  · rw [State.tile_updTile_self, Tile.pane_arrayAtStop]

theorem vectorStopped_stops (s : State) (t : TileId) (hstop : s.tileStopping t = true) (hin : (s.tile t).inService = true)
    (hvec : (s.tile t).vec.stopped = false) (hfin : ∀ o ∈ (s.tile t).finished, o.engine ≠ .vector) :
    ∃ s', exec (.vectorStopped t) s = .next s' ∧ s.onlyTile t s'
      ∧ s'.tile t = { s.tile t with vec := { (s.tile t).vec with stopped := true } } := by
  have hdone : (s.tile t).finished.any (fun o => o.engine = .vector) = false := by simpa using hfin
  have hexec : exec (.vectorStopped t) s = .next (s.updTile t fun z => { z with vec := { z.vec with stopped := true } }) := by
    change execVectorStopped t s = _
    simp only [execVectorStopped, hstop, hin, hvec, hdone]
    rfl
  exact ⟨_, hexec, s.updTile_onlyTile t _, s.tile_updTile_self t _⟩

theorem dmaStopped_stops (s : State) (t : TileId) (hstop : s.tileStopping t = true) (hdma : (s.tile t).dma.stopped = false)
    (hfin : ∀ o ∈ (s.tile t).finished, o.engine ≠ .dma)
    (hsent : ∀ o ∈ (s.tile t).dma.ops, s.opStopping t o = true → o.sent = []) :
    ∃ s', exec (.dmaStopped t) s = .next s' ∧ s.onlyTile t s'
      ∧ s'.tile t = { s.tile t with dma := { (s.tile t).dma with stopped := true } } := by
  have hdone : (s.tile t).finished.any (fun o => o.engine = .dma) = false := by simpa using hfin
  have hquiet : ((s.tile t).dma.ops.all fun o => !s.opStopping t o || o.sent.isEmpty) = true := by
    refine List.all_eq_true.mpr fun o ho => ?_
    cases hop : s.opStopping t o
    · rfl
    · simp [hsent o ho hop]
  have hexec : exec (.dmaStopped t) s = .next (s.updTile t fun z => { z with dma := { z.dma with stopped := true } }) := by
    change execDmaStopped t s = _
    simp only [execDmaStopped, hstop, hdma, hquiet, hdone]
    rfl
  exact ⟨_, hexec, s.updTile_onlyTile t _, s.tile_updTile_self t _⟩

/-! ## The save (R396 to R398) -/

theorem State.mem_contextTiles (s : State) (q : QueueId) (t : TileId) :
    t ∈ s.contextTiles q ↔ (((s.tile t).cmd.any fun c => c.queue = q) || (s.tile t).dmaFor q) = true := by
  simp only [State.contextTiles, List.mem_filter, mem_allTiles, true_and]

/-- On a die where the queue has no context there is nothing to save. -/
theorem State.saveDie_idle {s : State} {q : QueueId} {d : DieId} (h : ∀ t ∈ s.contextTiles q, dieOf t ≠ d) : s.saveDie q d = s := by
  have hnone : (s.contextTiles q).filter (fun t => dieOf t = d) = [] := by simpa using h
  simp only [State.saveDie, hnone]

theorem State.workJobs_idle {s : State} (h : s.jobs = []) : s.workJobs = s := by
  simp only [State.workJobs, h, List.foldl_nil]

/-- The pre-emption of a queue that still runs ends with every context saved; firmware has nothing else to go on with. -/
theorem exec_contextSaveDone {s a : State} {q : QueueId} (hp : (s.queue q).preempting = true) (hh : (s.queue q).halting = none)
    (hs : (s.queue q).state = qRunning) (hr : s.savedReady q = true) (ha : allDies.foldl (fun a d => a.saveDie q d) s = a)
    (hj : a.jobs = []) :
    exec (.contextSaveDone q) s = .next (a.updQueue q fun y => { y with state := qPreempted, preempting := false }) := by
  rw [← State.workJobs_idle (s := a.updQueue q _) hj, ← ha]
  change execContextSaveDone q s = _
  simp only [execContextSaveDone, hp, hh, hs, hr]
  rfl

theorem contextSaveDone_nothing (s : State) (q : QueueId) (hp : (s.queue q).preempting = true) (hh : (s.queue q).halting = none)
    (hs : (s.queue q).state = qRunning) (hr : s.savedReady q = true) (hc : s.contextTiles q = []) (hj : s.jobs = []) :
    ∃ s', exec (.contextSaveDone q) s = .next s' ∧ s' = { s with queues := s'.queues } ∧ (∀ r, r ≠ q → s'.queue r = s.queue r)
      ∧ s'.queue q = { s.queue q with state := qPreempted, preempting := false } := by
  have hsave : allDies.foldl (fun a d => a.saveDie q d) s = s := foldl_idle fun d _ => State.saveDie_idle (by simp [hc])
  exact ⟨_, exec_contextSaveDone hp hh hs hr hsave hj, rfl, fun r hne => s.queue_updQueue_ne _ hne, s.queue_updQueue_self q _⟩

/-- An empty cache is dropped without a write. -/
theorem State.dropCache_empty {s : State} {d : DieId} (h : (s.die d).cache = []) :
    s.dropCache d = s.updDie d fun x => { x with cache := [] } := by
  simp only [State.dropCache, State.writeBackAll, h, List.foldl_nil]

/-- The one context of a queue saved in a slot of its die. -/
def State.savedIn (s : State) (q : QueueId) (t : TileId) (i : Nat) : State :=
  ((s.updTile t fun x => x.afterSave q).updDie (dieOf t) fun x => { x with cache := [] }).updDie (dieOf t) fun x =>
    { x with slots := mapPut none x.slots i (some ⟨q, (s.queue q).gen, [(t.val, (s.tile t).context q)], [], []⟩) }

theorem State.saveDie_single {s : State} {q : QueueId} {t : TileId} {i : Nat} {rest : List Nat} (hc : s.contextTiles q = [t])
    (hf : s.freeSlots (dieOf t) = i :: rest) (he : (s.die (dieOf t)).cache = []) : s.saveDie q (dieOf t) = s.savedIn q t i := by
  have hhere : [t].filter (fun u => dieOf u = dieOf t) = [t] := by simp
  simp only [State.saveDie, hc, hhere, hf, List.foldl_cons, List.foldl_nil]
  rw [State.dropCache_empty (by exact he)]
  rfl

theorem State.savedIn_frame (s : State) (q : QueueId) (t : TileId) (i : Nat) :
    s.savedIn q t i = { s with tiles := (s.savedIn q t i).tiles, dies := (s.savedIn q t i).dies } := by
  unfold State.savedIn; rfl

theorem State.updQueue_frame {s a : State} (h : a = { s with tiles := a.tiles, dies := a.dies }) (q : QueueId) (f : Queue → Queue) :
    a.updQueue q f
      = { s with queues := (a.updQueue q f).queues, tiles := (a.updQueue q f).tiles, dies := (a.updQueue q f).dies } := by
  rw [h]; rfl

theorem State.tile_savedIn (s : State) (q : QueueId) (t : TileId) (i : Nat) (u : TileId) :
    (s.savedIn q t i).tile u = if u = t then (s.tile u).afterSave q else s.tile u := by
  simp only [State.savedIn, State.tile_updDie]
  split
  · subst u; exact s.tile_updTile_self t _
  · exact s.tile_updTile_ne _ ‹_›

/-- The contexts of a queue with one tile are saved on that tile's die alone. -/
theorem State.saveDies_single {s : State} {q : QueueId} {t : TileId} {i : Nat} {rest : List Nat} (hc : s.contextTiles q = [t])
    (hf : s.freeSlots (dieOf t) = i :: rest) (he : (s.die (dieOf t)).cache = []) :
    allDies.foldl (fun a d => a.saveDie q d) s = s.savedIn q t i := by
  have hsave := State.saveDie_single hc hf he
  have hafter (u : TileId) (hu : u ∈ (s.savedIn q t i).contextTiles q) : u = t := by
    refine Decidable.byContradiction fun hne => hne ?_
    rw [State.mem_contextTiles, s.tile_savedIn, if_neg hne, ← State.mem_contextTiles, hc] at hu
    exact List.mem_singleton.mp hu
  rw [← hsave]
  refine foldl_single (mem_allDies _) (List.nodup_finRange 12) (fun d hd => State.saveDie_idle fun u hu => ?_)
    fun d hd => State.saveDie_idle fun u hu => ?_
  · rw [hc, List.mem_singleton] at hu; exact hu ▸ hd.symm
  · rw [hsave] at hu; exact hafter u hu ▸ hd.symm

/-- Where a key reads other than the default, its pair is listed. -/
theorem mem_of_mapGet {α : Type} {d x : α} {m : NMap α} {i : Nat} (h : mapGet d m i = x) (hx : x ≠ d) : (i, x) ∈ m := by
  induction m with
  | nil => exact absurd h.symm hx
  | cons e m ih =>
    by_cases hi : i = e.1
    · have hv : e.2 = x := by simpa [mapGet, hi] using h
      exact List.mem_cons.mpr (.inl (Prod.ext hi hv.symm))
    · exact List.mem_cons_of_mem _ (ih (by simpa [mapGet, hi] using h))

@[simp] theorem State.slotOf_updQueue (s : State) (r : QueueId) (f : Queue → Queue) (d : DieId) (q : QueueId) :
    (s.updQueue r f).slotOf d q = s.slotOf d q := rfl

/-- A queue has no slot on a die where none listed is its own. -/
theorem State.slotOf_eq_none (s : State) (d : DieId) (q : QueueId) :
    s.slotOf d q = none ↔ ∀ e ∈ (s.die d).slots, (e.2.any fun k => k.queue = q) = false := by
  unfold State.slotOf
  cases hf : (s.die d).slots.find? fun e => e.2.any fun k => k.queue = q with
  | none => simpa using hf
  | some e =>
    have he := List.find?_some hf
    have hin := List.mem_of_find?_eq_some hf
    refine iff_of_false ?_ fun h => by simp [h e hin] at he
    obtain ⟨j, _ | k⟩ := e
    · exact absurd he Bool.false_ne_true
    · exact Option.some_ne_none _

theorem contextSaveDone_single (s : State) (q : QueueId) (t : TileId) (i : Nat) (rest : List Nat)
    (hp : (s.queue q).preempting = true) (hh : (s.queue q).halting = none) (hs : (s.queue q).state = qRunning)
    (hr : s.savedReady q = true) (hc : s.contextTiles q = [t]) (hf : s.freeSlots (dieOf t) = i :: rest)
    (he : (s.die (dieOf t)).cache = []) (hj : s.jobs = []) :
    ∃ s', exec (.contextSaveDone q) s = .next s' ∧ s' = { s with queues := s'.queues, tiles := s'.tiles, dies := s'.dies }
      ∧ s'.queue q = { s.queue q with state := qPreempted, preempting := false }
      ∧ s'.tile t = (s.tile t).afterSave q ∧ (∀ u, u ≠ t → s'.tile u = s.tile u)
      ∧ s'.slotOf (dieOf t) q ≠ none
      ∧ mapGet none (s'.die (dieOf t)).slots i = some ⟨q, (s.queue q).gen, [(t.val, (s.tile t).context q)], [], []⟩ := by
  have hjobs : (s.savedIn q t i).jobs = [] := by rw [s.savedIn_frame]; exact hj
  have hexec := exec_contextSaveDone hp hh hs hr (State.saveDies_single hc hf he) hjobs
  have hslot : mapGet none ((s.savedIn q t i).die (dieOf t)).slots i
      = some ⟨q, (s.queue q).gen, [(t.val, (s.tile t).context q)], [], []⟩ := by
    rw [State.savedIn, State.die_updDie_self, mapGet_put_self]
  refine ⟨_, hexec, State.updQueue_frame (s.savedIn_frame q t i) q _, ?_, ?_, fun u hu => ?_, fun hnone => ?_, ?_⟩
  · rw [State.queue_updQueue_self, s.savedIn_frame]; rfl
  · rw [State.tile_updQueue, s.tile_savedIn, if_pos rfl]
  · rw [State.tile_updQueue, s.tile_savedIn, if_neg hu]
  · rw [State.slotOf_updQueue, State.slotOf_eq_none] at hnone
    simpa using hnone _ (mem_of_mapGet hslot (Option.some_ne_none _))
  · rw [State.die_updQueue, hslot]

/-! ## The restore (R395, R398) -/

/-- The contexts of one die reloaded. -/
def State.reloadDie (q : QueueId) (a : State) (d : DieId) : State :=
  match a.slotOf d q with
  | none => a
  | some (_, k) => k.tiles.foldl (fun b e => match TileId.ofNat? e.1 with
      | none => b
      | some t => b.updTile t fun x => x.restored e.2) a

theorem State.reloadContexts_eq (s : State) (q : QueueId) :
    s.reloadContexts q = (allDies.foldl (State.reloadDie q) s).dropContexts q := rfl

theorem State.reloadDie_onlyTiles (q : QueueId) (s : State) (d : DieId) : s.onlyTiles (State.reloadDie q s d) := by
  unfold State.reloadDie
  split
  · rfl
  · refine .foldl (fun b e => ?_) _ s
    split <;> rfl

theorem State.reloadDies_onlyTiles (s : State) (q : QueueId) : s.onlyTiles (allDies.foldl (State.reloadDie q) s) :=
  .foldl (State.reloadDie_onlyTiles q) allDies s

theorem TileId.ofNat?_val (t : TileId) : TileId.ofNat? t.val = some t := dif_pos t.isLt

/-- A queue whose contexts are of one tile has that tile restored alone. -/
theorem State.reloadDies_single {s : State} {q : QueueId} {d : DieId} {i : Nat} {k : CtxSlot} {t : TileId} {y : Tile}
    (hd : s.slotOf d q = some (i, k)) (hk : k.tiles = [(t.val, y)])
    (hother : ∀ e j m, s.slotOf e q = some (j, m) → e ≠ d → m.tiles = []) :
    allDies.foldl (State.reloadDie q) s = s.updTile t fun x => x.restored y := by
  have hhere : State.reloadDie q s d = s.updTile t fun x => x.restored y := by
    simp only [State.reloadDie, hd, hk, List.foldl_cons, List.foldl_nil, TileId.ofNat?_val]
  have hidle (a : State) (ha : s.onlyTiles a) (e : DieId) (he : e ≠ d) : State.reloadDie q a e = a := by
    simp only [State.reloadDie, ha.slotOf]
    split
    · rfl
    · rw [hother e _ _ ‹_› he]; rfl
  rw [← hhere]
  exact foldl_single (mem_allDies d) (List.nodup_finRange 12) (hidle s rfl) (hidle _ (State.reloadDie_onlyTiles q s d))

/-- The contexts reloaded and every die of the partition acquired, whole. -/
def State.reloaded (s : State) (q : QueueId) : State := (s.reloadContexts q).acquirePart (s.queuePart q) none

/-- A die once a queue's contexts are dropped from its slots, and once it is acquired. -/
def Die.withoutContexts (x : Die) (q : QueueId) : Die := { x with slots := x.slots.filter fun e => !(e.2.any fun k => k.queue = q) }
def Die.acquired (x : Die) : Die := { x with gen := x.gen + 1, clearing := true }

theorem State.reloaded_eq (s : State) (q : QueueId) : s.reloaded q
    = ((s.reloadContexts q).partDies (s.queuePart q)).foldl (fun a d => a.updDie d Die.acquired) (s.reloadContexts q) := rfl

theorem State.die_reloadContexts (s : State) (q : QueueId) (d : DieId) : (s.reloadContexts q).die d = (s.die d).withoutContexts q := by
  have hdrop := State.die_foldl_updDie (fun x => x.withoutContexts q) (List.nodup_finRange 12) (allDies.foldl (State.reloadDie q) s) d
  rw [if_pos (List.mem_finRange d), (s.reloadDies_onlyTiles q).die] at hdrop
  rw [State.reloadContexts_eq]
  exact hdrop

theorem State.die_reloaded (s : State) (q : QueueId) (d : DieId) :
    (s.reloaded q).die d = if (s.die d).owner = some (s.queuePart q) then ((s.die d).withoutContexts q).acquired
      else (s.die d).withoutContexts q := by
  have hn : ((s.reloadContexts q).partDies (s.queuePart q)).Nodup := (List.nodup_finRange 12).filter _
  have hmem : d ∈ (s.reloadContexts q).partDies (s.queuePart q) ↔ (s.die d).owner = some (s.queuePart q) := by
    simp [State.partDies, mem_allDies, s.die_reloadContexts, Die.withoutContexts]
  rw [State.reloaded_eq, State.die_foldl_updDie Die.acquired hn, s.die_reloadContexts]
  by_cases hown : (s.die d).owner = some (s.queuePart q)
  · rw [if_pos (hmem.mpr hown), if_pos hown]
  · rw [if_neg (mt hmem.mp hown), if_neg hown]

/-- The reload touches tiles and dies alone; what follows the reloading of the tiles leaves them as they are. -/
theorem State.reloaded_frame (s : State) (q : QueueId) :
    s.onlyUnits (s.reloaded q) ∧ (s.reloaded q).tiles = (allDies.foldl (State.reloadDie q) s).tiles := by
  have htiles := (s.reloadDies_onlyTiles q).onlyUnits
  obtain ⟨hdrop, hdropped⟩ := (allDies.foldl (State.reloadDie q) s).foldl_updDie_frame (fun x => x.withoutContexts q) allDies
  obtain ⟨hacq, hacquired⟩ := (s.reloadContexts q).foldl_updDie_frame Die.acquired ((s.reloadContexts q).partDies (s.queuePart q))
  exact ⟨(htiles.trans hdrop).trans hacq, hacquired.trans hdropped⟩

/-- After the reload no slot holds a context of the queue. -/
theorem State.slotOf_reloaded (s : State) (q : QueueId) (d : DieId) : (s.reloaded q).slotOf d q = none := by
  rw [State.slotOf_eq_none, State.die_reloaded]
  have hslots : ∀ e ∈ ((s.die d).withoutContexts q).slots, (e.2.any fun k => k.queue = q) = false :=
    fun e he => by simpa using (List.mem_filter.mp he).2
  split <;> exact hslots

/-- A queue that runs no persistent kernel has none to launch. -/
theorem State.launchResident_idle {s : State} {q : QueueId} (h : ∀ g, (s.queue q).cfg = some g → g.persist = false) :
    s.launchResident q = s := by
  simp only [State.launchResident]
  split
  · rfl
  · rw [h _ ‹_›]; rfl

/-- A queue with records fetched does not settle. -/
theorem State.settle_busy {s : State} {q : QueueId} (h : (s.queue q).cmds ≠ []) : s.settle q = s := by
  simp [State.settle, h]

/-- Without collectives and persistent kernel, a queue with sound contexts goes on once they are reloaded. -/
theorem State.restoreQueue_eq {s : State} {q : QueueId} (hp : s.contextPoisoned q = false) (hk : ∀ k ∈ s.colls, k.cmd.queue ≠ q)
    (hg : ∀ g, (s.queue q).cfg = some g → g.persist = false) (hc : (s.queue q).cmds ≠ []) :
    s.restoreQueue q = (s.reloaded q).updQueue q fun x => { x with state := qRunning } := by
  obtain ⟨hu, -⟩ := s.reloaded_frame q
  have hq : ((s.reloaded q).updQueue q fun x => { x with state := qRunning }).queue q = { s.queue q with state := qRunning } := by
    rw [State.queue_updQueue_self, hu.queue]
  have hcolls : ((s.reloaded q).updQueue q fun x => { x with state := qRunning }).colls.filter (fun k => k.cmd.queue = q) = [] := by
    rw [State.colls_updQueue, hu.colls]
    simpa using hk
  simp only [State.restoreQueue, hp, Bool.false_eq_true, if_false, ← State.reloaded.eq_def, hcolls, List.foldl_nil]
  rw [State.launchResident_idle (by rw [hq]; exact hg), State.settle_busy (by rw [hq]; exact hc)]

theorem exec_queueRestore {s : State} {q : QueueId} (hs : (s.queue q).state = qPreempted) (hl : s.lending (s.queuePart q) = false)
    (ha : s.partAwake (s.queuePart q) = true) (hr : (s.restoreTiles q).all (fun t => s.tileReady t) = true)
    (ho : s.outranked q (s.restoreTiles q) = false) : exec (.queueRestore q) s = .next (s.restoreQueue q) := by
  change execQueueRestore q s = _
  simp only [execQueueRestore, hs, hl, ha, hr, ho]
  rfl

theorem queueRestore_goesOn (s : State) (q : QueueId) (hs : (s.queue q).state = qPreempted) (hl : s.lending (s.queuePart q) = false)
    (ha : s.partAwake (s.queuePart q) = true) (hr : (s.restoreTiles q).all (fun t => s.tileReady t) = true)
    (ho : s.outranked q (s.restoreTiles q) = false) (hp : s.contextPoisoned q = false) (hk : ∀ k ∈ s.colls, k.cmd.queue ≠ q)
    (hg : ∀ g, (s.queue q).cfg = some g → g.persist = false) (hc : (s.queue q).cmds ≠ []) :
    ∃ s', exec (.queueRestore q) s = .next s' ∧ s'.queue q = { s.queue q with state := qRunning }
      ∧ (∀ r, r ≠ q → s'.queue r = s.queue r)
      ∧ (∀ d, s'.slotOf d q = none) ∧ (∀ d, (s.die d).owner = some (s.queuePart q) → (s'.die d).gen = (s.die d).gen + 1)
      ∧ ∀ d i k t y, s.slotOf d q = some (i, k) → k.tiles = [(t.val, y)] →
          (∀ e j m, s.slotOf e q = some (j, m) → e ≠ d → m.tiles = []) →
          s'.tile t = (s.tile t).restored y := by
  have hexec := exec_queueRestore hs hl ha hr ho
  obtain ⟨hu, htiles⟩ := s.reloaded_frame q
  rw [State.restoreQueue_eq hp hk hg hc] at hexec
  refine ⟨_, hexec, ?_, fun r hne => ?_, fun d => ?_, fun d hown => ?_, fun d i k t y hd hk hother => ?_⟩
  · rw [State.queue_updQueue_self, hu.queue]
  · rw [State.queue_updQueue_ne _ _ hne, hu.queue]
  · rw [State.slotOf_updQueue, s.slotOf_reloaded]
  · rw [State.die_updQueue, s.die_reloaded, if_pos hown]; rfl
  · rw [State.tile_updQueue, State.tile_of_tiles htiles, State.reloadDies_single hd hk hother, State.tile_updTile_self]

/-- Settles O35: a pre-empted queue's sequencers and engines stop, its contexts are saved and its tiles freed, and it
goes on from them (R391 to R398; notes/assumptions/47.md, 48.md). -/
theorem preemptionStopsSavesAndRestores : Obligations.PreemptionStopsSavesAndRestores := by
  unfold Obligations.PreemptionStopsSavesAndRestores
  exact ⟨preemption_stopsSequencers, arrayStopped_stops, vectorStopped_stops, dmaStopped_stops, contextSaveDone_nothing,
    fun s q t i rest hp hh hs hr hc _ => contextSaveDone_single s q t i rest hp hh hs hr hc, queueRestore_goesOn⟩

end Sys2Proof.Machine
